-- ==== Sys2Proof/Word.lean ====
section
/-!
DEFINITION. Words and bytes (spec/00 R2 to R4): bit 0 is the least significant bit; a register and a depth word have
64 bits, an instruction word 32.
-/

namespace Sys2Proof

abbrev Byte := BitVec 8
abbrev Half16 := BitVec 16
abbrev W32 := BitVec 32
abbrev Word := BitVec 64
/-- One bit for each lane of a footprint of up to four sectors (spec/04 R69). -/
abbrev Mask := BitVec 768

/-- A field of a word: `n` bits from bit `lo` (spec/00 R2). -/
def field {m : Nat} (w : BitVec m) (lo n : Nat) : BitVec n := BitVec.ofNat n (w.toNat / 2 ^ lo)

/-- One bit of a word. -/
def flag {m : Nat} (w : BitVec m) (lo : Nat) : Bool := w.toNat / 2 ^ lo % 2 == 1

/-- A field as a number. -/
def bits {m : Nat} (w : BitVec m) (hi lo : Nat) : Nat := w.toNat / 2 ^ lo % 2 ^ (hi + 1 - lo)

end Sys2Proof
end

