-- ==== Sys2Proof/Syntax.lean ====
section
/-!
DEFINITION. The instruction syntax: one constructor of `Instr` for each row of spec/opcode_table.json.  The first 304
rows are words with an encoding (spec/04 R66 to R88); the last 88 rows are the device's own events, which have no
encoding: their operands name which queue, group, core, port or entry the event concerns.
-/

namespace Sys2Proof

/-- Register number fields (spec/04 R69). -/
abbrev SReg := BitVec 5
abbrev VReg := BitVec 5
abbrev PReg := BitVec 3

/-- RM (spec/04 R75): the mode of MODE.RND, nearest even, toward zero, stochastic. -/
inductive Rm where | mode | rn | rz | rs
  deriving DecidableEq, Repr

/-- Element widths of majors 0x10 to 0x12 (spec/04 R77). -/
inductive Wid3 where | w8 | w16 | w32
  deriving DecidableEq, Repr

/-- Access and element widths of two bits (spec/04 R77, R79). -/
inductive Wid4 where | w8 | w16 | w32 | w64
  deriving DecidableEq, Repr

/-- The half-width formats of majors 0x1A and 0x1B (spec/04 R77). -/
inductive Half where | bf16 | f16
  deriving DecidableEq, Repr

/-- Type codes 0 to 13 of spec/04 R78. -/
inductive NumTy where
  | i8 | n8 | i16 | n16 | i32 | n32 | i64 | n64 | f32 | bf16 | f16 | e4m3 | e5m2 | e2m1
  deriving DecidableEq, Repr

/-- Pack selectors of major 0x1D (spec/09, table before R197). -/
inductive PackForm where | b16 | b32 | e4m3 | e5m2
  deriving DecidableEq, Repr

/-- Key types of `vmatch` (spec/09 R206). -/
inductive KeyTy where | i64 | i32 | f32 | bf16 | f16
  deriving DecidableEq, Repr

/-- Scroll directions and edge modes (spec/10 R226). -/
inductive Dir where | px | mx | py | my
  deriving DecidableEq, Repr
inductive Edge where | wrap | spill | fill
  deriving DecidableEq, Repr

/-- SC of memory words (spec/12, writing memory instructions). -/
inductive Sc where | none | team | dev | sys
  deriving DecidableEq, Repr

/-- Memory scopes (spec/01 R19). -/
inductive Scope where | group | team | cluster | die | device | system
  deriving DecidableEq, Repr

/-- Fence kinds (spec/15 R323). -/
inductive FenceKind where | acq | rel | ar
  deriving DecidableEq, Repr

/-- SCOPE, ORDER and CACHE of a modifier hint (spec/04 R87). -/
inductive ModScope where | none | at (s : Scope)
  deriving DecidableEq, Repr
inductive ModOrder where | byKind | acquire | release | both
  deriving DecidableEq, Repr
inductive ModCache where | dflt | noL1 | noDc | stream | keep
  deriving DecidableEq, Repr

/-- KIND of the acquisition instructions (spec/06 R130). -/
inductive AcqKind where | pin | plane | acc | tag | ring
  deriving DecidableEq, Repr

/-- MSEL of `mma` (spec/14). -/
inductive MSel where | m32 | m64 | m128
  deriving DecidableEq, Repr

/-- A core view or a die view of the ordering machine (spec/15 R311). -/
inductive ViewId where | core (c : Nat) | die (d : Nat)
  deriving DecidableEq, Repr

/-- Where a soft error can strike (spec/23 R407, R418): a word of a plane, an element of a cached lane row, a cached
scalar, an accumulator element, a line of a first-level or die cache, a layout-cache entry, an operand copy, a matrix
array row, a 32-byte granule of a heap, a triplicated latch, the parity row of a word's group. -/
inductive ErrSite where
  | plane (core word : Nat)
  | lane (core sector row cell : Nat)
  | scalar (core entry : Nat)
  | acc (core slot elem : Nat)
  | l1 (core line : Nat)
  | dcache (die line : Nat)
  | layout (core idx : Nat)
  | opcopy (core word : Nat)
  | matRow (core row : Nat)
  | hbm (granule : Nat)
  | latch
  | parity (of : ErrSite)
  deriving DecidableEq, Repr

/-- An entry of a core's queue of commands or matrix instructions, and one of its items or words (spec/15 R328). -/
structure Spot where
  idx : Nat
  item : Nat := 0
  deriving DecidableEq, Repr

/-- What a matrix engine does: it begins its queue's next instruction, or reads plane word `copy` into its copy (spec/14 R302, R306). -/
structure EngineStep where
  core : Nat
  copy : Option Nat := none
  deriving DecidableEq, Repr

/-- A pipeline stage of a core (spec/23 R415). -/
structure CoreStage where
  core : Nat
  stage : Nat := 0
  deriving DecidableEq, Repr

/-- What answers a load: its value, the value of a store that waits in a view (0 to 575 the core views, 576 and on the die views), one
that `younger` others for its bytes have followed (spec/15 R316), or an error (spec/24 R422, R428). -/
inductive Reply where
  | value
  | waiting (view younger : Nat)
  | error
  deriving DecidableEq, Repr

/-- Where a request of the host goes (spec/24 R421). -/
inductive HostSpot where
  | bar0 (off : BitVec 20)
  | bar2 (off : BitVec 36)
  | elsewhere
  deriving DecidableEq, Repr

/-- A request of the host: so many bytes read, or bytes written, or another kind (spec/24 R421). -/
inductive HostReq where
  | read (n : Nat)
  | write (bytes : List (BitVec 8))
  | other
  deriving DecidableEq, Repr

/-- Atomic operations (spec/12 R252). -/
inductive AtomOp where | add | and | or | xor | minI | minN | maxI | maxN | swap | cas | addf
  deriving DecidableEq, Repr

/-- A request of a peer: so many bytes read, bytes written, or an atomic of `n` bytes (spec/24 R428, R430). -/
inductive PeerReq where
  | read (n : Nat)
  | write (bytes : List (BitVec 8))
  | atomic (f : AtomOp) (n : Nat) (x y : BitVec 64)
  deriving DecidableEq, Repr

/-- A firmware image: its contents, whether its signature over its digest holds, and whether the module is at power-up (spec/24
R431). -/
structure Image where
  contents : List (BitVec 8)
  signed : Bool
  powerUp : Bool := false
  deriving DecidableEq, Repr

/-- The instructions and events of the opcode table. -/
inductive Instr where
  | add (d a b : BitVec 5) (l m e x : Bool)
  | sub (d a b : BitVec 5) (l m e x : Bool)
  | and (d a b : BitVec 5) (l m e x : Bool)
  | or (d a b : BitVec 5) (l m e x : Bool)
  | xor (d a b : BitVec 5) (l m e x : Bool)
  | andn (d a b : BitVec 5) (l m e x : Bool)
  | shl (d a b : BitVec 5) (l m e x : Bool)
  | shrI (d a b : BitVec 5) (l m e x : Bool)
  | shrN (d a b : BitVec 5) (l m e x : Bool)
  | rotl (d a b : BitVec 5) (l m e x : Bool)
  | rotr (d a b : BitVec 5) (l m e x : Bool)
  | mul (d a b : BitVec 5) (l m e x : Bool)
  | mulhI (d a b : BitVec 5) (l m e x : Bool)
  | mulhN (d a b : BitVec 5) (l m e x : Bool)
  | minI (d a b : BitVec 5) (l m e x : Bool)
  | minN (d a b : BitVec 5) (l m e x : Bool)
  | maxI (d a b : BitVec 5) (l m e x : Bool)
  | maxN (d a b : BitVec 5) (l m e x : Bool)
  | divI (d a b : BitVec 5) (l m e x : Bool)
  | divN (d a b : BitVec 5) (l m e x : Bool)
  | remI (d a b : BitVec 5) (l m e x : Bool)
  | remN (d a b : BitVec 5) (l m e x : Bool)
  | clz (d a : BitVec 5) (l e x : Bool)
  | ctz (d a : BitVec 5) (l e x : Bool)
  | popc (d a : BitVec 5) (l e x : Bool)
  | brev (d a : BitVec 5) (l e x : Bool)
  | bswap (d a : BitVec 5) (l e x : Bool)
  | abs (d a : BitVec 5) (l e x : Bool)
  | addsI (d a b : BitVec 5) (l m e x : Bool)
  | subsI (d a b : BitVec 5) (l m e x : Bool)
  | seq (d a b : BitVec 5) (l m e x : Bool)
  | sne (d a b : BitVec 5) (l m e x : Bool)
  | sltI (d a b : BitVec 5) (l m e x : Bool)
  | sltN (d a b : BitVec 5) (l m e x : Bool)
  | sleI (d a b : BitVec 5) (l m e x : Bool)
  | sleN (d a b : BitVec 5) (l m e x : Bool)
  | cmovnz (d a b : BitVec 5) (l m e x : Bool)
  | cmovz (d a b : BitVec 5) (l m e x : Bool)
  | addi (d a : BitVec 5) (l : Bool) (i : BitVec 11)
  | andi (d a : BitVec 5) (l : Bool) (i : BitVec 11)
  | ori (d a : BitVec 5) (l : Bool) (i : BitVec 11)
  | xori (d a : BitVec 5) (l : Bool) (i : BitVec 11)
  | shli (d a : BitVec 5) (l : Bool) (i : BitVec 11)
  | shriI (d a : BitVec 5) (l : Bool) (i : BitVec 11)
  | shriN (d a : BitVec 5) (l : Bool) (i : BitVec 11)
  | sltiI (d a : BitVec 5) (l : Bool) (i : BitVec 11)
  | sltiN (d a : BitVec 5) (l : Bool) (i : BitVec 11)
  | seqi (d a : BitVec 5) (l : Bool) (i : BitVec 11)
  | muli (d a : BitVec 5) (l : Bool) (i : BitVec 11)
  | rotli (d a : BitVec 5) (l : Bool) (i : BitVec 11)
  | bfxI (d a : BitVec 5) (l : Bool) (n : BitVec 5) (p : BitVec 6)
  | bfxN (d a : BitVec 5) (l : Bool) (n : BitVec 5) (p : BitVec 6)
  | bfi (d a : BitVec 5) (l : Bool) (n : BitVec 5) (p : BitVec 6)
  | lea2 (d a b : BitVec 5) (l m e x : Bool)
  | lea4 (d a b : BitVec 5) (l m e x : Bool)
  | lea8 (d a b : BitVec 5) (l m e x : Bool)
  | lea16 (d a b : BitVec 5) (l m e x : Bool)
  | mov (d a : BitVec 5) (l e : Bool)
  | srd (d : BitVec 5) (i : BitVec 11)
  | swr (a : BitVec 5) (l : Bool) (i : BitVec 11)
  | hrd (d : BitVec 5) (h : BitVec 4)
  | hwr (a : BitVec 5) (l : Bool) (h : BitVec 4)
  | hadd (d a : BitVec 5) (l : Bool) (h : BitVec 4)
  | srdv (d : BitVec 5)
  | fadd (r : Rm) (d a b : BitVec 5) (l m e : Bool)
  | fsub (r : Rm) (d a b : BitVec 5) (l m e : Bool)
  | fmul (r : Rm) (d a b : BitVec 5) (l m e : Bool)
  | fdiv (r : Rm) (d a b : BitVec 5) (l m e : Bool)
  | ffma (r : Rm) (d a b : BitVec 5) (l m e : Bool)
  | fsqrt (r : Rm) (d a : BitVec 5) (l e : Bool)
  | fcvtF32I64 (r : Rm) (d a : BitVec 5) (l e : Bool)
  | fcvtI64F32 (r : Rm) (d a : BitVec 5) (l e : Bool)
  | br (o : BitVec 17)
  | bz (r : BitVec 5) (o : BitVec 17)
  | bnz (r : BitVec 5) (o : BitVec 17)
  | blt (r : BitVec 5) (o : BitVec 17)
  | bge (r : BitVec 5) (o : BitVec 17)
  | bany (r : PReg) (o : BitVec 17)
  | ball (r : PReg) (o : BitVec 17)
  | bnone (r : PReg) (o : BitVec 17)
  | call (d : BitVec 5) (o : BitVec 17)
  | callr (d a : BitVec 5) (l e : Bool)
  | ret (a : BitVec 5) (l e : Bool)
  | exit (q : BitVec 3)
  | yield
  | enq (d a b : BitVec 5) (l m e : Bool)
  | trap (i : BitVec 11)
  | pand (d a b : PReg) (q : BitVec 3)
  | por (d a b : PReg) (q : BitVec 3)
  | pxor (d a b : PReg) (q : BitVec 3)
  | pandn (d a b : PReg) (q : BitVec 3)
  | pnot (d a : PReg) (q : BitVec 3)
  | pmov (d a : PReg) (q : BitVec 3)
  | pset (d : PReg) (a : BitVec 5) (q : BitVec 3) (l e : Bool)
  | pfirst (d a : PReg) (q : BitVec 3)
  | vadd (w : Wid3) (d a b : BitVec 5) (q : BitVec 3) (l m e x : Bool)
  | vsub (w : Wid3) (d a b : BitVec 5) (q : BitVec 3) (l m e x : Bool)
  | vmul (w : Wid3) (d a b : BitVec 5) (q : BitVec 3) (l m e x : Bool)
  | vminI (w : Wid3) (d a b : BitVec 5) (q : BitVec 3) (l m e : Bool)
  | vminN (w : Wid3) (d a b : BitVec 5) (q : BitVec 3) (l m e : Bool)
  | vmaxI (w : Wid3) (d a b : BitVec 5) (q : BitVec 3) (l m e : Bool)
  | vmaxN (w : Wid3) (d a b : BitVec 5) (q : BitVec 3) (l m e : Bool)
  | vabsdI (w : Wid3) (d a b : BitVec 5) (q : BitVec 3) (l m e : Bool)
  | vabsdN (w : Wid3) (d a b : BitVec 5) (q : BitVec 3) (l m e : Bool)
  | vavgI (w : Wid3) (d a b : BitVec 5) (q : BitVec 3) (l m e : Bool)
  | vavgN (w : Wid3) (d a b : BitVec 5) (q : BitVec 3) (l m e : Bool)
  | vshl (w : Wid3) (d a b : BitVec 5) (q : BitVec 3) (l m e x : Bool)
  | vshrI (w : Wid3) (d a b : BitVec 5) (q : BitVec 3) (l m e : Bool)
  | vshrN (w : Wid3) (d a b : BitVec 5) (q : BitVec 3) (l m e : Bool)
  | vneg (w : Wid3) (d a : BitVec 5) (q : BitVec 3) (l e x : Bool)
  | vabs (w : Wid3) (d a : BitVec 5) (q : BitVec 3) (l e x : Bool)
  | vaddI64 (d a b : BitVec 5) (q : BitVec 3) (l m e x : Bool)
  | vsubI64 (d a b : BitVec 5) (q : BitVec 3) (l m e x : Bool)
  | vmulI64 (d a b : BitVec 5) (q : BitVec 3) (l m e x : Bool)
  | vminI64 (d a b : BitVec 5) (q : BitVec 3) (l m e : Bool)
  | vminN64 (d a b : BitVec 5) (q : BitVec 3) (l m e : Bool)
  | vmaxI64 (d a b : BitVec 5) (q : BitVec 3) (l m e : Bool)
  | vmaxN64 (d a b : BitVec 5) (q : BitVec 3) (l m e : Bool)
  | vshlI64 (d a b : BitVec 5) (q : BitVec 3) (l m e x : Bool)
  | vshrI64 (d a b : BitVec 5) (q : BitVec 3) (l m e : Bool)
  | vshrN64 (d a b : BitVec 5) (q : BitVec 3) (l m e : Bool)
  | vand (d a b : BitVec 5) (q : BitVec 3) (l m e : Bool)
  | vor (d a b : BitVec 5) (q : BitVec 3) (l m e : Bool)
  | vxor (d a b : BitVec 5) (q : BitVec 3) (l m e : Bool)
  | vandn (d a b : BitVec 5) (q : BitVec 3) (l m e : Bool)
  | vnot (d a : BitVec 5) (q : BitVec 3) (l e : Bool)
  | vpopc (d a : BitVec 5) (q : BitVec 3) (l e : Bool)
  | vaddi (w : Wid4) (d a : BitVec 5) (q : BitVec 3) (l : Bool) (i : BitVec 8)
  | vshli (w : Wid4) (d a : BitVec 5) (q : BitVec 3) (l : Bool) (i : BitVec 8)
  | vshriI (w : Wid4) (d a : BitVec 5) (q : BitVec 3) (l : Bool) (i : BitVec 8)
  | vshriN (w : Wid4) (d a : BitVec 5) (q : BitVec 3) (l : Bool) (i : BitVec 8)
  | vceq (w : Wid4) (d : PReg) (a b : BitVec 5) (q : BitVec 3) (l m e x : Bool)
  | vcne (w : Wid4) (d : PReg) (a b : BitVec 5) (q : BitVec 3) (l m e x : Bool)
  | vclt (w : Wid4) (d : PReg) (a b : BitVec 5) (q : BitVec 3) (l m e x : Bool)
  | vcle (w : Wid4) (d : PReg) (a b : BitVec 5) (q : BitVec 3) (l m e x : Bool)
  | vdot4I8 (d a b : BitVec 5) (q : BitVec 3) (l m e x : Bool)
  | vdot4N8 (d a b : BitVec 5) (q : BitVec 3) (l m e x : Bool)
  | vdot2I16 (d a b : BitVec 5) (q : BitVec 3) (l m e x : Bool)
  | vdot2N16 (d a b : BitVec 5) (q : BitVec 3) (l m e x : Bool)
  | vmadI16 (d a b : BitVec 5) (q : BitVec 3) (l m e x : Bool)
  | vmadI32 (d a b : BitVec 5) (q : BitVec 3) (l m e x : Bool)
  | vmadI64 (d a b : BitVec 5) (q : BitVec 3) (l m e x : Bool)
  | vaddminI16 (d a b : BitVec 5) (q : BitVec 3) (l m e x : Bool)
  | vaddmaxI16 (d a b : BitVec 5) (q : BitVec 3) (l m e x : Bool)
  | vaddminI32 (d a b : BitVec 5) (q : BitVec 3) (l m e x : Bool)
  | vaddmaxI32 (d a b : BitVec 5) (q : BitVec 3) (l m e x : Bool)
  | vaddminF32 (d a b : BitVec 5) (q : BitVec 3) (l m e : Bool)
  | vaddmaxF32 (d a b : BitVec 5) (q : BitVec 3) (l m e : Bool)
  | vsel (d a b : BitVec 5) (q : BitVec 3) (l m e : Bool)
  | vaddF32 (r : Rm) (d a b : BitVec 5) (q : BitVec 3) (l m e : Bool)
  | vsubF32 (r : Rm) (d a b : BitVec 5) (q : BitVec 3) (l m e : Bool)
  | vmulF32 (r : Rm) (d a b : BitVec 5) (q : BitVec 3) (l m e : Bool)
  | vdivF32 (r : Rm) (d a b : BitVec 5) (q : BitVec 3) (l m e : Bool)
  | vsqrtF32 (r : Rm) (d a : BitVec 5) (q : BitVec 3) (l e : Bool)
  | vminF32 (d a b : BitVec 5) (q : BitVec 3) (l m e : Bool)
  | vmaxF32 (d a b : BitVec 5) (q : BitVec 3) (l m e : Bool)
  | vfcltF32 (d : PReg) (a b : BitVec 5) (q : BitVec 3) (l m e : Bool)
  | vfcleF32 (d : PReg) (a b : BitVec 5) (q : BitVec 3) (l m e : Bool)
  | vfceqF32 (d : PReg) (a b : BitVec 5) (q : BitVec 3) (l m e : Bool)
  | vfmaF32 (r : Rm) (d a b : BitVec 5) (q : BitVec 3) (l m e x : Bool)
  | vfmsF32 (r : Rm) (d a b : BitVec 5) (q : BitVec 3) (l m e x : Bool)
  | vfmaw (r : Rm) (d a b : BitVec 5) (q : BitVec 3) (l m e x : Bool)
  | vaddHalf (t : Half) (r : Rm) (d a b : BitVec 5) (q : BitVec 3) (l m e : Bool)
  | vsubHalf (t : Half) (r : Rm) (d a b : BitVec 5) (q : BitVec 3) (l m e : Bool)
  | vmulHalf (t : Half) (r : Rm) (d a b : BitVec 5) (q : BitVec 3) (l m e : Bool)
  | vfmaHalf (t : Half) (r : Rm) (d a b : BitVec 5) (q : BitVec 3) (l m e : Bool)
  | vfnmaHalf (t : Half) (r : Rm) (d a b : BitVec 5) (q : BitVec 3) (l m e : Bool)
  | vminHalf (t : Half) (d a b : BitVec 5) (q : BitVec 3) (l m e : Bool)
  | vmaxHalf (t : Half) (d a b : BitVec 5) (q : BitVec 3) (l m e : Bool)
  | vfcltHalf (t : Half) (d : PReg) (a b : BitVec 5) (q : BitVec 3) (l m e : Bool)
  | vfcleHalf (t : Half) (d : PReg) (a b : BitVec 5) (q : BitVec 3) (l m e : Bool)
  | vfceqHalf (t : Half) (d : PReg) (a b : BitVec 5) (q : BitVec 3) (l m e : Bool)
  | vcvt (t : NumTy) (d a : BitVec 5) (s : NumTy) (q : BitVec 3) (l : Bool) (r : Rm) (x : Bool)
  | vqpack (r : Rm) (d a : BitVec 5) (p : PackForm) (q : BitVec 3) (l e x : Bool)
  | vqunpack (r : Rm) (d a : BitVec 5) (p : PackForm) (q : BitVec 3) (l e x : Bool)
  | vqscale (r : Rm) (d a b : BitVec 5) (q : BitVec 3) (l m e : Bool)
  | vrcp (d a : BitVec 5) (q : BitVec 3) (l e : Bool)
  | vrsqrt (d a : BitVec 5) (q : BitVec 3) (l e : Bool)
  | vsqrtSfu (d a : BitVec 5) (q : BitVec 3) (l e : Bool)
  | vexp2 (d a : BitVec 5) (q : BitVec 3) (l e : Bool)
  | vlog2 (d a : BitVec 5) (q : BitVec 3) (l e : Bool)
  | vsin (d a : BitVec 5) (q : BitVec 3) (l e : Bool)
  | vcos (d a : BitVec 5) (q : BitVec 3) (l e : Bool)
  | vtanh (d a : BitVec 5) (q : BitVec 3) (l e : Bool)
  | vsigm (d a : BitVec 5) (q : BitVec 3) (l e : Bool)
  | verf (d a : BitVec 5) (q : BitVec 3) (l e : Bool)
  | vcmulF32 (d a b : BitVec 5) (q : BitVec 3) (l m e : Bool)
  | vcmulcF32 (d a b : BitVec 5) (q : BitVec 3) (l m e : Bool)
  | vcmulBf16 (d a b : BitVec 5) (q : BitVec 3) (l m e : Bool)
  | vbflyF32 (d a b : BitVec 5) (q : BitVec 3) (l m e : Bool)
  | vbflyBf16 (d a b : BitVec 5) (q : BitVec 3) (l m e : Bool)
  | vlread (d a b : BitVec 5) (q : BitVec 3) (l m e : Bool)
  | vshlx (d a b : BitVec 5) (q : BitVec 3) (l m e : Bool)
  | vshrx (d a b : BitVec 5) (q : BitVec 3) (l m e : Bool)
  | vshly (d a b : BitVec 5) (q : BitVec 3) (l m e : Bool)
  | vshry (d a b : BitVec 5) (q : BitVec 3) (l m e : Bool)
  | vsubsel (d a b : BitVec 5) (q : BitVec 3) (l m e : Bool)
  | vrotx (d a b : BitVec 5) (q : BitVec 3) (l m e : Bool)
  | vmatch (d a : BitVec 5) (k : KeyTy) (q : BitVec 3) (l e : Bool)
  | vballot (d : BitVec 5) (a : PReg) (q : BitVec 3)
  | vredaddI64 (d a : BitVec 5) (q : BitVec 3) (l e : Bool)
  | vredaddF32 (d a : BitVec 5) (q : BitVec 3) (l e : Bool)
  | vredminI64 (d a : BitVec 5) (q : BitVec 3) (l e : Bool)
  | vredmaxI64 (d a : BitVec 5) (q : BitVec 3) (l e : Bool)
  | vredminF32 (d a : BitVec 5) (q : BitVec 3) (l e : Bool)
  | vredmaxF32 (d a : BitVec 5) (q : BitVec 3) (l e : Bool)
  | vscanaddI64 (d a : BitVec 5) (q : BitVec 3) (l e : Bool)
  | vscanaddF32 (d a : BitVec 5) (q : BitVec 3) (l e : Bool)
  | vscanmaxI64 (d a : BitVec 5) (q : BitVec 3) (l e : Bool)
  | vpcount (d : BitVec 5) (a : PReg) (q : BitVec 3)
  | vmov (d a : BitVec 5) (q : BitVec 3) (l e : Bool)
  | vbcast (d a : BitVec 5) (q : BitVec 3) (l e : Bool)
  | vextr (d a b : BitVec 5) (l m e : Bool)
  | vmovi (d : BitVec 5) (q : BitVec 3) (i : BitVec 8)
  | pld (d : BitVec 5) (h j : BitVec 3) (z : BitVec 7) (q : BitVec 3) (l : Bool)
  | pst (d : BitVec 5) (z : BitVec 7) (q : BitVec 3) (l : Bool)
  | pwinSumI32 (d : BitVec 5) (k : BitVec 3) (z : BitVec 7) (q : BitVec 3) (l : Bool)
  | pwinSumF32 (d : BitVec 5) (k : BitVec 3) (z : BitVec 7) (q : BitVec 3) (l : Bool)
  | pwinMaxI32 (d : BitVec 5) (k : BitVec 3) (z : BitVec 7) (q : BitVec 3) (l : Bool)
  | pwinMaxF32 (d : BitVec 5) (k : BitVec 3) (z : BitVec 7) (q : BitVec 3) (l : Bool)
  | pwinMinI32 (d : BitVec 5) (k : BitVec 3) (z : BitVec 7) (q : BitVec 3) (l : Bool)
  | pwinMinF32 (d : BitVec 5) (k : BitVec 3) (z : BitVec 7) (q : BitVec 3) (l : Bool)
  | scroll (h : BitVec 5) (d : BitVec 4) (r : Dir) (e : Edge) (s : BitVec 5)
  | scrollResume (h : BitVec 5) (d : BitVec 4) (r : Dir) (e : Edge) (s : BitVec 5)
  | pzero (a : BitVec 5) (l e : Bool)
  | pfill (a b : BitVec 5) (l m e : Bool)
  | pcopy (a b : BitVec 5) (l m e : Bool)
  | phnd (d a b : BitVec 5) (l m e : Bool)
  | pclip (d a b : BitVec 5) (l m e : Bool)
  | vgather (k : Bool) (w : Wid4) (d b i : BitVec 5) (q : BitVec 3) (l v : Bool) (s : Sc)
  | vscatter (k : Bool) (w : Wid4) (d b i : BitVec 5) (q : BitVec 3) (l v : Bool) (s : Sc)
  | ld (k : Bool) (w : Wid4) (d b i : BitVec 5) (l v : Bool) (s : Sc)
  | st (k : Bool) (w : Wid4) (d b i : BitVec 5) (l v : Bool) (s : Sc)
  | tld (d b i : BitVec 5) (v : Bool) (s : Sc)
  | tst (d b i : BitVec 5) (l v : Bool) (s : Sc)
  | lflush (b : BitVec 5)
  | aadd (d b i : BitVec 5) (l v : Bool) (s : Sc)
  | aand (d b i : BitVec 5) (l v : Bool) (s : Sc)
  | aor (d b i : BitVec 5) (l v : Bool) (s : Sc)
  | axor (d b i : BitVec 5) (l v : Bool) (s : Sc)
  | aminI (d b i : BitVec 5) (l v : Bool) (s : Sc)
  | aminN (d b i : BitVec 5) (l v : Bool) (s : Sc)
  | amaxI (d b i : BitVec 5) (l v : Bool) (s : Sc)
  | amaxN (d b i : BitVec 5) (l v : Bool) (s : Sc)
  | aswap (d b i : BitVec 5) (l v : Bool) (s : Sc)
  | acas (d b i : BitVec 5) (l v : Bool) (s : Sc)
  | aaddf (d b i : BitVec 5) (v : Bool) (s : Sc)
  | lds (k : Bool) (w : Wid4) (d b i : BitVec 5) (q : BitVec 3) (l : Bool)
  | sts (k : Bool) (w : Wid4) (d b i : BitVec 5) (q : BitVec 3) (l : Bool)
  | pfc (b i : BitVec 5)
  | pfd (b i : BitVec 5)
  | cwb (b i : BitVec 5)
  | cinv (b i : BitVec 5)
  | cwbinv (b i : BitVec 5)
  | cpyGp (a : BitVec 5) (t : BitVec 6) (c : BitVec 5)
  | cpyPg (a : BitVec 5) (t : BitVec 6) (c : BitVec 5)
  | cpyPp (a : BitVec 5) (t : BitVec 6) (c : BitVec 5)
  | cpyGg (a : BitVec 5) (t : BitVec 6) (c : BitVec 5)
  | waitAny (d a : BitVec 5)
  | waitAll (d a : BitVec 5)
  | tagfind (d a : BitVec 5)
  | tagclr (a : BitVec 5)
  | nmv (a : BitVec 5) (t : BitVec 6) (c : BitVec 5)
  | nmrd (a : BitVec 5) (t : BitVec 6) (c : BitVec 5)
  | nmwr (a : BitVec 5) (t : BitVec 6) (c : BitVec 5)
  | nmwrm (a : BitVec 5) (t : BitVec 6) (c : BitVec 5)
  | mma (a : BitVec 5) (s : BitVec 4) (m : MSel) (n : BitVec 6) (q : BitVec 3) (r c : Bool)
  | accz (s n : BitVec 4) (q : BitVec 3)
  | accld (h : BitVec 5) (s n : BitVec 4) (c : BitVec 3) (r : Rm) (q : BitVec 3)
  | accrd (h : BitVec 5) (s n : BitVec 4) (c : BitVec 3) (r : Rm) (q : BitVec 3)
  | mfence
  | mwait (s : BitVec 4)
  | bar (l : BitVec 3)
  | barArrive (l : BitVec 3)
  | barWait (l : BitVec 3)
  | fence (s : Scope) (k : FenceKind)
  | ringWait (g : BitVec 4) (s : BitVec 3) (p : Bool)
  | ringSig (g : BitVec 4) (s : BitVec 3)
  | ringTest (d : BitVec 5) (g : BitVec 4) (s : BitVec 3) (p : Bool)
  | send (a e : BitVec 5) (l : Bool)
  | recv (d e : BitVec 5)
  | trysend (d a e : BitVec 5) (l : Bool)
  | chstat (d e : BitVec 5)
  | acqW (a : BitVec 5) (k : AcqKind)
  | acqF (d a : BitVec 5) (k : AcqKind)
  | rel (a : BitVec 5) (k : AcqKind)
  | setperf (a : BitVec 5)
  | setperfV (a : BitVec 5)
  | pdrop (a : BitVec 5)
  | ctxrd (d a b : BitVec 5)
  | ctxwr (d a b : BitVec 5)
  | idem
  | idemEnd
  | tret (a b : BitVec 5)
  | vkill (d a : BitVec 5)
  | skill (d a : BitVec 5)
  | sret (d a b : BitVec 5)
  | grpsusp (d a : BitVec 5)
  | grpres (d a : BitVec 5)
  | asgen (d a b : BitVec 5)
  | rpt (n : BitVec 6) (d a b : Bool) (s : BitVec 2)
  | wide (p : BitVec 24)
  | mod (s : ModScope) (o : ModOrder) (c : ModCache) (t : Bool)
  | sched (y : Bool) (p : BitVec 2) (s : BitVec 16)
  | doorbellWrite (q : Nat) (tail : BitVec 32)
  | qerrClear (m : Nat) (bits : BitVec 64)
  | nothingEntry (q : Nat)
  | launchEntry (q : Nat)
  | waitEntry (q : Nat)
  | waitEntryPoll (q : Nat)
  | signalEntry (q : Nat)
  | endEntry (q : Nat)
  | cplheadPoll (q : Nat)
  | priorityAging (q : Nat)
  | unitAdmission (grid : Nat)
  | unitReservation (grid : Nat)
  | teamStart (dist : Nat)
  | groupStart (team : Nat)
  | arrivalLaunch (core ep : Nat)
  | groupActivation (core : Nat)
  | demotion (core : Nat)
  | schedulerSwap (core : Nat)
  | registerFill (group : Nat)
  | loadReply (group idx part : Nat) (reply : Reply)
  | sfuResult (core idx : Nat)
  | bankWake (core : Nat) (plane : Bool) (bank : Nat)
  | bankRetention (core : Nat) (plane : Bool) (bank : Nat)
  | storeDrain (group idx : Nat)
  | storePush (view : ViewId) (idx : Nat)
  | viewRefresh (view : ViewId) (addr : Nat)
  | syncSignal (idx : Nat)
  | barrierReleaseInjection (idx : Nat)
  | channelOfferArrival (idx : Nat)
  | scrollExecute (core : Nat)
  | copyCommandStart (core : Nat) (spot : Spot)
  | copyCommandComplete (core : Nat) (spot : Spot)
  | rawPacketComplete (core : Nat) (spot : Spot)
  | matrixBegin (what : EngineStep)
  | matrixComplete (core : Nat) (spot : Spot)
  | slewWindowStart (core : Nat)
  | granuleSlot (core : Nat)
  | perfMoveComplete (cluster : Nat)
  | dwellBoundary
  | mmcCapChange (cluster : Nat) (code : BitVec 4)
  | perfcapWrite (v : BitVec 64)
  | slewctlWrite (v : BitVec 64)
  | barstagWrite (v : BitVec 64)
  | seedWrite (group : Nat) (v : BitVec 64)
  | preemptPreempt (save : BitVec 64)
  | preemptSaveComplete (team : Nat)
  | preemptRestart (save : BitVec 64)
  | savedTeamReadmission (team : Nat)
  | watchdogExpiry (group : Nat)
  | deferredTrap (group : Nat)
  | handlerStart (team : Nat)
  | systemEventPost
  | sysevptrWrite (v : BitVec 64)
  | groupRetire (group : Nat)
  | gridEnd (grid : Nat)
  | rebuildComplete (die : Nat)
  | classifierEntryExpiry (die idx : Nat)
  | arrayRepair (die idx : Nat)
  | scrubRead (idx : Nat)
  | rotatingRowCheck (core row : Nat)
  | hbmPatrolScrub (addr : Nat)
  | timingReplay (at_ : CoreStage)
  | linkFlitReplay (link : Nat)
  | fabricWireRepair (link : Nat)
  | rasstatWrite (core : Nat) (v : BitVec 64)
  | portFailover (port : Nat) (lane : BitVec 3)
  | portFailoverComplete (port : Nat)
  | portRetrain (port : Nat)
  | portRetrainEnd (port : Nat) (ok : Bool) (spare : Option (BitVec 3))
  | lossOfSignal (port : Nat)
  | portstatWrite (v : BitVec 64)
  | remoteAccessTimeout (group idx part : Nat)
  | hostRequestCompletion (group idx part : Nat) (reply : Reply)
  | inboundPeerAccess (port : Nat) (addr : BitVec 44) (req : PeerReq)
  | bar2HostAccess (spot : HostSpot) (req : HostReq)
  | bar2mapWrite (v : BitVec 64)
  | peerwinWrite (v : BitVec 64)
  | functionLevelReset
  | moduleReset
  | attestationRequest (nonce : BitVec 512)
  | attestationReport
  | firmwareImageLoad (digest : BitVec 512) (version : BitVec 32) (image : Image)
  | registerWrite (core : Nat) (num : BitVec 11) (v : BitVec 64)
  | clearingComplete (core : Nat)
  | softError (site : ErrSite)
  | dieReset (die : Nat) (uncore enter : Bool)
  | portFlitReplay (port : Nat)
  | powerStateChange (d3 : Bool)
  deriving DecidableEq, Repr

end Sys2Proof
end

