-- ==== Sys2Proof/WellFormed.lean ====
section
/-!
DEFINITION. Well-formed instructions: the operand values that spec/04 R68 and R70 and the families' chapters refuse
whatever the state holds.  A word whose fields break one of these checks is no instruction (R81).
-/

namespace Sys2Proof

/-- The width of an element in bits. -/
def Wid3.bits : Wid3 → Nat
  | .w8 => 8
  | .w16 => 16
  | .w32 => 32
def Wid4.bits : Wid4 → Nat
  | .w8 => 8
  | .w16 => 16
  | .w32 => 32
  | .w64 => 64

/-- The rows M of a tile (spec/14, encoding of mma). -/
def MSel.rows : MSel → Nat
  | .m32 => 32
  | .m64 => 64
  | .m128 => 128

/-- N = 16 NF, and NF = 0 means 1024 (spec/14). -/
def tileCols (nf : BitVec 6) : Nat := if nf.toNat = 0 then 1024 else 16 * nf.toNat

/-- The first of three scalars of a command (spec/13 R275, spec/14 R298). -/
def triple (a : BitVec 5) : Bool := 1 ≤ a.toNat && a.toNat ≤ 29

/-- Numbers 0 to 1023 that `srd` may name (spec/04 R80). -/
def srdLow (n : Nat) : Bool := n ≤ 4 || (8 ≤ n && n ≤ 28)

/-- Numbers 0 to 1023 that `swr` may name: the RW and S registers of spec/04 R80. -/
def swrLow (n : Nat) : Bool := [0, 1, 17, 19, 20, 21, 22, 26, 28].contains n

/-- A 64-bit load must have LD = 0 (spec/04 R79). -/
def loadOk (w : Wid4) (l : Bool) : Bool := !(w == .w64 && l)

/-- DX and DY of `pld` run from -2 to 2 (spec/10 R222). -/
def winOk (v : BitVec 3) : Bool := !(v.toNat == 3 || v.toNat == 4 || v.toNat == 5)

/-- Rounding of `accrd` applies to CVT 1 to 4 only (spec/14 R300). -/
def accrdOk (c : BitVec 3) (r : Rm) : Bool := c.toNat ≤ 6 && ((1 ≤ c.toNat && c.toNat ≤ 4) || r == .mode)

/-- The checks that depend on the word alone. -/
def Instr.wf : Instr → Bool
  | .shli _ _ _ i => i.toNat < 64
  | .shriI _ _ _ i => i.toNat < 64
  | .shriN _ _ _ i => i.toNat < 64
  | .rotli _ _ _ i => i.toNat < 64
  | .bfxI _ _ _ n p => p.toNat + n.toNat + 1 ≤ 64
  | .bfxN _ _ _ n p => p.toNat + n.toNat + 1 ≤ 64
  | .bfi _ _ _ n p => p.toNat + n.toNat + 1 ≤ 64
  | .srd _ i => 1024 ≤ i.toNat || srdLow i.toNat
  | .swr _ _ i => 1024 ≤ i.toNat || swrLow i.toNat
  | .vshli w _ _ _ _ i => i.toNat < w.bits
  | .vshriI w _ _ _ _ i => i.toNat < w.bits
  | .vshriN w _ _ _ _ i => i.toNat < w.bits
  | .vcvt t _ _ s _ _ _ _ => t != s
  | .pld _ h j _ _ _ => winOk h && winOk j
  | .pwinSumI32 _ k _ _ _ => k.toNat ≤ 4
  | .pwinSumF32 _ k _ _ _ => k.toNat ≤ 4
  | .pwinMaxI32 _ k _ _ _ => k.toNat ≤ 4
  | .pwinMaxF32 _ k _ _ _ => k.toNat ≤ 4
  | .pwinMinI32 _ k _ _ _ => k.toNat ≤ 4
  | .pwinMinF32 _ k _ _ _ => k.toNat ≤ 4
  | .scroll _ d _ e s => d.toNat != 0 && (e == .fill || s.toNat == 0)
  | .scrollResume _ d _ e s => d.toNat != 0 && (e == .fill || s.toNat == 0)
  | .vgather _ w _ _ _ _ l _ _ => loadOk w l
  | .ld _ w _ _ _ l _ _ => loadOk w l
  | .tld _ _ i _ _ => i.toNat != 31
  | .tst _ _ i _ _ _ => i.toNat != 31
  | .acas d _ _ _ _ _ => d.toNat ≤ 30
  | .lds _ w _ _ _ _ l => loadOk w l
  | .cpyGp a _ _ => triple a
  | .cpyPg a _ _ => triple a
  | .cpyPp a _ _ => triple a
  | .cpyGg a _ _ => triple a
  | .nmv a _ _ => triple a
  | .nmrd a _ _ => triple a
  | .nmwr a _ _ => triple a
  | .nmwrm a _ _ => triple a
  | .mma a s _ n _ _ _ => triple a && s.toNat + (tileCols n + 127) / 128 ≤ 12
  | .accz s n _ => s.toNat + n.toNat < 12
  | .accld h s n c r _ => h.toNat != 0 && s.toNat + n.toNat < 12 && c.toNat ≤ 3 && r == .mode
  | .accrd h s n c r _ => h.toNat != 0 && s.toNat + n.toNat < 12 && accrdOk c r
  | .mwait s => s.toNat < 12
  | .bar l => 2 ≤ l.toNat
  | .barArrive l => 2 ≤ l.toNat
  | .barWait l => 2 ≤ l.toNat
  | .send a _ _ => 1 ≤ a.toNat && a.toNat ≤ 30
  | .trysend _ a _ _ => 1 ≤ a.toNat && a.toNat ≤ 30
  | .vkill d a => d.toNat ≤ a.toNat
  | .skill d a => d.toNat ≤ a.toNat
  | .mod s o _ _ => s != .none || o == .byKind
  | .add _ _ _ _ _ _ _ => true
  | .sub _ _ _ _ _ _ _ => true
  | .and _ _ _ _ _ _ _ => true
  | .or _ _ _ _ _ _ _ => true
  | .xor _ _ _ _ _ _ _ => true
  | .andn _ _ _ _ _ _ _ => true
  | .shl _ _ _ _ _ _ _ => true
  | .shrI _ _ _ _ _ _ _ => true
  | .shrN _ _ _ _ _ _ _ => true
  | .rotl _ _ _ _ _ _ _ => true
  | .rotr _ _ _ _ _ _ _ => true
  | .mul _ _ _ _ _ _ _ => true
  | .mulhI _ _ _ _ _ _ _ => true
  | .mulhN _ _ _ _ _ _ _ => true
  | .minI _ _ _ _ _ _ _ => true
  | .minN _ _ _ _ _ _ _ => true
  | .maxI _ _ _ _ _ _ _ => true
  | .maxN _ _ _ _ _ _ _ => true
  | .divI _ _ _ _ _ _ _ => true
  | .divN _ _ _ _ _ _ _ => true
  | .remI _ _ _ _ _ _ _ => true
  | .remN _ _ _ _ _ _ _ => true
  | .clz _ _ _ _ _ => true
  | .ctz _ _ _ _ _ => true
  | .popc _ _ _ _ _ => true
  | .brev _ _ _ _ _ => true
  | .bswap _ _ _ _ _ => true
  | .abs _ _ _ _ _ => true
  | .addsI _ _ _ _ _ _ _ => true
  | .subsI _ _ _ _ _ _ _ => true
  | .seq _ _ _ _ _ _ _ => true
  | .sne _ _ _ _ _ _ _ => true
  | .sltI _ _ _ _ _ _ _ => true
  | .sltN _ _ _ _ _ _ _ => true
  | .sleI _ _ _ _ _ _ _ => true
  | .sleN _ _ _ _ _ _ _ => true
  | .cmovnz _ _ _ _ _ _ _ => true
  | .cmovz _ _ _ _ _ _ _ => true
  | .addi _ _ _ _ => true
  | .andi _ _ _ _ => true
  | .ori _ _ _ _ => true
  | .xori _ _ _ _ => true
  | .sltiI _ _ _ _ => true
  | .sltiN _ _ _ _ => true
  | .seqi _ _ _ _ => true
  | .muli _ _ _ _ => true
  | .lea2 _ _ _ _ _ _ _ => true
  | .lea4 _ _ _ _ _ _ _ => true
  | .lea8 _ _ _ _ _ _ _ => true
  | .lea16 _ _ _ _ _ _ _ => true
  | .mov _ _ _ _ => true
  | .hrd _ _ => true
  | .hwr _ _ _ => true
  | .hadd _ _ _ _ => true
  | .srdv _ => true
  | .fadd _ _ _ _ _ _ _ => true
  | .fsub _ _ _ _ _ _ _ => true
  | .fmul _ _ _ _ _ _ _ => true
  | .fdiv _ _ _ _ _ _ _ => true
  | .ffma _ _ _ _ _ _ _ => true
  | .fsqrt _ _ _ _ _ => true
  | .fcvtF32I64 _ _ _ _ _ => true
  | .fcvtI64F32 _ _ _ _ _ => true
  | .br _ => true
  | .bz _ _ => true
  | .bnz _ _ => true
  | .blt _ _ => true
  | .bge _ _ => true
  | .bany _ _ => true
  | .ball _ _ => true
  | .bnone _ _ => true
  | .call _ _ => true
  | .callr _ _ _ _ => true
  | .ret _ _ _ => true
  | .exit _ => true
  | .yield => true
  | .enq _ _ _ _ _ _ => true
  | .trap _ => true
  | .pand _ _ _ _ => true
  | .por _ _ _ _ => true
  | .pxor _ _ _ _ => true
  | .pandn _ _ _ _ => true
  | .pnot _ _ _ => true
  | .pmov _ _ _ => true
  | .pset _ _ _ _ _ => true
  | .pfirst _ _ _ => true
  | .vadd _ _ _ _ _ _ _ _ _ => true
  | .vsub _ _ _ _ _ _ _ _ _ => true
  | .vmul _ _ _ _ _ _ _ _ _ => true
  | .vminI _ _ _ _ _ _ _ _ => true
  | .vminN _ _ _ _ _ _ _ _ => true
  | .vmaxI _ _ _ _ _ _ _ _ => true
  | .vmaxN _ _ _ _ _ _ _ _ => true
  | .vabsdI _ _ _ _ _ _ _ _ => true
  | .vabsdN _ _ _ _ _ _ _ _ => true
  | .vavgI _ _ _ _ _ _ _ _ => true
  | .vavgN _ _ _ _ _ _ _ _ => true
  | .vshl _ _ _ _ _ _ _ _ _ => true
  | .vshrI _ _ _ _ _ _ _ _ => true
  | .vshrN _ _ _ _ _ _ _ _ => true
  | .vneg _ _ _ _ _ _ _ => true
  | .vabs _ _ _ _ _ _ _ => true
  | .vaddI64 _ _ _ _ _ _ _ _ => true
  | .vsubI64 _ _ _ _ _ _ _ _ => true
  | .vmulI64 _ _ _ _ _ _ _ _ => true
  | .vminI64 _ _ _ _ _ _ _ => true
  | .vminN64 _ _ _ _ _ _ _ => true
  | .vmaxI64 _ _ _ _ _ _ _ => true
  | .vmaxN64 _ _ _ _ _ _ _ => true
  | .vshlI64 _ _ _ _ _ _ _ _ => true
  | .vshrI64 _ _ _ _ _ _ _ => true
  | .vshrN64 _ _ _ _ _ _ _ => true
  | .vand _ _ _ _ _ _ _ => true
  | .vor _ _ _ _ _ _ _ => true
  | .vxor _ _ _ _ _ _ _ => true
  | .vandn _ _ _ _ _ _ _ => true
  | .vnot _ _ _ _ _ => true
  | .vpopc _ _ _ _ _ => true
  | .vaddi _ _ _ _ _ _ => true
  | .vceq _ _ _ _ _ _ _ _ _ => true
  | .vcne _ _ _ _ _ _ _ _ _ => true
  | .vclt _ _ _ _ _ _ _ _ _ => true
  | .vcle _ _ _ _ _ _ _ _ _ => true
  | .vdot4I8 _ _ _ _ _ _ _ _ => true
  | .vdot4N8 _ _ _ _ _ _ _ _ => true
  | .vdot2I16 _ _ _ _ _ _ _ _ => true
  | .vdot2N16 _ _ _ _ _ _ _ _ => true
  | .vmadI16 _ _ _ _ _ _ _ _ => true
  | .vmadI32 _ _ _ _ _ _ _ _ => true
  | .vmadI64 _ _ _ _ _ _ _ _ => true
  | .vaddminI16 _ _ _ _ _ _ _ _ => true
  | .vaddmaxI16 _ _ _ _ _ _ _ _ => true
  | .vaddminI32 _ _ _ _ _ _ _ _ => true
  | .vaddmaxI32 _ _ _ _ _ _ _ _ => true
  | .vaddminF32 _ _ _ _ _ _ _ => true
  | .vaddmaxF32 _ _ _ _ _ _ _ => true
  | .vsel _ _ _ _ _ _ _ => true
  | .vaddF32 _ _ _ _ _ _ _ _ => true
  | .vsubF32 _ _ _ _ _ _ _ _ => true
  | .vmulF32 _ _ _ _ _ _ _ _ => true
  | .vdivF32 _ _ _ _ _ _ _ _ => true
  | .vsqrtF32 _ _ _ _ _ _ => true
  | .vminF32 _ _ _ _ _ _ _ => true
  | .vmaxF32 _ _ _ _ _ _ _ => true
  | .vfcltF32 _ _ _ _ _ _ _ => true
  | .vfcleF32 _ _ _ _ _ _ _ => true
  | .vfceqF32 _ _ _ _ _ _ _ => true
  | .vfmaF32 _ _ _ _ _ _ _ _ _ => true
  | .vfmsF32 _ _ _ _ _ _ _ _ _ => true
  | .vfmaw _ _ _ _ _ _ _ _ _ => true
  | .vaddHalf _ _ _ _ _ _ _ _ _ => true
  | .vsubHalf _ _ _ _ _ _ _ _ _ => true
  | .vmulHalf _ _ _ _ _ _ _ _ _ => true
  | .vfmaHalf _ _ _ _ _ _ _ _ _ => true
  | .vfnmaHalf _ _ _ _ _ _ _ _ _ => true
  | .vminHalf _ _ _ _ _ _ _ _ => true
  | .vmaxHalf _ _ _ _ _ _ _ _ => true
  | .vfcltHalf _ _ _ _ _ _ _ _ => true
  | .vfcleHalf _ _ _ _ _ _ _ _ => true
  | .vfceqHalf _ _ _ _ _ _ _ _ => true
  | .vqpack _ _ _ _ _ _ _ _ => true
  | .vqunpack _ _ _ _ _ _ _ _ => true
  | .vqscale _ _ _ _ _ _ _ _ => true
  | .vrcp _ _ _ _ _ => true
  | .vrsqrt _ _ _ _ _ => true
  | .vsqrtSfu _ _ _ _ _ => true
  | .vexp2 _ _ _ _ _ => true
  | .vlog2 _ _ _ _ _ => true
  | .vsin _ _ _ _ _ => true
  | .vcos _ _ _ _ _ => true
  | .vtanh _ _ _ _ _ => true
  | .vsigm _ _ _ _ _ => true
  | .verf _ _ _ _ _ => true
  | .vcmulF32 _ _ _ _ _ _ _ => true
  | .vcmulcF32 _ _ _ _ _ _ _ => true
  | .vcmulBf16 _ _ _ _ _ _ _ => true
  | .vbflyF32 _ _ _ _ _ _ _ => true
  | .vbflyBf16 _ _ _ _ _ _ _ => true
  | .vlread _ _ _ _ _ _ _ => true
  | .vshlx _ _ _ _ _ _ _ => true
  | .vshrx _ _ _ _ _ _ _ => true
  | .vshly _ _ _ _ _ _ _ => true
  | .vshry _ _ _ _ _ _ _ => true
  | .vsubsel _ _ _ _ _ _ _ => true
  | .vrotx _ _ _ _ _ _ _ => true
  | .vmatch _ _ _ _ _ _ => true
  | .vballot _ _ _ => true
  | .vredaddI64 _ _ _ _ _ => true
  | .vredaddF32 _ _ _ _ _ => true
  | .vredminI64 _ _ _ _ _ => true
  | .vredmaxI64 _ _ _ _ _ => true
  | .vredminF32 _ _ _ _ _ => true
  | .vredmaxF32 _ _ _ _ _ => true
  | .vscanaddI64 _ _ _ _ _ => true
  | .vscanaddF32 _ _ _ _ _ => true
  | .vscanmaxI64 _ _ _ _ _ => true
  | .vpcount _ _ _ => true
  | .vmov _ _ _ _ _ => true
  | .vbcast _ _ _ _ _ => true
  | .vextr _ _ _ _ _ _ => true
  | .vmovi _ _ _ => true
  | .pst _ _ _ _ => true
  | .pzero _ _ _ => true
  | .pfill _ _ _ _ _ => true
  | .pcopy _ _ _ _ _ => true
  | .phnd _ _ _ _ _ _ => true
  | .pclip _ _ _ _ _ _ => true
  | .vscatter _ _ _ _ _ _ _ _ _ => true
  | .st _ _ _ _ _ _ _ _ => true
  | .lflush _ => true
  | .aadd _ _ _ _ _ _ => true
  | .aand _ _ _ _ _ _ => true
  | .aor _ _ _ _ _ _ => true
  | .axor _ _ _ _ _ _ => true
  | .aminI _ _ _ _ _ _ => true
  | .aminN _ _ _ _ _ _ => true
  | .amaxI _ _ _ _ _ _ => true
  | .amaxN _ _ _ _ _ _ => true
  | .aswap _ _ _ _ _ _ => true
  | .aaddf _ _ _ _ _ => true
  | .sts _ _ _ _ _ _ _ => true
  | .pfc _ _ => true
  | .pfd _ _ => true
  | .cwb _ _ => true
  | .cinv _ _ => true
  | .cwbinv _ _ => true
  | .waitAny _ _ => true
  | .waitAll _ _ => true
  | .tagfind _ _ => true
  | .tagclr _ => true
  | .mfence => true
  | .fence _ _ => true
  | .ringWait _ _ _ => true
  | .ringSig _ _ => true
  | .ringTest _ _ _ _ => true
  | .recv _ _ => true
  | .chstat _ _ => true
  | .acqW _ _ => true
  | .acqF _ _ _ => true
  | .rel _ _ => true
  | .setperf _ => true
  | .setperfV _ => true
  | .pdrop _ => true
  | .ctxrd _ _ _ => true
  | .ctxwr _ _ _ => true
  | .idem => true
  | .idemEnd => true
  | .tret _ _ => true
  | .sret _ _ _ => true
  | .grpsusp _ _ => true
  | .grpres _ _ => true
  | .asgen _ _ _ => true
  | .rpt _ _ _ _ _ => true
  | .wide _ => true
  | .sched _ _ _ => true
  | .doorbellWrite _ _ => true
  | .qerrClear _ _ => true
  | .nothingEntry _ => true
  | .launchEntry _ => true
  | .waitEntry _ => true
  | .waitEntryPoll _ => true
  | .signalEntry _ => true
  | .endEntry _ => true
  | .cplheadPoll _ => true
  | .priorityAging _ => true
  | .unitAdmission _ => true
  | .unitReservation _ => true
  | .teamStart _ => true
  | .groupStart _ => true
  | .arrivalLaunch _ _ => true
  | .groupActivation _ => true
  | .demotion _ => true
  | .schedulerSwap _ => true
  | .registerFill _ => true
  | .loadReply _ _ _ _ => true
  | .sfuResult _ _ => true
  | .bankWake _ _ _ => true
  | .bankRetention _ _ _ => true
  | .storeDrain _ _ => true
  | .storePush _ _ => true
  | .viewRefresh _ _ => true
  | .syncSignal _ => true
  | .barrierReleaseInjection _ => true
  | .channelOfferArrival _ => true
  | .scrollExecute _ => true
  | .copyCommandStart _ _ => true
  | .copyCommandComplete _ _ => true
  | .rawPacketComplete _ _ => true
  | .matrixBegin _ => true
  | .matrixComplete _ _ => true
  | .slewWindowStart _ => true
  | .granuleSlot _ => true
  | .perfMoveComplete _ => true
  | .dwellBoundary => true
  | .mmcCapChange _ _ => true
  | .perfcapWrite _ => true
  | .slewctlWrite _ => true
  | .barstagWrite _ => true
  | .seedWrite _ _ => true
  | .preemptPreempt _ => true
  | .preemptSaveComplete _ => true
  | .preemptRestart _ => true
  | .savedTeamReadmission _ => true
  | .watchdogExpiry _ => true
  | .deferredTrap _ => true
  | .handlerStart _ => true
  | .systemEventPost => true
  | .sysevptrWrite _ => true
  | .groupRetire _ => true
  | .gridEnd _ => true
  | .rebuildComplete _ => true
  | .classifierEntryExpiry _ _ => true
  | .arrayRepair _ _ => true
  | .scrubRead _ => true
  | .rotatingRowCheck _ _ => true
  | .hbmPatrolScrub _ => true
  | .timingReplay _ => true
  | .linkFlitReplay _ => true
  | .fabricWireRepair _ => true
  | .rasstatWrite _ _ => true
  | .portFailover _ _ => true
  | .portFailoverComplete _ => true
  | .portRetrain _ => true
  | .portRetrainEnd _ _ _ => true
  | .lossOfSignal _ => true
  | .portstatWrite _ => true
  | .remoteAccessTimeout _ _ _ => true
  | .hostRequestCompletion _ _ _ _ => true
  | .inboundPeerAccess _ _ _ => true
  | .bar2HostAccess _ _ => true
  | .bar2mapWrite _ => true
  | .peerwinWrite _ => true
  | .functionLevelReset => true
  | .moduleReset => true
  | .attestationRequest _ => true
  | .attestationReport => true
  | .firmwareImageLoad _ _ _ => true
  | .registerWrite _ _ _ => true
  | .clearingComplete _ => true
  | .softError _ => true
  | .dieReset _ _ _ => true
  | .portFlitReplay _ => true
  | .powerStateChange _ => true

end Sys2Proof
end

