-- ==== Sys2Proof/Decode.lean ====
section
/-!
DEFINITION. Decoding of instruction words and, after it, the encoder (spec/04 R66 to R88).  `decode` is total on every
32-bit word: a word that is no instruction is rejected by name (R81).  Each format of R67 and R68 is a structure of its
fields; `unpack` cuts a word into them and `pack` puts them together under a major opcode.
-/

namespace Sys2Proof

/-- Why a word is no instruction (spec/04 R81). -/
inductive Reject where
  | reservedMajor   -- majors 0x00, 0x0B to 0x0F, 0x23, 0x27, 0x2F, 0x33, 0x37
  | unassigned      -- an FN, COND or hint KIND that R76 to R79 leave unassigned
  | reservedField   -- a nonzero reserved field, or an X bit without a meaning (R74)
  | refusedOperand  -- a value that R68, R70 or the family's chapter refuses
  deriving DecidableEq, Repr

/-- What a word reads as: an instruction, or a rejection by name. -/
inductive Dec where
  | ok (i : Instr)
  | error (r : Reject)
  deriving DecidableEq, Repr

def Rm.toBits : Rm → BitVec 2
  | .mode => 0
  | .rn => 1
  | .rz => 2
  | .rs => 3
def Rm.ofBits (v : BitVec 2) : Option Rm :=
  match v.toNat with
  | 0 => some .mode
  | 1 => some .rn
  | 2 => some .rz
  | 3 => some .rs
  | _ => .none

def Wid3.toBits : Wid3 → BitVec 2
  | .w8 => 0
  | .w16 => 1
  | .w32 => 2
def Wid3.ofBits (v : BitVec 2) : Option Wid3 :=
  match v.toNat with
  | 0 => some .w8
  | 1 => some .w16
  | 2 => some .w32
  | _ => .none

def Wid4.toBits : Wid4 → BitVec 2
  | .w8 => 0
  | .w16 => 1
  | .w32 => 2
  | .w64 => 3
def Wid4.ofBits (v : BitVec 2) : Option Wid4 :=
  match v.toNat with
  | 0 => some .w8
  | 1 => some .w16
  | 2 => some .w32
  | 3 => some .w64
  | _ => .none

def Half.toBits : Half → BitVec 1
  | .bf16 => 0
  | .f16 => 1
def Half.ofBits (v : BitVec 1) : Option Half :=
  match v.toNat with
  | 0 => some .bf16
  | 1 => some .f16
  | _ => .none

def Dir.toBits : Dir → BitVec 2
  | .px => 0
  | .mx => 1
  | .py => 2
  | .my => 3
def Dir.ofBits (v : BitVec 2) : Option Dir :=
  match v.toNat with
  | 0 => some .px
  | 1 => some .mx
  | 2 => some .py
  | 3 => some .my
  | _ => .none

def Edge.toBits : Edge → BitVec 2
  | .wrap => 0
  | .spill => 1
  | .fill => 2
def Edge.ofBits (v : BitVec 2) : Option Edge :=
  match v.toNat with
  | 0 => some .wrap
  | 1 => some .spill
  | 2 => some .fill
  | _ => .none

def Sc.toBits : Sc → BitVec 2
  | .none => 0
  | .team => 1
  | .dev => 2
  | .sys => 3
def Sc.ofBits (v : BitVec 2) : Option Sc :=
  match v.toNat with
  | 0 => some .none
  | 1 => some .team
  | 2 => some .dev
  | 3 => some .sys
  | _ => .none

def AcqKind.toBits : AcqKind → BitVec 3
  | .pin => 0
  | .plane => 1
  | .acc => 2
  | .tag => 3
  | .ring => 4
def AcqKind.ofBits (v : BitVec 3) : Option AcqKind :=
  match v.toNat with
  | 0 => some .pin
  | 1 => some .plane
  | 2 => some .acc
  | 3 => some .tag
  | 4 => some .ring
  | _ => .none

def MSel.toBits : MSel → BitVec 2
  | .m32 => 0
  | .m64 => 1
  | .m128 => 2
def MSel.ofBits (v : BitVec 2) : Option MSel :=
  match v.toNat with
  | 0 => some .m32
  | 1 => some .m64
  | 2 => some .m128
  | _ => .none

def PackForm.toBits : PackForm → BitVec 5
  | .b16 => 0
  | .b32 => 1
  | .e4m3 => 2
  | .e5m2 => 3
def PackForm.ofBits (v : BitVec 5) : Option PackForm :=
  match v.toNat with
  | 0 => some .b16
  | 1 => some .b32
  | 2 => some .e4m3
  | 3 => some .e5m2
  | _ => .none

def NumTy.toBits : NumTy → BitVec 4
  | .i8 => 0
  | .n8 => 1
  | .i16 => 2
  | .n16 => 3
  | .i32 => 4
  | .n32 => 5
  | .i64 => 6
  | .n64 => 7
  | .f32 => 8
  | .bf16 => 9
  | .f16 => 10
  | .e4m3 => 11
  | .e5m2 => 12
  | .e2m1 => 13
def NumTy.ofBits (v : BitVec 4) : Option NumTy :=
  match v.toNat with
  | 0 => some .i8
  | 1 => some .n8
  | 2 => some .i16
  | 3 => some .n16
  | 4 => some .i32
  | 5 => some .n32
  | 6 => some .i64
  | 7 => some .n64
  | 8 => some .f32
  | 9 => some .bf16
  | 10 => some .f16
  | 11 => some .e4m3
  | 12 => some .e5m2
  | 13 => some .e2m1
  | _ => .none

def KeyTy.toBits : KeyTy → BitVec 5
  | .i64 => 6
  | .i32 => 4
  | .f32 => 8
  | .bf16 => 9
  | .f16 => 10
def KeyTy.ofBits (v : BitVec 5) : Option KeyTy :=
  match v.toNat with
  | 6 => some .i64
  | 4 => some .i32
  | 8 => some .f32
  | 9 => some .bf16
  | 10 => some .f16
  | _ => .none

def Scope.toBits : Scope → BitVec 3
  | .group => 1
  | .team => 2
  | .cluster => 3
  | .die => 4
  | .device => 5
  | .system => 6
def Scope.ofBits (v : BitVec 3) : Option Scope :=
  match v.toNat with
  | 1 => some .group
  | 2 => some .team
  | 3 => some .cluster
  | 4 => some .die
  | 5 => some .device
  | 6 => some .system
  | _ => .none

def FenceKind.toBits : FenceKind → BitVec 2
  | .acq => 1
  | .rel => 2
  | .ar => 3
def FenceKind.ofBits (v : BitVec 2) : Option FenceKind :=
  match v.toNat with
  | 1 => some .acq
  | 2 => some .rel
  | 3 => some .ar
  | _ => .none

def ModScope.toBits : ModScope → BitVec 3
  | .none => 0
  | .at .group => 1
  | .at .team => 2
  | .at .cluster => 3
  | .at .die => 4
  | .at .device => 5
  | .at .system => 6
def ModScope.ofBits (v : BitVec 3) : Option ModScope :=
  match v.toNat with
  | 0 => some .none
  | 1 => some (.at .group)
  | 2 => some (.at .team)
  | 3 => some (.at .cluster)
  | 4 => some (.at .die)
  | 5 => some (.at .device)
  | 6 => some (.at .system)
  | _ => .none

def ModOrder.toBits : ModOrder → BitVec 2
  | .byKind => 0
  | .acquire => 1
  | .release => 2
  | .both => 3
def ModOrder.ofBits (v : BitVec 2) : Option ModOrder :=
  match v.toNat with
  | 0 => some .byKind
  | 1 => some .acquire
  | 2 => some .release
  | 3 => some .both
  | _ => .none

def ModCache.toBits : ModCache → BitVec 3
  | .dflt => 0
  | .noL1 => 1
  | .noDc => 2
  | .stream => 3
  | .keep => 4
def ModCache.ofBits (v : BitVec 3) : Option ModCache :=
  match v.toNat with
  | 0 => some .dflt
  | 1 => some .noL1
  | 2 => some .noDc
  | 3 => some .stream
  | 4 => some .keep
  | _ => .none

/-- A format's fields as one word: `op` in bits 31:26 and the rest below it. -/
def word (op : BitVec 6) (low : Nat) : BitVec 32 := BitVec.ofNat 32 (op.toNat * 2 ^ 26 + low)

/-- Layout A (spec/04 R67, R68, R83, R86 to R88). -/
structure FmtA where
  fn : BitVec 4
  d : BitVec 5
  a : BitVec 5
  b : BitVec 5
  q : BitVec 3
  la : Bool
  lb : Bool
  e : Bool
  x : Bool
  deriving DecidableEq, Repr

def FmtA.pack (op : BitVec 6) (f : FmtA) : BitVec 32 :=
  word op (f.fn.toNat * 2 ^ 22 + f.d.toNat * 2 ^ 17 + f.a.toNat * 2 ^ 12 + f.b.toNat * 2 ^ 7 + f.q.toNat * 2 ^ 4 + f.la.toNat * 2 ^ 3 + f.lb.toNat * 2 ^ 2 + f.e.toNat * 2 ^ 1 + f.x.toNat)

def FmtA.unpack (w : BitVec 32) : FmtA :=
  ⟨field w 22 4, field w 17 5, field w 12 5, field w 7 5, field w 4 3, flag w 3, flag w 2, flag w 1, flag w 0⟩

/-- Layout IS (spec/04 R67, R68, R83, R86 to R88). -/
structure FmtIS where
  fn : BitVec 4
  d : BitVec 5
  a : BitVec 5
  la : Bool
  imm : BitVec 11
  deriving DecidableEq, Repr

def FmtIS.pack (op : BitVec 6) (f : FmtIS) : BitVec 32 :=
  word op (f.fn.toNat * 2 ^ 22 + f.d.toNat * 2 ^ 17 + f.a.toNat * 2 ^ 12 + f.la.toNat * 2 ^ 11 + f.imm.toNat)

def FmtIS.unpack (w : BitVec 32) : FmtIS :=
  ⟨field w 22 4, field w 17 5, field w 12 5, flag w 11, field w 0 11⟩

/-- Layout IV (spec/04 R67, R68, R83, R86 to R88). -/
structure FmtIV where
  fn : BitVec 4
  d : BitVec 5
  a : BitVec 5
  q : BitVec 3
  la : Bool
  imm : BitVec 8
  deriving DecidableEq, Repr

def FmtIV.pack (op : BitVec 6) (f : FmtIV) : BitVec 32 :=
  word op (f.fn.toNat * 2 ^ 22 + f.d.toNat * 2 ^ 17 + f.a.toNat * 2 ^ 12 + f.q.toNat * 2 ^ 9 + f.la.toNat * 2 ^ 8 + f.imm.toNat)

def FmtIV.unpack (w : BitVec 32) : FmtIV :=
  ⟨field w 22 4, field w 17 5, field w 12 5, field w 9 3, flag w 8, field w 0 8⟩

/-- Layout C (spec/04 R67, R68, R83, R86 to R88). -/
structure FmtC where
  fn : BitVec 4
  d : BitVec 5
  a : BitVec 5
  src : BitVec 4
  z : Bool
  q : BitVec 3
  la : Bool
  rm : BitVec 2
  x : Bool
  deriving DecidableEq, Repr

def FmtC.pack (op : BitVec 6) (f : FmtC) : BitVec 32 :=
  word op (f.fn.toNat * 2 ^ 22 + f.d.toNat * 2 ^ 17 + f.a.toNat * 2 ^ 12 + f.src.toNat * 2 ^ 8 + f.z.toNat * 2 ^ 7 + f.q.toNat * 2 ^ 4 + f.la.toNat * 2 ^ 3 + f.rm.toNat * 2 ^ 1 + f.x.toNat)

def FmtC.unpack (w : BitVec 32) : FmtC :=
  ⟨field w 22 4, field w 17 5, field w 12 5, field w 8 4, flag w 7, field w 4 3, flag w 3, field w 1 2, flag w 0⟩

/-- Layout M (spec/04 R67, R68, R83, R86 to R88). -/
structure FmtM where
  fn : BitVec 4
  d : BitVec 5
  b : BitVec 5
  i : BitVec 5
  q : BitVec 3
  ld : Bool
  vol : Bool
  sc : BitVec 2
  deriving DecidableEq, Repr

def FmtM.pack (op : BitVec 6) (f : FmtM) : BitVec 32 :=
  word op (f.fn.toNat * 2 ^ 22 + f.d.toNat * 2 ^ 17 + f.b.toNat * 2 ^ 12 + f.i.toNat * 2 ^ 7 + f.q.toNat * 2 ^ 4 + f.ld.toNat * 2 ^ 3 + f.vol.toNat * 2 ^ 2 + f.sc.toNat)

def FmtM.unpack (w : BitVec 32) : FmtM :=
  ⟨field w 22 4, field w 17 5, field w 12 5, field w 7 5, field w 4 3, flag w 3, flag w 2, field w 0 2⟩

/-- Layout B (spec/04 R67, R68, R83, R86 to R88). -/
structure FmtB where
  fn : BitVec 4
  r : BitVec 5
  off : BitVec 17
  deriving DecidableEq, Repr

def FmtB.pack (op : BitVec 6) (f : FmtB) : BitVec 32 :=
  word op (f.fn.toNat * 2 ^ 22 + f.r.toNat * 2 ^ 17 + f.off.toNat)

def FmtB.unpack (w : BitVec 32) : FmtB :=
  ⟨field w 22 4, field w 17 5, field w 0 17⟩

/-- Layout Win (spec/04 R67, R68, R83, R86 to R88). -/
structure FmtWin where
  fn : BitVec 4
  d : BitVec 5
  dx : BitVec 3
  dy : BitVec 3
  z : BitVec 7
  q : BitVec 3
  l : Bool
  deriving DecidableEq, Repr

def FmtWin.pack (op : BitVec 6) (f : FmtWin) : BitVec 32 :=
  word op (f.fn.toNat * 2 ^ 22 + f.d.toNat * 2 ^ 17 + f.dx.toNat * 2 ^ 14 + f.dy.toNat * 2 ^ 11 + f.z.toNat * 2 ^ 4 + f.q.toNat * 2 ^ 1 + f.l.toNat)

def FmtWin.unpack (w : BitVec 32) : FmtWin :=
  ⟨field w 22 4, field w 17 5, field w 14 3, field w 11 3, field w 4 7, field w 1 3, flag w 0⟩

/-- Layout Scr (spec/04 R67, R68, R83, R86 to R88). -/
structure FmtScr where
  fn : BitVec 4
  h : BitVec 5
  dist : BitVec 4
  dir : BitVec 2
  edge : BitVec 2
  fs : BitVec 5
  z : BitVec 4
  deriving DecidableEq, Repr

def FmtScr.pack (op : BitVec 6) (f : FmtScr) : BitVec 32 :=
  word op (f.fn.toNat * 2 ^ 22 + f.h.toNat * 2 ^ 17 + f.dist.toNat * 2 ^ 13 + f.dir.toNat * 2 ^ 11 + f.edge.toNat * 2 ^ 9 + f.fs.toNat * 2 ^ 4 + f.z.toNat)

def FmtScr.unpack (w : BitVec 32) : FmtScr :=
  ⟨field w 22 4, field w 17 5, field w 13 4, field w 11 2, field w 9 2, field w 4 5, field w 0 4⟩

/-- Layout Cmd (spec/04 R67, R68, R83, R86 to R88). -/
structure FmtCmd where
  fn : BitVec 4
  a : BitVec 5
  tag : BitVec 6
  cw : BitVec 5
  z : BitVec 6
  deriving DecidableEq, Repr

def FmtCmd.pack (op : BitVec 6) (f : FmtCmd) : BitVec 32 :=
  word op (f.fn.toNat * 2 ^ 22 + f.a.toNat * 2 ^ 17 + f.tag.toNat * 2 ^ 11 + f.cw.toNat * 2 ^ 6 + f.z.toNat)

def FmtCmd.unpack (w : BitVec 32) : FmtCmd :=
  ⟨field w 22 4, field w 17 5, field w 11 6, field w 6 5, field w 0 6⟩

/-- Layout Tag (spec/04 R67, R68, R83, R86 to R88). -/
structure FmtTag where
  fn : BitVec 4
  d : BitVec 5
  a : BitVec 5
  z : BitVec 12
  deriving DecidableEq, Repr

def FmtTag.pack (op : BitVec 6) (f : FmtTag) : BitVec 32 :=
  word op (f.fn.toNat * 2 ^ 22 + f.d.toNat * 2 ^ 17 + f.a.toNat * 2 ^ 12 + f.z.toNat)

def FmtTag.unpack (w : BitVec 32) : FmtTag :=
  ⟨field w 22 4, field w 17 5, field w 12 5, field w 0 12⟩

/-- Layout Mma (spec/04 R67, R68, R83, R86 to R88). -/
structure FmtMma where
  fn : BitVec 4
  a : BitVec 5
  s : BitVec 4
  m : BitVec 2
  n : BitVec 6
  q : BitVec 3
  r : Bool
  c : Bool
  deriving DecidableEq, Repr

def FmtMma.pack (op : BitVec 6) (f : FmtMma) : BitVec 32 :=
  word op (f.fn.toNat * 2 ^ 22 + f.a.toNat * 2 ^ 17 + f.s.toNat * 2 ^ 13 + f.m.toNat * 2 ^ 11 + f.n.toNat * 2 ^ 5 + f.q.toNat * 2 ^ 2 + f.r.toNat * 2 ^ 1 + f.c.toNat)

def FmtMma.unpack (w : BitVec 32) : FmtMma :=
  ⟨field w 22 4, field w 17 5, field w 13 4, field w 11 2, field w 5 6, field w 2 3, flag w 1, flag w 0⟩

/-- Layout Acc (spec/04 R67, R68, R83, R86 to R88). -/
structure FmtAcc where
  fn : BitVec 4
  h : BitVec 5
  s : BitVec 4
  n : BitVec 4
  c : BitVec 3
  r : BitVec 2
  q : BitVec 3
  z : Bool
  deriving DecidableEq, Repr

def FmtAcc.pack (op : BitVec 6) (f : FmtAcc) : BitVec 32 :=
  word op (f.fn.toNat * 2 ^ 22 + f.h.toNat * 2 ^ 17 + f.s.toNat * 2 ^ 13 + f.n.toNat * 2 ^ 9 + f.c.toNat * 2 ^ 6 + f.r.toNat * 2 ^ 4 + f.q.toNat * 2 ^ 1 + f.z.toNat)

def FmtAcc.unpack (w : BitVec 32) : FmtAcc :=
  ⟨field w 22 4, field w 17 5, field w 13 4, field w 9 4, field w 6 3, field w 4 2, field w 1 3, flag w 0⟩

/-- Layout Mq (spec/04 R67, R68, R83, R86 to R88). -/
structure FmtMq where
  fn : BitVec 4
  y : BitVec 5
  s : BitVec 4
  z : BitVec 13
  deriving DecidableEq, Repr

def FmtMq.pack (op : BitVec 6) (f : FmtMq) : BitVec 32 :=
  word op (f.fn.toNat * 2 ^ 22 + f.y.toNat * 2 ^ 17 + f.s.toNat * 2 ^ 13 + f.z.toNat)

def FmtMq.unpack (w : BitVec 32) : FmtMq :=
  ⟨field w 22 4, field w 17 5, field w 13 4, field w 0 13⟩

/-- Layout Bar (spec/04 R67, R68, R83, R86 to R88). -/
structure FmtBar where
  fn : BitVec 4
  l : BitVec 3
  z : BitVec 19
  deriving DecidableEq, Repr

def FmtBar.pack (op : BitVec 6) (f : FmtBar) : BitVec 32 :=
  word op (f.fn.toNat * 2 ^ 22 + f.l.toNat * 2 ^ 19 + f.z.toNat)

def FmtBar.unpack (w : BitVec 32) : FmtBar :=
  ⟨field w 22 4, field w 19 3, field w 0 19⟩

/-- Layout Fen (spec/04 R67, R68, R83, R86 to R88). -/
structure FmtFen where
  fn : BitVec 4
  s : BitVec 3
  k : BitVec 2
  z : BitVec 17
  deriving DecidableEq, Repr

def FmtFen.pack (op : BitVec 6) (f : FmtFen) : BitVec 32 :=
  word op (f.fn.toNat * 2 ^ 22 + f.s.toNat * 2 ^ 19 + f.k.toNat * 2 ^ 17 + f.z.toNat)

def FmtFen.unpack (w : BitVec 32) : FmtFen :=
  ⟨field w 22 4, field w 19 3, field w 17 2, field w 0 17⟩

/-- Layout Rng (spec/04 R67, R68, R83, R86 to R88). -/
structure FmtRng where
  fn : BitVec 4
  d : BitVec 5
  g : BitVec 4
  s : BitVec 3
  p : Bool
  z : BitVec 9
  deriving DecidableEq, Repr

def FmtRng.pack (op : BitVec 6) (f : FmtRng) : BitVec 32 :=
  word op (f.fn.toNat * 2 ^ 22 + f.d.toNat * 2 ^ 17 + f.g.toNat * 2 ^ 13 + f.s.toNat * 2 ^ 10 + f.p.toNat * 2 ^ 9 + f.z.toNat)

def FmtRng.unpack (w : BitVec 32) : FmtRng :=
  ⟨field w 22 4, field w 17 5, field w 13 4, field w 10 3, flag w 9, field w 0 9⟩

/-- Layout Chn (spec/04 R67, R68, R83, R86 to R88). -/
structure FmtChn where
  fn : BitVec 4
  d : BitVec 5
  a : BitVec 5
  ep : BitVec 5
  l : Bool
  z : BitVec 6
  deriving DecidableEq, Repr

def FmtChn.pack (op : BitVec 6) (f : FmtChn) : BitVec 32 :=
  word op (f.fn.toNat * 2 ^ 22 + f.d.toNat * 2 ^ 17 + f.a.toNat * 2 ^ 12 + f.ep.toNat * 2 ^ 7 + f.l.toNat * 2 ^ 6 + f.z.toNat)

def FmtChn.unpack (w : BitVec 32) : FmtChn :=
  ⟨field w 22 4, field w 17 5, field w 12 5, field w 7 5, flag w 6, field w 0 6⟩

/-- Layout Acq (spec/04 R67, R68, R83, R86 to R88). -/
structure FmtAcq where
  fn : BitVec 4
  d : BitVec 5
  a : BitVec 5
  k : BitVec 3
  z : BitVec 9
  deriving DecidableEq, Repr

def FmtAcq.pack (op : BitVec 6) (f : FmtAcq) : BitVec 32 :=
  word op (f.fn.toNat * 2 ^ 22 + f.d.toNat * 2 ^ 17 + f.a.toNat * 2 ^ 12 + f.k.toNat * 2 ^ 9 + f.z.toNat)

def FmtAcq.unpack (w : BitVec 32) : FmtAcq :=
  ⟨field w 22 4, field w 17 5, field w 12 5, field w 9 3, field w 0 9⟩

/-- Layout Ctx (spec/04 R67, R68, R83, R86 to R88). -/
structure FmtCtx where
  fn : BitVec 4
  d : BitVec 5
  a : BitVec 5
  b : BitVec 5
  z : BitVec 7
  deriving DecidableEq, Repr

def FmtCtx.pack (op : BitVec 6) (f : FmtCtx) : BitVec 32 :=
  word op (f.fn.toNat * 2 ^ 22 + f.d.toNat * 2 ^ 17 + f.a.toNat * 2 ^ 12 + f.b.toNat * 2 ^ 7 + f.z.toNat)

def FmtCtx.unpack (w : BitVec 32) : FmtCtx :=
  ⟨field w 22 4, field w 17 5, field w 12 5, field w 7 5, field w 0 7⟩

/-- Layout Rpt (spec/04 R67, R68, R83, R86 to R88). -/
structure FmtRpt where
  n : BitVec 6
  sd : Bool
  sa : Bool
  sb : Bool
  st : BitVec 2
  z : BitVec 15
  deriving DecidableEq, Repr

def FmtRpt.pack (op : BitVec 6) (f : FmtRpt) : BitVec 32 :=
  word op (f.n.toNat * 2 ^ 20 + f.sd.toNat * 2 ^ 19 + f.sa.toNat * 2 ^ 18 + f.sb.toNat * 2 ^ 17 + f.st.toNat * 2 ^ 15 + f.z.toNat)

def FmtRpt.unpack (w : BitVec 32) : FmtRpt :=
  ⟨field w 20 6, flag w 19, flag w 18, flag w 17, field w 15 2, field w 0 15⟩

/-- Layout Wide (spec/04 R67, R68, R83, R86 to R88). -/
structure FmtWide where
  k : BitVec 2
  p : BitVec 24
  deriving DecidableEq, Repr

def FmtWide.pack (op : BitVec 6) (f : FmtWide) : BitVec 32 :=
  word op (f.k.toNat * 2 ^ 24 + f.p.toNat)

def FmtWide.unpack (w : BitVec 32) : FmtWide :=
  ⟨field w 24 2, field w 0 24⟩

/-- Layout Mod (spec/04 R67, R68, R83, R86 to R88). -/
structure FmtMod where
  k : BitVec 2
  s : BitVec 3
  o : BitVec 2
  c : BitVec 3
  t : Bool
  z : BitVec 15
  deriving DecidableEq, Repr

def FmtMod.pack (op : BitVec 6) (f : FmtMod) : BitVec 32 :=
  word op (f.k.toNat * 2 ^ 24 + f.s.toNat * 2 ^ 21 + f.o.toNat * 2 ^ 19 + f.c.toNat * 2 ^ 16 + f.t.toNat * 2 ^ 15 + f.z.toNat)

def FmtMod.unpack (w : BitVec 32) : FmtMod :=
  ⟨field w 24 2, field w 21 3, field w 19 2, field w 16 3, flag w 15, field w 0 15⟩

/-- Layout Sch (spec/04 R67, R68, R83, R86 to R88). -/
structure FmtSch where
  k : BitVec 2
  y : Bool
  p : BitVec 2
  z : BitVec 5
  s : BitVec 16
  deriving DecidableEq, Repr

def FmtSch.pack (op : BitVec 6) (f : FmtSch) : BitVec 32 :=
  word op (f.k.toNat * 2 ^ 24 + f.y.toNat * 2 ^ 23 + f.p.toNat * 2 ^ 21 + f.z.toNat * 2 ^ 16 + f.s.toNat)

def FmtSch.unpack (w : BitVec 32) : FmtSch :=
  ⟨field w 24 2, flag w 23, field w 21 2, field w 16 5, field w 0 16⟩

def need (b : Bool) (r : Reject) (k : Dec) : Dec := bif b then k else .error r

def pick {α : Type} (v : Option α) (k : α → Dec) : Dec :=
  match v with
  | some a => k a
  | none => .error .refusedOperand

/-- A five-bit field that names a predicate holds 0 to 7 (spec/04 R70). -/
def asPred (v : BitVec 5) : Option PReg := if v.toNat < 8 then some (v.setWidth 3) else none

/-- The halves of IMM11 in the bit-field words (spec/07 R149) and the hive words (R152). -/
def immHi5 (i : BitVec 11) : BitVec 5 := field i 6 5
def immLo6 (i : BitVec 11) : BitVec 6 := field i 0 6
def immLo4 (i : BitVec 11) : BitVec 4 := field i 0 4
def bfImm (n : BitVec 5) (p : BitVec 6) : BitVec 11 := BitVec.ofNat 11 (n.toNat * 64 + p.toNat)
def hiveImm (h : BitVec 4) : BitVec 11 := BitVec.ofNat 11 h.toNat
def rOk (b : Bool) (k : Dec) : Dec := need b .reservedField k

/-- Major 0x01 (spec/04 R76 to R79). -/
def dec01 (w : BitVec 32) : Dec :=
  let f := FmtA.unpack w
  match (field w 22 4).toNat with
  | 0 => rOk (f.q == 0) <| .ok (.add f.d f.a f.b f.la f.lb f.e f.x)
  | 1 => rOk (f.q == 0) <| .ok (.sub f.d f.a f.b f.la f.lb f.e f.x)
  | 2 => rOk (f.q == 0) <| .ok (.and f.d f.a f.b f.la f.lb f.e f.x)
  | 3 => rOk (f.q == 0) <| .ok (.or f.d f.a f.b f.la f.lb f.e f.x)
  | 4 => rOk (f.q == 0) <| .ok (.xor f.d f.a f.b f.la f.lb f.e f.x)
  | 5 => rOk (f.q == 0) <| .ok (.andn f.d f.a f.b f.la f.lb f.e f.x)
  | 6 => rOk (f.q == 0) <| .ok (.shl f.d f.a f.b f.la f.lb f.e f.x)
  | 7 => rOk (f.q == 0) <| .ok (.shrI f.d f.a f.b f.la f.lb f.e f.x)
  | 8 => rOk (f.q == 0) <| .ok (.shrN f.d f.a f.b f.la f.lb f.e f.x)
  | 9 => rOk (f.q == 0) <| .ok (.rotl f.d f.a f.b f.la f.lb f.e f.x)
  | 10 => rOk (f.q == 0) <| .ok (.rotr f.d f.a f.b f.la f.lb f.e f.x)
  | 11 => rOk (f.q == 0) <| .ok (.mul f.d f.a f.b f.la f.lb f.e f.x)
  | 12 => rOk (f.q == 0) <| .ok (.mulhI f.d f.a f.b f.la f.lb f.e f.x)
  | 13 => rOk (f.q == 0) <| .ok (.mulhN f.d f.a f.b f.la f.lb f.e f.x)
  | 14 => rOk (f.q == 0) <| .ok (.minI f.d f.a f.b f.la f.lb f.e f.x)
  | 15 => rOk (f.q == 0) <| .ok (.minN f.d f.a f.b f.la f.lb f.e f.x)
  | _ => .error .unassigned

/-- Major 0x02 (spec/04 R76 to R79). -/
def dec02 (w : BitVec 32) : Dec :=
  let f := FmtA.unpack w
  match (field w 22 4).toNat with
  | 0 => rOk (f.q == 0) <| .ok (.maxI f.d f.a f.b f.la f.lb f.e f.x)
  | 1 => rOk (f.q == 0) <| .ok (.maxN f.d f.a f.b f.la f.lb f.e f.x)
  | 2 => rOk (f.q == 0) <| .ok (.divI f.d f.a f.b f.la f.lb f.e f.x)
  | 3 => rOk (f.q == 0) <| .ok (.divN f.d f.a f.b f.la f.lb f.e f.x)
  | 4 => rOk (f.q == 0) <| .ok (.remI f.d f.a f.b f.la f.lb f.e f.x)
  | 5 => rOk (f.q == 0) <| .ok (.remN f.d f.a f.b f.la f.lb f.e f.x)
  | 6 => rOk (f.b == 0 && f.q == 0 && !f.lb) <| .ok (.clz f.d f.a f.la f.e f.x)
  | 7 => rOk (f.b == 0 && f.q == 0 && !f.lb) <| .ok (.ctz f.d f.a f.la f.e f.x)
  | 8 => rOk (f.b == 0 && f.q == 0 && !f.lb) <| .ok (.popc f.d f.a f.la f.e f.x)
  | 9 => rOk (f.b == 0 && f.q == 0 && !f.lb) <| .ok (.brev f.d f.a f.la f.e f.x)
  | 10 => rOk (f.b == 0 && f.q == 0 && !f.lb) <| .ok (.bswap f.d f.a f.la f.e f.x)
  | 11 => rOk (f.b == 0 && f.q == 0 && !f.lb) <| .ok (.abs f.d f.a f.la f.e f.x)
  | 12 => rOk (f.q == 0) <| .ok (.addsI f.d f.a f.b f.la f.lb f.e f.x)
  | 13 => rOk (f.q == 0) <| .ok (.subsI f.d f.a f.b f.la f.lb f.e f.x)
  | _ => .error .unassigned

/-- Major 0x03 (spec/04 R76 to R79). -/
def dec03 (w : BitVec 32) : Dec :=
  let f := FmtA.unpack w
  match (field w 22 4).toNat with
  | 0 => rOk (f.q == 0) <| .ok (.seq f.d f.a f.b f.la f.lb f.e f.x)
  | 1 => rOk (f.q == 0) <| .ok (.sne f.d f.a f.b f.la f.lb f.e f.x)
  | 2 => rOk (f.q == 0) <| .ok (.sltI f.d f.a f.b f.la f.lb f.e f.x)
  | 3 => rOk (f.q == 0) <| .ok (.sltN f.d f.a f.b f.la f.lb f.e f.x)
  | 4 => rOk (f.q == 0) <| .ok (.sleI f.d f.a f.b f.la f.lb f.e f.x)
  | 5 => rOk (f.q == 0) <| .ok (.sleN f.d f.a f.b f.la f.lb f.e f.x)
  | 6 => rOk (f.q == 0) <| .ok (.cmovnz f.d f.a f.b f.la f.lb f.e f.x)
  | 7 => rOk (f.q == 0) <| .ok (.cmovz f.d f.a f.b f.la f.lb f.e f.x)
  | _ => .error .unassigned

/-- Major 0x04 (spec/04 R76 to R79). -/
def dec04 (w : BitVec 32) : Dec :=
  let f := FmtIS.unpack w
  match (field w 22 4).toNat with
  | 0 => .ok (.addi f.d f.a f.la f.imm)
  | 1 => .ok (.andi f.d f.a f.la f.imm)
  | 2 => .ok (.ori f.d f.a f.la f.imm)
  | 3 => .ok (.xori f.d f.a f.la f.imm)
  | 4 => .ok (.shli f.d f.a f.la f.imm)
  | 5 => .ok (.shriI f.d f.a f.la f.imm)
  | 6 => .ok (.shriN f.d f.a f.la f.imm)
  | 7 => .ok (.sltiI f.d f.a f.la f.imm)
  | 8 => .ok (.sltiN f.d f.a f.la f.imm)
  | 9 => .ok (.seqi f.d f.a f.la f.imm)
  | 10 => .ok (.muli f.d f.a f.la f.imm)
  | 11 => .ok (.rotli f.d f.a f.la f.imm)
  | _ => .error .unassigned

/-- Major 0x05 (spec/04 R76 to R79). -/
def dec05 (w : BitVec 32) : Dec :=
  match (field w 22 4).toNat with
  | 0 => let f := FmtIS.unpack w; .ok (.bfxI f.d f.a f.la (immHi5 f.imm) (immLo6 f.imm))
  | 1 => let f := FmtIS.unpack w; .ok (.bfxN f.d f.a f.la (immHi5 f.imm) (immLo6 f.imm))
  | 2 => let f := FmtIS.unpack w; .ok (.bfi f.d f.a f.la (immHi5 f.imm) (immLo6 f.imm))
  | 3 => let f := FmtA.unpack w; rOk (f.q == 0) <| .ok (.lea2 f.d f.a f.b f.la f.lb f.e f.x)
  | 4 => let f := FmtA.unpack w; rOk (f.q == 0) <| .ok (.lea4 f.d f.a f.b f.la f.lb f.e f.x)
  | 5 => let f := FmtA.unpack w; rOk (f.q == 0) <| .ok (.lea8 f.d f.a f.b f.la f.lb f.e f.x)
  | 6 => let f := FmtA.unpack w; rOk (f.q == 0) <| .ok (.lea16 f.d f.a f.b f.la f.lb f.e f.x)
  | _ => .error .unassigned

/-- Major 0x06 (spec/04 R76 to R79). -/
def dec06 (w : BitVec 32) : Dec :=
  match (field w 22 4).toNat with
  | 0 => let f := FmtA.unpack w; rOk (f.b == 0 && f.q == 0 && !f.lb && !f.x) <| .ok (.mov f.d f.a f.la f.e)
  | 1 => let f := FmtIS.unpack w; rOk (f.a == 0 && !f.la) <| .ok (.srd f.d f.imm)
  | 2 => let f := FmtIS.unpack w; rOk (f.d == 0) <| .ok (.swr f.a f.la f.imm)
  | 3 => let f := FmtIS.unpack w; rOk (f.a == 0 && !f.la && field f.imm 4 7 == 0) <| .ok (.hrd f.d (immLo4 f.imm))
  | 4 => let f := FmtIS.unpack w; rOk (f.d == 0 && field f.imm 4 7 == 0) <| .ok (.hwr f.a f.la (immLo4 f.imm))
  | 5 => let f := FmtIS.unpack w; rOk (field f.imm 4 7 == 0) <| .ok (.hadd f.d f.a f.la (immLo4 f.imm))
  | 6 => let f := FmtIS.unpack w; rOk (f.a == 0 && !f.la && f.imm == 2) <| .ok (.srdv f.d)
  | _ => .error .unassigned

/-- Major 0x07 (spec/04 R76 to R79). -/
def dec07 (w : BitVec 32) : Dec :=
  let f := FmtA.unpack w
  match (field w 22 4).toNat with
  | 0 => bif f.x then rOk (f.q == 0) <| .ok (.fsub .mode f.d f.a f.b f.la f.lb f.e) else rOk (f.q == 0) <| .ok (.fadd .mode f.d f.a f.b f.la f.lb f.e)
  | 1 => bif f.x then rOk (f.q == 0) <| .ok (.fsub .rn f.d f.a f.b f.la f.lb f.e) else rOk (f.q == 0) <| .ok (.fadd .rn f.d f.a f.b f.la f.lb f.e)
  | 2 => bif f.x then rOk (f.q == 0) <| .ok (.fsub .rz f.d f.a f.b f.la f.lb f.e) else rOk (f.q == 0) <| .ok (.fadd .rz f.d f.a f.b f.la f.lb f.e)
  | 3 => bif f.x then rOk (f.q == 0) <| .ok (.fsub .rs f.d f.a f.b f.la f.lb f.e) else rOk (f.q == 0) <| .ok (.fadd .rs f.d f.a f.b f.la f.lb f.e)
  | 4 => bif f.x then rOk (f.q == 0) <| .ok (.fdiv .mode f.d f.a f.b f.la f.lb f.e) else rOk (f.q == 0) <| .ok (.fmul .mode f.d f.a f.b f.la f.lb f.e)
  | 5 => bif f.x then rOk (f.q == 0) <| .ok (.fdiv .rn f.d f.a f.b f.la f.lb f.e) else rOk (f.q == 0) <| .ok (.fmul .rn f.d f.a f.b f.la f.lb f.e)
  | 6 => bif f.x then rOk (f.q == 0) <| .ok (.fdiv .rz f.d f.a f.b f.la f.lb f.e) else rOk (f.q == 0) <| .ok (.fmul .rz f.d f.a f.b f.la f.lb f.e)
  | 7 => bif f.x then rOk (f.q == 0) <| .ok (.fdiv .rs f.d f.a f.b f.la f.lb f.e) else rOk (f.q == 0) <| .ok (.fmul .rs f.d f.a f.b f.la f.lb f.e)
  | 8 => bif f.x then rOk (f.b == 0 && f.q == 0 && !f.lb) <| .ok (.fsqrt .mode f.d f.a f.la f.e) else rOk (f.q == 0) <| .ok (.ffma .mode f.d f.a f.b f.la f.lb f.e)
  | 9 => bif f.x then rOk (f.b == 0 && f.q == 0 && !f.lb) <| .ok (.fsqrt .rn f.d f.a f.la f.e) else rOk (f.q == 0) <| .ok (.ffma .rn f.d f.a f.b f.la f.lb f.e)
  | 10 => bif f.x then rOk (f.b == 0 && f.q == 0 && !f.lb) <| .ok (.fsqrt .rz f.d f.a f.la f.e) else rOk (f.q == 0) <| .ok (.ffma .rz f.d f.a f.b f.la f.lb f.e)
  | 11 => bif f.x then rOk (f.b == 0 && f.q == 0 && !f.lb) <| .ok (.fsqrt .rs f.d f.a f.la f.e) else rOk (f.q == 0) <| .ok (.ffma .rs f.d f.a f.b f.la f.lb f.e)
  | 12 => bif f.x then rOk (f.b == 0 && f.q == 0 && !f.lb) <| .ok (.fcvtI64F32 .mode f.d f.a f.la f.e) else rOk (f.b == 0 && f.q == 0 && !f.lb) <| .ok (.fcvtF32I64 .mode f.d f.a f.la f.e)
  | 13 => bif f.x then rOk (f.b == 0 && f.q == 0 && !f.lb) <| .ok (.fcvtI64F32 .rn f.d f.a f.la f.e) else rOk (f.b == 0 && f.q == 0 && !f.lb) <| .ok (.fcvtF32I64 .rn f.d f.a f.la f.e)
  | 14 => bif f.x then rOk (f.b == 0 && f.q == 0 && !f.lb) <| .ok (.fcvtI64F32 .rz f.d f.a f.la f.e) else rOk (f.b == 0 && f.q == 0 && !f.lb) <| .ok (.fcvtF32I64 .rz f.d f.a f.la f.e)
  | 15 => bif f.x then rOk (f.b == 0 && f.q == 0 && !f.lb) <| .ok (.fcvtI64F32 .rs f.d f.a f.la f.e) else rOk (f.b == 0 && f.q == 0 && !f.lb) <| .ok (.fcvtF32I64 .rs f.d f.a f.la f.e)
  | _ => .error .unassigned

/-- Major 0x08 (spec/04 R76 to R79). -/
def dec08 (w : BitVec 32) : Dec :=
  let f := FmtB.unpack w
  match (field w 22 4).toNat with
  | 0 => rOk (f.r == 0) <| .ok (.br f.off)
  | 1 => .ok (.bz f.r f.off)
  | 2 => .ok (.bnz f.r f.off)
  | 3 => .ok (.blt f.r f.off)
  | 4 => .ok (.bge f.r f.off)
  | 5 => pick (asPred f.r) fun r => .ok (.bany r f.off)
  | 6 => pick (asPred f.r) fun r => .ok (.ball r f.off)
  | 7 => pick (asPred f.r) fun r => .ok (.bnone r f.off)
  | _ => .error .unassigned

/-- Major 0x09 (spec/04 R76 to R79). -/
def dec09 (w : BitVec 32) : Dec :=
  match (field w 22 4).toNat with
  | 0 => let f := FmtB.unpack w; .ok (.call f.r f.off)
  | 1 => let f := FmtA.unpack w; rOk (f.b == 0 && f.q == 0 && !f.lb && !f.x) <| .ok (.callr f.d f.a f.la f.e)
  | 2 => let f := FmtA.unpack w; rOk (f.d == 0 && f.b == 0 && f.q == 0 && !f.lb && !f.x) <| .ok (.ret f.a f.la f.e)
  | 3 => let f := FmtA.unpack w; rOk (f.d == 0 && f.a == 0 && f.b == 0 && !f.la && !f.lb && !f.e && !f.x) <| .ok (.exit f.q)
  | 4 => let f := FmtA.unpack w; rOk (f.d == 0 && f.a == 0 && f.b == 0 && f.q == 0 && !f.la && !f.lb && !f.e && !f.x) <| .ok (.yield)
  | 5 => let f := FmtA.unpack w; rOk (f.q == 0 && !f.x) <| .ok (.enq f.d f.a f.b f.la f.lb f.e)
  | 6 => let f := FmtIS.unpack w; rOk (f.d == 0 && f.a == 0 && !f.la) <| .ok (.trap f.imm)
  | _ => .error .unassigned

/-- Major 0x0A (spec/04 R76 to R79). -/
def dec0A (w : BitVec 32) : Dec :=
  let f := FmtA.unpack w
  match (field w 22 4).toNat with
  | 0 => rOk (!f.la && !f.lb && !f.e && !f.x) <| pick (asPred f.d) fun d => pick (asPred f.a) fun a => pick (asPred f.b) fun b => .ok (.pand d a b f.q)
  | 1 => rOk (!f.la && !f.lb && !f.e && !f.x) <| pick (asPred f.d) fun d => pick (asPred f.a) fun a => pick (asPred f.b) fun b => .ok (.por d a b f.q)
  | 2 => rOk (!f.la && !f.lb && !f.e && !f.x) <| pick (asPred f.d) fun d => pick (asPred f.a) fun a => pick (asPred f.b) fun b => .ok (.pxor d a b f.q)
  | 3 => rOk (!f.la && !f.lb && !f.e && !f.x) <| pick (asPred f.d) fun d => pick (asPred f.a) fun a => pick (asPred f.b) fun b => .ok (.pandn d a b f.q)
  | 4 => rOk (f.b == 0 && !f.la && !f.lb && !f.e && !f.x) <| pick (asPred f.d) fun d => pick (asPred f.a) fun a => .ok (.pnot d a f.q)
  | 5 => rOk (f.b == 0 && !f.la && !f.lb && !f.e && !f.x) <| pick (asPred f.d) fun d => pick (asPred f.a) fun a => .ok (.pmov d a f.q)
  | 6 => rOk (f.b == 0 && !f.lb && !f.x) <| pick (asPred f.d) fun d => .ok (.pset d f.a f.q f.la f.e)
  | 7 => rOk (f.b == 0 && !f.la && !f.lb && !f.e && !f.x) <| pick (asPred f.d) fun d => pick (asPred f.a) fun a => .ok (.pfirst d a f.q)
  | _ => .error .unassigned

/-- Major 0x10 (spec/04 R76 to R79). -/
def dec10 (w : BitVec 32) : Dec :=
  let f := FmtA.unpack w
  match (field w 22 4).toNat with
  | 0 => .ok (.vadd .w8 f.d f.a f.b f.q f.la f.lb f.e f.x)
  | 1 => .ok (.vsub .w8 f.d f.a f.b f.q f.la f.lb f.e f.x)
  | 2 => .ok (.vmul .w8 f.d f.a f.b f.q f.la f.lb f.e f.x)
  | 3 => rOk (!f.x) <| .ok (.vminI .w8 f.d f.a f.b f.q f.la f.lb f.e)
  | 4 => rOk (!f.x) <| .ok (.vminN .w8 f.d f.a f.b f.q f.la f.lb f.e)
  | 5 => rOk (!f.x) <| .ok (.vmaxI .w8 f.d f.a f.b f.q f.la f.lb f.e)
  | 6 => rOk (!f.x) <| .ok (.vmaxN .w8 f.d f.a f.b f.q f.la f.lb f.e)
  | 7 => rOk (!f.x) <| .ok (.vabsdI .w8 f.d f.a f.b f.q f.la f.lb f.e)
  | 8 => rOk (!f.x) <| .ok (.vabsdN .w8 f.d f.a f.b f.q f.la f.lb f.e)
  | 9 => rOk (!f.x) <| .ok (.vavgI .w8 f.d f.a f.b f.q f.la f.lb f.e)
  | 10 => rOk (!f.x) <| .ok (.vavgN .w8 f.d f.a f.b f.q f.la f.lb f.e)
  | 11 => .ok (.vshl .w8 f.d f.a f.b f.q f.la f.lb f.e f.x)
  | 12 => rOk (!f.x) <| .ok (.vshrI .w8 f.d f.a f.b f.q f.la f.lb f.e)
  | 13 => rOk (!f.x) <| .ok (.vshrN .w8 f.d f.a f.b f.q f.la f.lb f.e)
  | 14 => rOk (f.b == 0 && !f.lb) <| .ok (.vneg .w8 f.d f.a f.q f.la f.e f.x)
  | 15 => rOk (f.b == 0 && !f.lb) <| .ok (.vabs .w8 f.d f.a f.q f.la f.e f.x)
  | _ => .error .unassigned

/-- Major 0x11 (spec/04 R76 to R79). -/
def dec11 (w : BitVec 32) : Dec :=
  let f := FmtA.unpack w
  match (field w 22 4).toNat with
  | 0 => .ok (.vadd .w16 f.d f.a f.b f.q f.la f.lb f.e f.x)
  | 1 => .ok (.vsub .w16 f.d f.a f.b f.q f.la f.lb f.e f.x)
  | 2 => .ok (.vmul .w16 f.d f.a f.b f.q f.la f.lb f.e f.x)
  | 3 => rOk (!f.x) <| .ok (.vminI .w16 f.d f.a f.b f.q f.la f.lb f.e)
  | 4 => rOk (!f.x) <| .ok (.vminN .w16 f.d f.a f.b f.q f.la f.lb f.e)
  | 5 => rOk (!f.x) <| .ok (.vmaxI .w16 f.d f.a f.b f.q f.la f.lb f.e)
  | 6 => rOk (!f.x) <| .ok (.vmaxN .w16 f.d f.a f.b f.q f.la f.lb f.e)
  | 7 => rOk (!f.x) <| .ok (.vabsdI .w16 f.d f.a f.b f.q f.la f.lb f.e)
  | 8 => rOk (!f.x) <| .ok (.vabsdN .w16 f.d f.a f.b f.q f.la f.lb f.e)
  | 9 => rOk (!f.x) <| .ok (.vavgI .w16 f.d f.a f.b f.q f.la f.lb f.e)
  | 10 => rOk (!f.x) <| .ok (.vavgN .w16 f.d f.a f.b f.q f.la f.lb f.e)
  | 11 => .ok (.vshl .w16 f.d f.a f.b f.q f.la f.lb f.e f.x)
  | 12 => rOk (!f.x) <| .ok (.vshrI .w16 f.d f.a f.b f.q f.la f.lb f.e)
  | 13 => rOk (!f.x) <| .ok (.vshrN .w16 f.d f.a f.b f.q f.la f.lb f.e)
  | 14 => rOk (f.b == 0 && !f.lb) <| .ok (.vneg .w16 f.d f.a f.q f.la f.e f.x)
  | 15 => rOk (f.b == 0 && !f.lb) <| .ok (.vabs .w16 f.d f.a f.q f.la f.e f.x)
  | _ => .error .unassigned

/-- Major 0x12 (spec/04 R76 to R79). -/
def dec12 (w : BitVec 32) : Dec :=
  let f := FmtA.unpack w
  match (field w 22 4).toNat with
  | 0 => .ok (.vadd .w32 f.d f.a f.b f.q f.la f.lb f.e f.x)
  | 1 => .ok (.vsub .w32 f.d f.a f.b f.q f.la f.lb f.e f.x)
  | 2 => .ok (.vmul .w32 f.d f.a f.b f.q f.la f.lb f.e f.x)
  | 3 => rOk (!f.x) <| .ok (.vminI .w32 f.d f.a f.b f.q f.la f.lb f.e)
  | 4 => rOk (!f.x) <| .ok (.vminN .w32 f.d f.a f.b f.q f.la f.lb f.e)
  | 5 => rOk (!f.x) <| .ok (.vmaxI .w32 f.d f.a f.b f.q f.la f.lb f.e)
  | 6 => rOk (!f.x) <| .ok (.vmaxN .w32 f.d f.a f.b f.q f.la f.lb f.e)
  | 7 => rOk (!f.x) <| .ok (.vabsdI .w32 f.d f.a f.b f.q f.la f.lb f.e)
  | 8 => rOk (!f.x) <| .ok (.vabsdN .w32 f.d f.a f.b f.q f.la f.lb f.e)
  | 9 => rOk (!f.x) <| .ok (.vavgI .w32 f.d f.a f.b f.q f.la f.lb f.e)
  | 10 => rOk (!f.x) <| .ok (.vavgN .w32 f.d f.a f.b f.q f.la f.lb f.e)
  | 11 => .ok (.vshl .w32 f.d f.a f.b f.q f.la f.lb f.e f.x)
  | 12 => rOk (!f.x) <| .ok (.vshrI .w32 f.d f.a f.b f.q f.la f.lb f.e)
  | 13 => rOk (!f.x) <| .ok (.vshrN .w32 f.d f.a f.b f.q f.la f.lb f.e)
  | 14 => rOk (f.b == 0 && !f.lb) <| .ok (.vneg .w32 f.d f.a f.q f.la f.e f.x)
  | 15 => rOk (f.b == 0 && !f.lb) <| .ok (.vabs .w32 f.d f.a f.q f.la f.e f.x)
  | _ => .error .unassigned

/-- Major 0x13 (spec/04 R76 to R79). -/
def dec13 (w : BitVec 32) : Dec :=
  let f := FmtA.unpack w
  match (field w 22 4).toNat with
  | 0 => .ok (.vaddI64 f.d f.a f.b f.q f.la f.lb f.e f.x)
  | 1 => .ok (.vsubI64 f.d f.a f.b f.q f.la f.lb f.e f.x)
  | 2 => .ok (.vmulI64 f.d f.a f.b f.q f.la f.lb f.e f.x)
  | 3 => rOk (!f.x) <| .ok (.vminI64 f.d f.a f.b f.q f.la f.lb f.e)
  | 4 => rOk (!f.x) <| .ok (.vminN64 f.d f.a f.b f.q f.la f.lb f.e)
  | 5 => rOk (!f.x) <| .ok (.vmaxI64 f.d f.a f.b f.q f.la f.lb f.e)
  | 6 => rOk (!f.x) <| .ok (.vmaxN64 f.d f.a f.b f.q f.la f.lb f.e)
  | 7 => .ok (.vshlI64 f.d f.a f.b f.q f.la f.lb f.e f.x)
  | 8 => rOk (!f.x) <| .ok (.vshrI64 f.d f.a f.b f.q f.la f.lb f.e)
  | 9 => rOk (!f.x) <| .ok (.vshrN64 f.d f.a f.b f.q f.la f.lb f.e)
  | 10 => rOk (!f.x) <| .ok (.vand f.d f.a f.b f.q f.la f.lb f.e)
  | 11 => rOk (!f.x) <| .ok (.vor f.d f.a f.b f.q f.la f.lb f.e)
  | 12 => rOk (!f.x) <| .ok (.vxor f.d f.a f.b f.q f.la f.lb f.e)
  | 13 => rOk (!f.x) <| .ok (.vandn f.d f.a f.b f.q f.la f.lb f.e)
  | 14 => rOk (f.b == 0 && !f.lb && !f.x) <| .ok (.vnot f.d f.a f.q f.la f.e)
  | 15 => rOk (f.b == 0 && !f.lb && !f.x) <| .ok (.vpopc f.d f.a f.q f.la f.e)
  | _ => .error .unassigned

/-- Major 0x14 (spec/04 R76 to R79). -/
def dec14 (w : BitVec 32) : Dec :=
  let f := FmtIV.unpack w
  match (field w 22 4).toNat with
  | 0 => .ok (.vaddi .w8 f.d f.a f.q f.la f.imm)
  | 1 => .ok (.vshli .w8 f.d f.a f.q f.la f.imm)
  | 2 => .ok (.vshriI .w8 f.d f.a f.q f.la f.imm)
  | 3 => .ok (.vshriN .w8 f.d f.a f.q f.la f.imm)
  | 4 => .ok (.vaddi .w16 f.d f.a f.q f.la f.imm)
  | 5 => .ok (.vshli .w16 f.d f.a f.q f.la f.imm)
  | 6 => .ok (.vshriI .w16 f.d f.a f.q f.la f.imm)
  | 7 => .ok (.vshriN .w16 f.d f.a f.q f.la f.imm)
  | 8 => .ok (.vaddi .w32 f.d f.a f.q f.la f.imm)
  | 9 => .ok (.vshli .w32 f.d f.a f.q f.la f.imm)
  | 10 => .ok (.vshriI .w32 f.d f.a f.q f.la f.imm)
  | 11 => .ok (.vshriN .w32 f.d f.a f.q f.la f.imm)
  | 12 => .ok (.vaddi .w64 f.d f.a f.q f.la f.imm)
  | 13 => .ok (.vshli .w64 f.d f.a f.q f.la f.imm)
  | 14 => .ok (.vshriI .w64 f.d f.a f.q f.la f.imm)
  | 15 => .ok (.vshriN .w64 f.d f.a f.q f.la f.imm)
  | _ => .error .unassigned

/-- Major 0x15 (spec/04 R76 to R79). -/
def dec15 (w : BitVec 32) : Dec :=
  let f := FmtA.unpack w
  match (field w 22 4).toNat with
  | 0 => pick (asPred f.d) fun d => .ok (.vceq .w8 d f.a f.b f.q f.la f.lb f.e f.x)
  | 1 => pick (asPred f.d) fun d => .ok (.vcne .w8 d f.a f.b f.q f.la f.lb f.e f.x)
  | 2 => pick (asPred f.d) fun d => .ok (.vclt .w8 d f.a f.b f.q f.la f.lb f.e f.x)
  | 3 => pick (asPred f.d) fun d => .ok (.vcle .w8 d f.a f.b f.q f.la f.lb f.e f.x)
  | 4 => pick (asPred f.d) fun d => .ok (.vceq .w16 d f.a f.b f.q f.la f.lb f.e f.x)
  | 5 => pick (asPred f.d) fun d => .ok (.vcne .w16 d f.a f.b f.q f.la f.lb f.e f.x)
  | 6 => pick (asPred f.d) fun d => .ok (.vclt .w16 d f.a f.b f.q f.la f.lb f.e f.x)
  | 7 => pick (asPred f.d) fun d => .ok (.vcle .w16 d f.a f.b f.q f.la f.lb f.e f.x)
  | 8 => pick (asPred f.d) fun d => .ok (.vceq .w32 d f.a f.b f.q f.la f.lb f.e f.x)
  | 9 => pick (asPred f.d) fun d => .ok (.vcne .w32 d f.a f.b f.q f.la f.lb f.e f.x)
  | 10 => pick (asPred f.d) fun d => .ok (.vclt .w32 d f.a f.b f.q f.la f.lb f.e f.x)
  | 11 => pick (asPred f.d) fun d => .ok (.vcle .w32 d f.a f.b f.q f.la f.lb f.e f.x)
  | 12 => pick (asPred f.d) fun d => .ok (.vceq .w64 d f.a f.b f.q f.la f.lb f.e f.x)
  | 13 => pick (asPred f.d) fun d => .ok (.vcne .w64 d f.a f.b f.q f.la f.lb f.e f.x)
  | 14 => pick (asPred f.d) fun d => .ok (.vclt .w64 d f.a f.b f.q f.la f.lb f.e f.x)
  | 15 => pick (asPred f.d) fun d => .ok (.vcle .w64 d f.a f.b f.q f.la f.lb f.e f.x)
  | _ => .error .unassigned

/-- Major 0x16 (spec/04 R76 to R79). -/
def dec16 (w : BitVec 32) : Dec :=
  let f := FmtA.unpack w
  match (field w 22 4).toNat with
  | 0 => .ok (.vdot4I8 f.d f.a f.b f.q f.la f.lb f.e f.x)
  | 1 => .ok (.vdot4N8 f.d f.a f.b f.q f.la f.lb f.e f.x)
  | 2 => .ok (.vdot2I16 f.d f.a f.b f.q f.la f.lb f.e f.x)
  | 3 => .ok (.vdot2N16 f.d f.a f.b f.q f.la f.lb f.e f.x)
  | 4 => .ok (.vmadI16 f.d f.a f.b f.q f.la f.lb f.e f.x)
  | 5 => .ok (.vmadI32 f.d f.a f.b f.q f.la f.lb f.e f.x)
  | 6 => .ok (.vmadI64 f.d f.a f.b f.q f.la f.lb f.e f.x)
  | _ => .error .unassigned

/-- Major 0x17 (spec/04 R76 to R79). -/
def dec17 (w : BitVec 32) : Dec :=
  let f := FmtA.unpack w
  match (field w 22 4).toNat with
  | 0 => .ok (.vaddminI16 f.d f.a f.b f.q f.la f.lb f.e f.x)
  | 1 => .ok (.vaddmaxI16 f.d f.a f.b f.q f.la f.lb f.e f.x)
  | 2 => .ok (.vaddminI32 f.d f.a f.b f.q f.la f.lb f.e f.x)
  | 3 => .ok (.vaddmaxI32 f.d f.a f.b f.q f.la f.lb f.e f.x)
  | 4 => rOk (!f.x) <| .ok (.vaddminF32 f.d f.a f.b f.q f.la f.lb f.e)
  | 5 => rOk (!f.x) <| .ok (.vaddmaxF32 f.d f.a f.b f.q f.la f.lb f.e)
  | 6 => rOk (!f.x) <| .ok (.vsel f.d f.a f.b f.q f.la f.lb f.e)
  | _ => .error .unassigned

/-- Major 0x18 (spec/04 R76 to R79). -/
def dec18 (w : BitVec 32) : Dec :=
  let f := FmtA.unpack w
  match (field w 22 4).toNat with
  | 0 => bif f.x then .ok (.vsubF32 .mode f.d f.a f.b f.q f.la f.lb f.e) else .ok (.vaddF32 .mode f.d f.a f.b f.q f.la f.lb f.e)
  | 1 => bif f.x then .ok (.vsubF32 .rn f.d f.a f.b f.q f.la f.lb f.e) else .ok (.vaddF32 .rn f.d f.a f.b f.q f.la f.lb f.e)
  | 2 => bif f.x then .ok (.vsubF32 .rz f.d f.a f.b f.q f.la f.lb f.e) else .ok (.vaddF32 .rz f.d f.a f.b f.q f.la f.lb f.e)
  | 3 => bif f.x then .ok (.vsubF32 .rs f.d f.a f.b f.q f.la f.lb f.e) else .ok (.vaddF32 .rs f.d f.a f.b f.q f.la f.lb f.e)
  | 4 => rOk (!f.x) <| .ok (.vmulF32 .mode f.d f.a f.b f.q f.la f.lb f.e)
  | 5 => rOk (!f.x) <| .ok (.vmulF32 .rn f.d f.a f.b f.q f.la f.lb f.e)
  | 6 => rOk (!f.x) <| .ok (.vmulF32 .rz f.d f.a f.b f.q f.la f.lb f.e)
  | 7 => rOk (!f.x) <| .ok (.vmulF32 .rs f.d f.a f.b f.q f.la f.lb f.e)
  | 8 => bif f.x then rOk (f.b == 0 && !f.lb) <| .ok (.vsqrtF32 .mode f.d f.a f.q f.la f.e) else .ok (.vdivF32 .mode f.d f.a f.b f.q f.la f.lb f.e)
  | 9 => bif f.x then rOk (f.b == 0 && !f.lb) <| .ok (.vsqrtF32 .rn f.d f.a f.q f.la f.e) else .ok (.vdivF32 .rn f.d f.a f.b f.q f.la f.lb f.e)
  | 10 => bif f.x then rOk (f.b == 0 && !f.lb) <| .ok (.vsqrtF32 .rz f.d f.a f.q f.la f.e) else .ok (.vdivF32 .rz f.d f.a f.b f.q f.la f.lb f.e)
  | 11 => bif f.x then rOk (f.b == 0 && !f.lb) <| .ok (.vsqrtF32 .rs f.d f.a f.q f.la f.e) else .ok (.vdivF32 .rs f.d f.a f.b f.q f.la f.lb f.e)
  | 12 => rOk (!f.x) <| .ok (.vminF32 f.d f.a f.b f.q f.la f.lb f.e)
  | 13 => rOk (!f.x) <| .ok (.vmaxF32 f.d f.a f.b f.q f.la f.lb f.e)
  | 14 => bif f.x then pick (asPred f.d) fun d => .ok (.vfcleF32 d f.a f.b f.q f.la f.lb f.e) else pick (asPred f.d) fun d => .ok (.vfcltF32 d f.a f.b f.q f.la f.lb f.e)
  | 15 => rOk (!f.x) <| pick (asPred f.d) fun d => .ok (.vfceqF32 d f.a f.b f.q f.la f.lb f.e)
  | _ => .error .unassigned

/-- Major 0x19 (spec/04 R76 to R79). -/
def dec19 (w : BitVec 32) : Dec :=
  let f := FmtA.unpack w
  match (field w 22 4).toNat with
  | 0 => .ok (.vfmaF32 .mode f.d f.a f.b f.q f.la f.lb f.e f.x)
  | 1 => .ok (.vfmaF32 .rn f.d f.a f.b f.q f.la f.lb f.e f.x)
  | 2 => .ok (.vfmaF32 .rz f.d f.a f.b f.q f.la f.lb f.e f.x)
  | 3 => .ok (.vfmaF32 .rs f.d f.a f.b f.q f.la f.lb f.e f.x)
  | 4 => .ok (.vfmsF32 .mode f.d f.a f.b f.q f.la f.lb f.e f.x)
  | 5 => .ok (.vfmsF32 .rn f.d f.a f.b f.q f.la f.lb f.e f.x)
  | 6 => .ok (.vfmsF32 .rz f.d f.a f.b f.q f.la f.lb f.e f.x)
  | 7 => .ok (.vfmsF32 .rs f.d f.a f.b f.q f.la f.lb f.e f.x)
  | 8 => .ok (.vfmaw .mode f.d f.a f.b f.q f.la f.lb f.e f.x)
  | 9 => .ok (.vfmaw .rn f.d f.a f.b f.q f.la f.lb f.e f.x)
  | 10 => .ok (.vfmaw .rz f.d f.a f.b f.q f.la f.lb f.e f.x)
  | 11 => .ok (.vfmaw .rs f.d f.a f.b f.q f.la f.lb f.e f.x)
  | _ => .error .unassigned

/-- Major 0x1A (spec/04 R76 to R79). -/
def dec1A (w : BitVec 32) : Dec :=
  let f := FmtA.unpack w
  match (field w 22 4).toNat with
  | 0 => bif f.x then .ok (.vsubHalf .bf16 .mode f.d f.a f.b f.q f.la f.lb f.e) else .ok (.vaddHalf .bf16 .mode f.d f.a f.b f.q f.la f.lb f.e)
  | 1 => bif f.x then .ok (.vsubHalf .bf16 .rn f.d f.a f.b f.q f.la f.lb f.e) else .ok (.vaddHalf .bf16 .rn f.d f.a f.b f.q f.la f.lb f.e)
  | 2 => bif f.x then .ok (.vsubHalf .bf16 .rz f.d f.a f.b f.q f.la f.lb f.e) else .ok (.vaddHalf .bf16 .rz f.d f.a f.b f.q f.la f.lb f.e)
  | 3 => bif f.x then .ok (.vsubHalf .bf16 .rs f.d f.a f.b f.q f.la f.lb f.e) else .ok (.vaddHalf .bf16 .rs f.d f.a f.b f.q f.la f.lb f.e)
  | 4 => rOk (!f.x) <| .ok (.vmulHalf .bf16 .mode f.d f.a f.b f.q f.la f.lb f.e)
  | 5 => rOk (!f.x) <| .ok (.vmulHalf .bf16 .rn f.d f.a f.b f.q f.la f.lb f.e)
  | 6 => rOk (!f.x) <| .ok (.vmulHalf .bf16 .rz f.d f.a f.b f.q f.la f.lb f.e)
  | 7 => rOk (!f.x) <| .ok (.vmulHalf .bf16 .rs f.d f.a f.b f.q f.la f.lb f.e)
  | 8 => bif f.x then .ok (.vfnmaHalf .bf16 .mode f.d f.a f.b f.q f.la f.lb f.e) else .ok (.vfmaHalf .bf16 .mode f.d f.a f.b f.q f.la f.lb f.e)
  | 9 => bif f.x then .ok (.vfnmaHalf .bf16 .rn f.d f.a f.b f.q f.la f.lb f.e) else .ok (.vfmaHalf .bf16 .rn f.d f.a f.b f.q f.la f.lb f.e)
  | 10 => bif f.x then .ok (.vfnmaHalf .bf16 .rz f.d f.a f.b f.q f.la f.lb f.e) else .ok (.vfmaHalf .bf16 .rz f.d f.a f.b f.q f.la f.lb f.e)
  | 11 => bif f.x then .ok (.vfnmaHalf .bf16 .rs f.d f.a f.b f.q f.la f.lb f.e) else .ok (.vfmaHalf .bf16 .rs f.d f.a f.b f.q f.la f.lb f.e)
  | 12 => rOk (!f.x) <| .ok (.vminHalf .bf16 f.d f.a f.b f.q f.la f.lb f.e)
  | 13 => rOk (!f.x) <| .ok (.vmaxHalf .bf16 f.d f.a f.b f.q f.la f.lb f.e)
  | 14 => bif f.x then pick (asPred f.d) fun d => .ok (.vfcleHalf .bf16 d f.a f.b f.q f.la f.lb f.e) else pick (asPred f.d) fun d => .ok (.vfcltHalf .bf16 d f.a f.b f.q f.la f.lb f.e)
  | 15 => rOk (!f.x) <| pick (asPred f.d) fun d => .ok (.vfceqHalf .bf16 d f.a f.b f.q f.la f.lb f.e)
  | _ => .error .unassigned

/-- Major 0x1B (spec/04 R76 to R79). -/
def dec1B (w : BitVec 32) : Dec :=
  let f := FmtA.unpack w
  match (field w 22 4).toNat with
  | 0 => bif f.x then .ok (.vsubHalf .f16 .mode f.d f.a f.b f.q f.la f.lb f.e) else .ok (.vaddHalf .f16 .mode f.d f.a f.b f.q f.la f.lb f.e)
  | 1 => bif f.x then .ok (.vsubHalf .f16 .rn f.d f.a f.b f.q f.la f.lb f.e) else .ok (.vaddHalf .f16 .rn f.d f.a f.b f.q f.la f.lb f.e)
  | 2 => bif f.x then .ok (.vsubHalf .f16 .rz f.d f.a f.b f.q f.la f.lb f.e) else .ok (.vaddHalf .f16 .rz f.d f.a f.b f.q f.la f.lb f.e)
  | 3 => bif f.x then .ok (.vsubHalf .f16 .rs f.d f.a f.b f.q f.la f.lb f.e) else .ok (.vaddHalf .f16 .rs f.d f.a f.b f.q f.la f.lb f.e)
  | 4 => rOk (!f.x) <| .ok (.vmulHalf .f16 .mode f.d f.a f.b f.q f.la f.lb f.e)
  | 5 => rOk (!f.x) <| .ok (.vmulHalf .f16 .rn f.d f.a f.b f.q f.la f.lb f.e)
  | 6 => rOk (!f.x) <| .ok (.vmulHalf .f16 .rz f.d f.a f.b f.q f.la f.lb f.e)
  | 7 => rOk (!f.x) <| .ok (.vmulHalf .f16 .rs f.d f.a f.b f.q f.la f.lb f.e)
  | 8 => bif f.x then .ok (.vfnmaHalf .f16 .mode f.d f.a f.b f.q f.la f.lb f.e) else .ok (.vfmaHalf .f16 .mode f.d f.a f.b f.q f.la f.lb f.e)
  | 9 => bif f.x then .ok (.vfnmaHalf .f16 .rn f.d f.a f.b f.q f.la f.lb f.e) else .ok (.vfmaHalf .f16 .rn f.d f.a f.b f.q f.la f.lb f.e)
  | 10 => bif f.x then .ok (.vfnmaHalf .f16 .rz f.d f.a f.b f.q f.la f.lb f.e) else .ok (.vfmaHalf .f16 .rz f.d f.a f.b f.q f.la f.lb f.e)
  | 11 => bif f.x then .ok (.vfnmaHalf .f16 .rs f.d f.a f.b f.q f.la f.lb f.e) else .ok (.vfmaHalf .f16 .rs f.d f.a f.b f.q f.la f.lb f.e)
  | 12 => rOk (!f.x) <| .ok (.vminHalf .f16 f.d f.a f.b f.q f.la f.lb f.e)
  | 13 => rOk (!f.x) <| .ok (.vmaxHalf .f16 f.d f.a f.b f.q f.la f.lb f.e)
  | 14 => bif f.x then pick (asPred f.d) fun d => .ok (.vfcleHalf .f16 d f.a f.b f.q f.la f.lb f.e) else pick (asPred f.d) fun d => .ok (.vfcltHalf .f16 d f.a f.b f.q f.la f.lb f.e)
  | 15 => rOk (!f.x) <| pick (asPred f.d) fun d => .ok (.vfceqHalf .f16 d f.a f.b f.q f.la f.lb f.e)
  | _ => .error .unassigned

/-- Major 0x1C (spec/04 R76 to R79). -/
def dec1C (w : BitVec 32) : Dec :=
  let f := FmtC.unpack w
  rOk (!f.z) <| pick (NumTy.ofBits f.fn) fun t => pick (NumTy.ofBits f.src) fun s => pick (Rm.ofBits f.rm) fun r => .ok (.vcvt t f.d f.a s f.q f.la r f.x)

/-- Major 0x1D (spec/04 R76 to R79). -/
def dec1D (w : BitVec 32) : Dec :=
  let f := FmtA.unpack w
  match (field w 22 4).toNat with
  | 0 => rOk (!f.lb) <| pick (PackForm.ofBits f.b) fun p => .ok (.vqpack .mode f.d f.a p f.q f.la f.e f.x)
  | 1 => rOk (!f.lb) <| pick (PackForm.ofBits f.b) fun p => .ok (.vqpack .rn f.d f.a p f.q f.la f.e f.x)
  | 2 => rOk (!f.lb) <| pick (PackForm.ofBits f.b) fun p => .ok (.vqpack .rz f.d f.a p f.q f.la f.e f.x)
  | 3 => rOk (!f.lb) <| pick (PackForm.ofBits f.b) fun p => .ok (.vqpack .rs f.d f.a p f.q f.la f.e f.x)
  | 4 => rOk (!f.lb) <| pick (PackForm.ofBits f.b) fun p => .ok (.vqunpack .mode f.d f.a p f.q f.la f.e f.x)
  | 5 => rOk (!f.lb) <| pick (PackForm.ofBits f.b) fun p => .ok (.vqunpack .rn f.d f.a p f.q f.la f.e f.x)
  | 6 => rOk (!f.lb) <| pick (PackForm.ofBits f.b) fun p => .ok (.vqunpack .rz f.d f.a p f.q f.la f.e f.x)
  | 7 => rOk (!f.lb) <| pick (PackForm.ofBits f.b) fun p => .ok (.vqunpack .rs f.d f.a p f.q f.la f.e f.x)
  | 8 => rOk (!f.x) <| .ok (.vqscale .mode f.d f.a f.b f.q f.la f.lb f.e)
  | 9 => rOk (!f.x) <| .ok (.vqscale .rn f.d f.a f.b f.q f.la f.lb f.e)
  | 10 => rOk (!f.x) <| .ok (.vqscale .rz f.d f.a f.b f.q f.la f.lb f.e)
  | 11 => rOk (!f.x) <| .ok (.vqscale .rs f.d f.a f.b f.q f.la f.lb f.e)
  | _ => .error .unassigned

/-- Major 0x1E (spec/04 R76 to R79). -/
def dec1E (w : BitVec 32) : Dec :=
  let f := FmtA.unpack w
  match (field w 22 4).toNat with
  | 0 => rOk (f.b == 0 && !f.lb && !f.x) <| .ok (.vrcp f.d f.a f.q f.la f.e)
  | 1 => rOk (f.b == 0 && !f.lb && !f.x) <| .ok (.vrsqrt f.d f.a f.q f.la f.e)
  | 2 => rOk (f.b == 0 && !f.lb && !f.x) <| .ok (.vsqrtSfu f.d f.a f.q f.la f.e)
  | 3 => rOk (f.b == 0 && !f.lb && !f.x) <| .ok (.vexp2 f.d f.a f.q f.la f.e)
  | 4 => rOk (f.b == 0 && !f.lb && !f.x) <| .ok (.vlog2 f.d f.a f.q f.la f.e)
  | 5 => rOk (f.b == 0 && !f.lb && !f.x) <| .ok (.vsin f.d f.a f.q f.la f.e)
  | 6 => rOk (f.b == 0 && !f.lb && !f.x) <| .ok (.vcos f.d f.a f.q f.la f.e)
  | 7 => rOk (f.b == 0 && !f.lb && !f.x) <| .ok (.vtanh f.d f.a f.q f.la f.e)
  | 8 => rOk (f.b == 0 && !f.lb && !f.x) <| .ok (.vsigm f.d f.a f.q f.la f.e)
  | 9 => rOk (f.b == 0 && !f.lb && !f.x) <| .ok (.verf f.d f.a f.q f.la f.e)
  | _ => .error .unassigned

/-- Major 0x1F (spec/04 R76 to R79). -/
def dec1F (w : BitVec 32) : Dec :=
  let f := FmtA.unpack w
  match (field w 22 4).toNat with
  | 0 => rOk (!f.x) <| .ok (.vcmulF32 f.d f.a f.b f.q f.la f.lb f.e)
  | 1 => rOk (!f.x) <| .ok (.vcmulcF32 f.d f.a f.b f.q f.la f.lb f.e)
  | 2 => rOk (!f.x) <| .ok (.vcmulBf16 f.d f.a f.b f.q f.la f.lb f.e)
  | 3 => rOk (!f.x) <| .ok (.vbflyF32 f.d f.a f.b f.q f.la f.lb f.e)
  | 4 => rOk (!f.x) <| .ok (.vbflyBf16 f.d f.a f.b f.q f.la f.lb f.e)
  | _ => .error .unassigned

/-- Major 0x20 (spec/04 R76 to R79). -/
def dec20 (w : BitVec 32) : Dec :=
  let f := FmtA.unpack w
  match (field w 22 4).toNat with
  | 0 => rOk (!f.x) <| .ok (.vlread f.d f.a f.b f.q f.la f.lb f.e)
  | 1 => rOk (!f.x) <| .ok (.vshlx f.d f.a f.b f.q f.la f.lb f.e)
  | 2 => rOk (!f.x) <| .ok (.vshrx f.d f.a f.b f.q f.la f.lb f.e)
  | 3 => rOk (!f.x) <| .ok (.vshly f.d f.a f.b f.q f.la f.lb f.e)
  | 4 => rOk (!f.x) <| .ok (.vshry f.d f.a f.b f.q f.la f.lb f.e)
  | 5 => rOk (!f.x) <| .ok (.vsubsel f.d f.a f.b f.q f.la f.lb f.e)
  | 6 => rOk (!f.x) <| .ok (.vrotx f.d f.a f.b f.q f.la f.lb f.e)
  | _ => .error .unassigned

/-- Major 0x21 (spec/04 R76 to R79).  DESIGN CHOICE (log entry 92): `vballot` and `vpcount`, whose one register is their destination, refuse
E. -/
def dec21 (w : BitVec 32) : Dec :=
  let f := FmtA.unpack w
  match (field w 22 4).toNat with
  | 0 => rOk (!f.lb && !f.x) <| pick (KeyTy.ofBits f.b) fun k => .ok (.vmatch f.d f.a k f.q f.la f.e)
  | 1 => rOk (f.b == 0 && !f.la && !f.lb && !f.e && !f.x) <| pick (asPred f.a) fun a => .ok (.vballot f.d a f.q)
  | 2 => rOk (f.b == 0 && !f.lb && !f.x) <| .ok (.vredaddI64 f.d f.a f.q f.la f.e)
  | 3 => rOk (f.b == 0 && !f.lb && !f.x) <| .ok (.vredaddF32 f.d f.a f.q f.la f.e)
  | 4 => rOk (f.b == 0 && !f.lb && !f.x) <| .ok (.vredminI64 f.d f.a f.q f.la f.e)
  | 5 => rOk (f.b == 0 && !f.lb && !f.x) <| .ok (.vredmaxI64 f.d f.a f.q f.la f.e)
  | 6 => rOk (f.b == 0 && !f.lb && !f.x) <| .ok (.vredminF32 f.d f.a f.q f.la f.e)
  | 7 => rOk (f.b == 0 && !f.lb && !f.x) <| .ok (.vredmaxF32 f.d f.a f.q f.la f.e)
  | 8 => rOk (f.b == 0 && !f.lb && !f.x) <| .ok (.vscanaddI64 f.d f.a f.q f.la f.e)
  | 9 => rOk (f.b == 0 && !f.lb && !f.x) <| .ok (.vscanaddF32 f.d f.a f.q f.la f.e)
  | 10 => rOk (f.b == 0 && !f.lb && !f.x) <| .ok (.vscanmaxI64 f.d f.a f.q f.la f.e)
  | 11 => rOk (f.b == 0 && !f.la && !f.lb && !f.e && !f.x) <| pick (asPred f.a) fun a => .ok (.vpcount f.d a f.q)
  | _ => .error .unassigned

/-- Major 0x22 (spec/04 R76 to R79). -/
def dec22 (w : BitVec 32) : Dec :=
  match (field w 22 4).toNat with
  | 0 => let f := FmtA.unpack w; rOk (f.b == 0 && !f.lb && !f.x) <| .ok (.vmov f.d f.a f.q f.la f.e)
  | 1 => let f := FmtA.unpack w; rOk (f.b == 0 && !f.lb && !f.x) <| .ok (.vbcast f.d f.a f.q f.la f.e)
  | 2 => let f := FmtA.unpack w; rOk (f.q == 0 && !f.x) <| .ok (.vextr f.d f.a f.b f.la f.lb f.e)
  | 3 => let f := FmtIV.unpack w; rOk (f.a == 0 && !f.la) <| .ok (.vmovi f.d f.q f.imm)
  | _ => .error .unassigned

/-- Major 0x24 (spec/04 R76 to R79). -/
def dec24 (w : BitVec 32) : Dec :=
  let f := FmtWin.unpack w
  match (field w 22 4).toNat with
  | 0 => .ok (.pld f.d f.dx f.dy f.z f.q f.l)
  | 1 => rOk (f.dx == 0 && f.dy == 0) <| .ok (.pst f.d f.z f.q f.l)
  | 2 => rOk (f.dy == 0) <| .ok (.pwinSumI32 f.d f.dx f.z f.q f.l)
  | 3 => rOk (f.dy == 0) <| .ok (.pwinSumF32 f.d f.dx f.z f.q f.l)
  | 4 => rOk (f.dy == 0) <| .ok (.pwinMaxI32 f.d f.dx f.z f.q f.l)
  | 5 => rOk (f.dy == 0) <| .ok (.pwinMaxF32 f.d f.dx f.z f.q f.l)
  | 6 => rOk (f.dy == 0) <| .ok (.pwinMinI32 f.d f.dx f.z f.q f.l)
  | 7 => rOk (f.dy == 0) <| .ok (.pwinMinF32 f.d f.dx f.z f.q f.l)
  | _ => .error .unassigned

/-- Major 0x25 (spec/04 R76 to R79). -/
def dec25 (w : BitVec 32) : Dec :=
  let f := FmtScr.unpack w
  match (field w 22 4).toNat with
  | 0 => rOk (f.z == 0) <| pick (Dir.ofBits f.dir) fun r => pick (Edge.ofBits f.edge) fun e => .ok (.scroll f.h f.dist r e f.fs)
  | 1 => rOk (f.z == 0) <| pick (Dir.ofBits f.dir) fun r => pick (Edge.ofBits f.edge) fun e => .ok (.scrollResume f.h f.dist r e f.fs)
  | _ => .error .unassigned

/-- Major 0x26 (spec/04 R76 to R79). -/
def dec26 (w : BitVec 32) : Dec :=
  let f := FmtA.unpack w
  match (field w 22 4).toNat with
  | 0 => rOk (f.d == 0 && f.b == 0 && f.q == 0 && !f.lb && !f.x) <| .ok (.pzero f.a f.la f.e)
  | 1 => rOk (f.d == 0 && f.q == 0 && !f.x) <| .ok (.pfill f.a f.b f.la f.lb f.e)
  | 2 => rOk (f.d == 0 && f.q == 0 && !f.x) <| .ok (.pcopy f.a f.b f.la f.lb f.e)
  | 3 => rOk (f.q == 0 && !f.x) <| .ok (.phnd f.d f.a f.b f.la f.lb f.e)
  | 4 => rOk (f.q == 0 && !f.x) <| .ok (.pclip f.d f.a f.b f.la f.lb f.e)
  | _ => .error .unassigned

/-- Major 0x28 (spec/04 R76 to R79). -/
def dec28 (w : BitVec 32) : Dec :=
  let f := FmtM.unpack w
  match (field w 22 4).toNat with
  | 0 => pick (Sc.ofBits f.sc) fun s => .ok (.vgather false .w8 f.d f.b f.i f.q f.ld f.vol s)
  | 1 => pick (Sc.ofBits f.sc) fun s => .ok (.vgather false .w16 f.d f.b f.i f.q f.ld f.vol s)
  | 2 => pick (Sc.ofBits f.sc) fun s => .ok (.vgather false .w32 f.d f.b f.i f.q f.ld f.vol s)
  | 3 => pick (Sc.ofBits f.sc) fun s => .ok (.vgather false .w64 f.d f.b f.i f.q f.ld f.vol s)
  | 8 => pick (Sc.ofBits f.sc) fun s => .ok (.vgather true .w8 f.d f.b f.i f.q f.ld f.vol s)
  | 9 => pick (Sc.ofBits f.sc) fun s => .ok (.vgather true .w16 f.d f.b f.i f.q f.ld f.vol s)
  | 10 => pick (Sc.ofBits f.sc) fun s => .ok (.vgather true .w32 f.d f.b f.i f.q f.ld f.vol s)
  | 11 => pick (Sc.ofBits f.sc) fun s => .ok (.vgather true .w64 f.d f.b f.i f.q f.ld f.vol s)
  | _ => .error .unassigned

/-- Major 0x29 (spec/04 R76 to R79). -/
def dec29 (w : BitVec 32) : Dec :=
  let f := FmtM.unpack w
  match (field w 22 4).toNat with
  | 0 => pick (Sc.ofBits f.sc) fun s => .ok (.vscatter false .w8 f.d f.b f.i f.q f.ld f.vol s)
  | 1 => pick (Sc.ofBits f.sc) fun s => .ok (.vscatter false .w16 f.d f.b f.i f.q f.ld f.vol s)
  | 2 => pick (Sc.ofBits f.sc) fun s => .ok (.vscatter false .w32 f.d f.b f.i f.q f.ld f.vol s)
  | 3 => pick (Sc.ofBits f.sc) fun s => .ok (.vscatter false .w64 f.d f.b f.i f.q f.ld f.vol s)
  | 8 => pick (Sc.ofBits f.sc) fun s => .ok (.vscatter true .w8 f.d f.b f.i f.q f.ld f.vol s)
  | 9 => pick (Sc.ofBits f.sc) fun s => .ok (.vscatter true .w16 f.d f.b f.i f.q f.ld f.vol s)
  | 10 => pick (Sc.ofBits f.sc) fun s => .ok (.vscatter true .w32 f.d f.b f.i f.q f.ld f.vol s)
  | 11 => pick (Sc.ofBits f.sc) fun s => .ok (.vscatter true .w64 f.d f.b f.i f.q f.ld f.vol s)
  | _ => .error .unassigned

/-- Major 0x2A (spec/04 R76 to R79). -/
def dec2A (w : BitVec 32) : Dec :=
  let f := FmtM.unpack w
  match (field w 22 4).toNat with
  | 0 => rOk (f.q == 0) <| pick (Sc.ofBits f.sc) fun s => .ok (.ld false .w8 f.d f.b f.i f.ld f.vol s)
  | 1 => rOk (f.q == 0) <| pick (Sc.ofBits f.sc) fun s => .ok (.ld false .w16 f.d f.b f.i f.ld f.vol s)
  | 2 => rOk (f.q == 0) <| pick (Sc.ofBits f.sc) fun s => .ok (.ld false .w32 f.d f.b f.i f.ld f.vol s)
  | 3 => rOk (f.q == 0) <| pick (Sc.ofBits f.sc) fun s => .ok (.ld false .w64 f.d f.b f.i f.ld f.vol s)
  | 4 => rOk (f.q == 0) <| pick (Sc.ofBits f.sc) fun s => .ok (.st false .w8 f.d f.b f.i f.ld f.vol s)
  | 5 => rOk (f.q == 0) <| pick (Sc.ofBits f.sc) fun s => .ok (.st false .w16 f.d f.b f.i f.ld f.vol s)
  | 6 => rOk (f.q == 0) <| pick (Sc.ofBits f.sc) fun s => .ok (.st false .w32 f.d f.b f.i f.ld f.vol s)
  | 7 => rOk (f.q == 0) <| pick (Sc.ofBits f.sc) fun s => .ok (.st false .w64 f.d f.b f.i f.ld f.vol s)
  | 8 => rOk (f.q == 0) <| pick (Sc.ofBits f.sc) fun s => .ok (.ld true .w8 f.d f.b f.i f.ld f.vol s)
  | 9 => rOk (f.q == 0) <| pick (Sc.ofBits f.sc) fun s => .ok (.ld true .w16 f.d f.b f.i f.ld f.vol s)
  | 10 => rOk (f.q == 0) <| pick (Sc.ofBits f.sc) fun s => .ok (.ld true .w32 f.d f.b f.i f.ld f.vol s)
  | 11 => rOk (f.q == 0) <| pick (Sc.ofBits f.sc) fun s => .ok (.ld true .w64 f.d f.b f.i f.ld f.vol s)
  | 12 => rOk (f.q == 0) <| pick (Sc.ofBits f.sc) fun s => .ok (.st true .w8 f.d f.b f.i f.ld f.vol s)
  | 13 => rOk (f.q == 0) <| pick (Sc.ofBits f.sc) fun s => .ok (.st true .w16 f.d f.b f.i f.ld f.vol s)
  | 14 => rOk (f.q == 0) <| pick (Sc.ofBits f.sc) fun s => .ok (.st true .w32 f.d f.b f.i f.ld f.vol s)
  | 15 => rOk (f.q == 0) <| pick (Sc.ofBits f.sc) fun s => .ok (.st true .w64 f.d f.b f.i f.ld f.vol s)
  | _ => .error .unassigned

/-- Major 0x2B (spec/04 R76 to R79). -/
def dec2B (w : BitVec 32) : Dec :=
  let f := FmtM.unpack w
  match (field w 22 4).toNat with
  | 0 => rOk (f.q == 0 && !f.ld) <| pick (Sc.ofBits f.sc) fun s => .ok (.tld f.d f.b f.i f.vol s)
  | 1 => rOk (f.q == 0) <| pick (Sc.ofBits f.sc) fun s => .ok (.tst f.d f.b f.i f.ld f.vol s)
  | 2 => rOk (f.d == 0 && f.i == 0 && f.q == 0 && !f.ld && !f.vol && f.sc == 0) <| .ok (.lflush f.b)
  | _ => .error .unassigned

/-- Major 0x2C (spec/04 R76 to R79). -/
noncomputable def dec2C (w : BitVec 32) : Dec :=
  let f := FmtM.unpack w
  match (field w 22 4).toNat with
  | 0 => rOk (f.q == 0) <| pick (Sc.ofBits f.sc) fun s => .ok (.aadd f.d f.b f.i f.ld f.vol s)
  | 1 => rOk (f.q == 0) <| pick (Sc.ofBits f.sc) fun s => .ok (.aand f.d f.b f.i f.ld f.vol s)
  | 2 => rOk (f.q == 0) <| pick (Sc.ofBits f.sc) fun s => .ok (.aor f.d f.b f.i f.ld f.vol s)
  | 3 => rOk (f.q == 0) <| pick (Sc.ofBits f.sc) fun s => .ok (.axor f.d f.b f.i f.ld f.vol s)
  | 4 => rOk (f.q == 0) <| pick (Sc.ofBits f.sc) fun s => .ok (.aminI f.d f.b f.i f.ld f.vol s)
  | 5 => rOk (f.q == 0) <| pick (Sc.ofBits f.sc) fun s => .ok (.aminN f.d f.b f.i f.ld f.vol s)
  | 6 => rOk (f.q == 0) <| pick (Sc.ofBits f.sc) fun s => .ok (.amaxI f.d f.b f.i f.ld f.vol s)
  | 7 => rOk (f.q == 0) <| pick (Sc.ofBits f.sc) fun s => .ok (.amaxN f.d f.b f.i f.ld f.vol s)
  | 8 => rOk (f.q == 0) <| pick (Sc.ofBits f.sc) fun s => .ok (.aswap f.d f.b f.i f.ld f.vol s)
  | 9 => rOk (f.q == 0) <| pick (Sc.ofBits f.sc) fun s => .ok (.acas f.d f.b f.i f.ld f.vol s)
  | 10 => rOk (f.q == 0 && f.ld) <| pick (Sc.ofBits f.sc) fun s => .ok (.aaddf f.d f.b f.i f.vol s)
  | _ => .error .unassigned

/-- Major 0x2D (spec/04 R76 to R79). -/
noncomputable def dec2D (w : BitVec 32) : Dec :=
  let f := FmtM.unpack w
  match (field w 22 4).toNat with
  | 0 => rOk (!f.vol && f.sc == 0) <| .ok (.lds false .w8 f.d f.b f.i f.q f.ld)
  | 1 => rOk (!f.vol && f.sc == 0) <| .ok (.lds false .w16 f.d f.b f.i f.q f.ld)
  | 2 => rOk (!f.vol && f.sc == 0) <| .ok (.lds false .w32 f.d f.b f.i f.q f.ld)
  | 3 => rOk (!f.vol && f.sc == 0) <| .ok (.lds false .w64 f.d f.b f.i f.q f.ld)
  | 4 => rOk (!f.vol && f.sc == 0) <| .ok (.sts false .w8 f.d f.b f.i f.q f.ld)
  | 5 => rOk (!f.vol && f.sc == 0) <| .ok (.sts false .w16 f.d f.b f.i f.q f.ld)
  | 6 => rOk (!f.vol && f.sc == 0) <| .ok (.sts false .w32 f.d f.b f.i f.q f.ld)
  | 7 => rOk (!f.vol && f.sc == 0) <| .ok (.sts false .w64 f.d f.b f.i f.q f.ld)
  | 8 => rOk (!f.vol && f.sc == 0) <| .ok (.lds true .w8 f.d f.b f.i f.q f.ld)
  | 9 => rOk (!f.vol && f.sc == 0) <| .ok (.lds true .w16 f.d f.b f.i f.q f.ld)
  | 10 => rOk (!f.vol && f.sc == 0) <| .ok (.lds true .w32 f.d f.b f.i f.q f.ld)
  | 11 => rOk (!f.vol && f.sc == 0) <| .ok (.lds true .w64 f.d f.b f.i f.q f.ld)
  | 12 => rOk (!f.vol && f.sc == 0) <| .ok (.sts true .w8 f.d f.b f.i f.q f.ld)
  | 13 => rOk (!f.vol && f.sc == 0) <| .ok (.sts true .w16 f.d f.b f.i f.q f.ld)
  | 14 => rOk (!f.vol && f.sc == 0) <| .ok (.sts true .w32 f.d f.b f.i f.q f.ld)
  | 15 => rOk (!f.vol && f.sc == 0) <| .ok (.sts true .w64 f.d f.b f.i f.q f.ld)
  | _ => .error .unassigned

/-- Major 0x2E (spec/04 R76 to R79). -/
noncomputable def dec2E (w : BitVec 32) : Dec :=
  let f := FmtM.unpack w
  match (field w 22 4).toNat with
  | 0 => rOk (f.d == 0 && f.q == 0 && !f.ld && !f.vol && f.sc == 0) <| .ok (.pfc f.b f.i)
  | 1 => rOk (f.d == 0 && f.q == 0 && !f.ld && !f.vol && f.sc == 0) <| .ok (.pfd f.b f.i)
  | 2 => rOk (f.d == 0 && f.q == 0 && !f.ld && !f.vol && f.sc == 0) <| .ok (.cwb f.b f.i)
  | 3 => rOk (f.d == 0 && f.q == 0 && !f.ld && !f.vol && f.sc == 0) <| .ok (.cinv f.b f.i)
  | 4 => rOk (f.d == 0 && f.q == 0 && !f.ld && !f.vol && f.sc == 0) <| .ok (.cwbinv f.b f.i)
  | _ => .error .unassigned

/-- Major 0x30 (spec/04 R76 to R79). -/
noncomputable def dec30 (w : BitVec 32) : Dec :=
  let f := FmtCmd.unpack w
  match (field w 22 4).toNat with
  | 0 => rOk (f.z == 0) <| .ok (.cpyGp f.a f.tag f.cw)
  | 1 => rOk (f.z == 0) <| .ok (.cpyPg f.a f.tag f.cw)
  | 2 => rOk (f.z == 0) <| .ok (.cpyPp f.a f.tag f.cw)
  | 3 => rOk (f.z == 0) <| .ok (.cpyGg f.a f.tag f.cw)
  | _ => .error .unassigned

/-- Major 0x31 (spec/04 R76 to R79). -/
noncomputable def dec31 (w : BitVec 32) : Dec :=
  let f := FmtTag.unpack w
  match (field w 22 4).toNat with
  | 0 => rOk (f.z == 0) <| .ok (.waitAny f.d f.a)
  | 1 => rOk (f.z == 0) <| .ok (.waitAll f.d f.a)
  | 2 => rOk (f.z == 0) <| .ok (.tagfind f.d f.a)
  | 3 => rOk (f.d == 0 && f.z == 0) <| .ok (.tagclr f.a)
  | _ => .error .unassigned

/-- Major 0x32 (spec/04 R76 to R79). -/
noncomputable def dec32 (w : BitVec 32) : Dec :=
  let f := FmtCmd.unpack w
  match (field w 22 4).toNat with
  | 0 => rOk (f.z == 0) <| .ok (.nmv f.a f.tag f.cw)
  | 1 => rOk (f.z == 0) <| .ok (.nmrd f.a f.tag f.cw)
  | 2 => rOk (f.z == 0) <| .ok (.nmwr f.a f.tag f.cw)
  | 3 => rOk (f.z == 0) <| .ok (.nmwrm f.a f.tag f.cw)
  | _ => .error .unassigned

/-- Major 0x34 (spec/04 R76 to R79). -/
noncomputable def dec34 (w : BitVec 32) : Dec :=
  let f := FmtMma.unpack w
  match (field w 22 4).toNat with
  | 0 => pick (MSel.ofBits f.m) fun m => .ok (.mma f.a f.s m f.n f.q f.r f.c)
  | _ => .error .unassigned

/-- Major 0x35 (spec/04 R76 to R79). -/
noncomputable def dec35 (w : BitVec 32) : Dec :=
  let f := FmtAcc.unpack w
  match (field w 22 4).toNat with
  | 0 => rOk (f.h == 0 && f.c == 0 && f.r == 0 && !f.z) <| .ok (.accz f.s f.n f.q)
  | 1 => rOk (!f.z) <| pick (Rm.ofBits f.r) fun r => .ok (.accld f.h f.s f.n f.c r f.q)
  | 2 => rOk (!f.z) <| pick (Rm.ofBits f.r) fun r => .ok (.accrd f.h f.s f.n f.c r f.q)
  | _ => .error .unassigned

/-- Major 0x36 (spec/04 R76 to R79). -/
noncomputable def dec36 (w : BitVec 32) : Dec :=
  let f := FmtMq.unpack w
  match (field w 22 4).toNat with
  | 0 => rOk (f.y == 0 && f.s == 0 && f.z == 0) <| .ok (.mfence)
  | 1 => rOk (f.y == 0 && f.z == 0) <| .ok (.mwait f.s)
  | _ => .error .unassigned

/-- Major 0x38 (spec/04 R76 to R79). -/
noncomputable def dec38 (w : BitVec 32) : Dec :=
  let f := FmtBar.unpack w
  match (field w 22 4).toNat with
  | 0 => rOk (f.z == 0) <| .ok (.bar f.l)
  | 1 => rOk (f.z == 0) <| .ok (.barArrive f.l)
  | 2 => rOk (f.z == 0) <| .ok (.barWait f.l)
  | _ => .error .unassigned

/-- Major 0x39 (spec/04 R76 to R79). -/
noncomputable def dec39 (w : BitVec 32) : Dec :=
  let f := FmtFen.unpack w
  match (field w 22 4).toNat with
  | 0 => rOk (f.z == 0) <| pick (Scope.ofBits f.s) fun s => pick (FenceKind.ofBits f.k) fun k => .ok (.fence s k)
  | _ => .error .unassigned

/-- Major 0x3A (spec/04 R76 to R79). -/
noncomputable def dec3A (w : BitVec 32) : Dec :=
  let f := FmtRng.unpack w
  match (field w 22 4).toNat with
  | 0 => rOk (f.d == 0 && f.z == 0) <| .ok (.ringWait f.g f.s f.p)
  | 1 => rOk (f.d == 0 && !f.p && f.z == 0) <| .ok (.ringSig f.g f.s)
  | 2 => rOk (f.z == 0) <| .ok (.ringTest f.d f.g f.s f.p)
  | _ => .error .unassigned

/-- Major 0x3B (spec/04 R76 to R79). -/
noncomputable def dec3B (w : BitVec 32) : Dec :=
  let f := FmtChn.unpack w
  match (field w 22 4).toNat with
  | 0 => rOk (f.d == 0 && f.z == 0) <| .ok (.send f.a f.ep f.l)
  | 1 => rOk (f.a == 0 && !f.l && f.z == 0) <| .ok (.recv f.d f.ep)
  | 2 => rOk (f.z == 0) <| .ok (.trysend f.d f.a f.ep f.l)
  | 3 => rOk (f.a == 0 && !f.l && f.z == 0) <| .ok (.chstat f.d f.ep)
  | _ => .error .unassigned

/-- Major 0x3C (spec/04 R76 to R79). -/
noncomputable def dec3C (w : BitVec 32) : Dec :=
  let f := FmtAcq.unpack w
  match (field w 22 4).toNat with
  | 0 => rOk (f.d == 0 && f.z == 0) <| pick (AcqKind.ofBits f.k) fun k => .ok (.acqW f.a k)
  | 1 => rOk (f.z == 0) <| pick (AcqKind.ofBits f.k) fun k => .ok (.acqF f.d f.a k)
  | 2 => rOk (f.d == 0 && f.z == 0) <| pick (AcqKind.ofBits f.k) fun k => .ok (.rel f.a k)
  | 3 => rOk (f.d == 0 && f.k == 0 && f.z == 0) <| .ok (.setperf f.a)
  | 4 => rOk (f.d == 0 && f.k == 0 && f.z == 0) <| .ok (.setperfV f.a)
  | 5 => rOk (f.d == 0 && f.k == 0 && f.z == 0) <| .ok (.pdrop f.a)
  | _ => .error .unassigned

/-- Major 0x3D (spec/04 R76 to R79). -/
noncomputable def dec3D (w : BitVec 32) : Dec :=
  let f := FmtCtx.unpack w
  match (field w 22 4).toNat with
  | 0 => rOk (f.z == 0) <| .ok (.ctxrd f.d f.a f.b)
  | 1 => rOk (f.z == 0) <| .ok (.ctxwr f.d f.a f.b)
  | 2 => rOk (f.d == 0 && f.a == 0 && f.b == 0 && f.z == 0) <| .ok (.idem)
  | 3 => rOk (f.d == 0 && f.a == 0 && f.b == 0 && f.z == 0) <| .ok (.idemEnd)
  | 4 => rOk (f.d == 0 && f.z == 0) <| .ok (.tret f.a f.b)
  | 5 => rOk (f.b == 0 && f.z == 0) <| .ok (.vkill f.d f.a)
  | 6 => rOk (f.b == 0 && f.z == 0) <| .ok (.skill f.d f.a)
  | 8 => rOk (f.z == 0) <| .ok (.sret f.d f.a f.b)
  | 9 => rOk (f.b == 0 && f.z == 0) <| .ok (.grpsusp f.d f.a)
  | 10 => rOk (f.b == 0 && f.z == 0) <| .ok (.grpres f.d f.a)
  | 11 => rOk (f.z == 0) <| .ok (.asgen f.d f.a f.b)
  | _ => .error .unassigned

/-- Major 0x3E (spec/04 R76 to R79). -/
noncomputable def dec3E (w : BitVec 32) : Dec :=
  let f := FmtRpt.unpack w
  rOk (f.z == 0) <| .ok (.rpt f.n f.sd f.sa f.sb f.st)

/-- Hints, major 0x3F (spec/04 R86 to R88). -/
noncomputable def dec3F (w : BitVec 32) : Dec :=
  match (field w 24 2).toNat with
  | 0 => let f := FmtWide.unpack w; .ok (.wide f.p)
  | 1 => let f := FmtMod.unpack w; rOk (f.z == 0) <| pick (ModScope.ofBits f.s) fun s => pick (ModOrder.ofBits f.o) fun o => pick (ModCache.ofBits f.c) fun c => .ok (.mod s o c f.t)
  | 2 => let f := FmtSch.unpack w; rOk (f.z == 0) <| .ok (.sched f.y f.p f.s)
  | _ => .error .unassigned

/-- The word by its major opcode alone, before the operand checks of `Instr.wf`. -/
noncomputable def decodeRaw (w : BitVec 32) : Dec :=
  match (field w 26 6).toNat with
  | 1 => dec01 w
  | 2 => dec02 w
  | 3 => dec03 w
  | 4 => dec04 w
  | 5 => dec05 w
  | 6 => dec06 w
  | 7 => dec07 w
  | 8 => dec08 w
  | 9 => dec09 w
  | 10 => dec0A w
  | 16 => dec10 w
  | 17 => dec11 w
  | 18 => dec12 w
  | 19 => dec13 w
  | 20 => dec14 w
  | 21 => dec15 w
  | 22 => dec16 w
  | 23 => dec17 w
  | 24 => dec18 w
  | 25 => dec19 w
  | 26 => dec1A w
  | 27 => dec1B w
  | 28 => dec1C w
  | 29 => dec1D w
  | 30 => dec1E w
  | 31 => dec1F w
  | 32 => dec20 w
  | 33 => dec21 w
  | 34 => dec22 w
  | 36 => dec24 w
  | 37 => dec25 w
  | 38 => dec26 w
  | 40 => dec28 w
  | 41 => dec29 w
  | 42 => dec2A w
  | 43 => dec2B w
  | 44 => dec2C w
  | 45 => dec2D w
  | 46 => dec2E w
  | 48 => dec30 w
  | 49 => dec31 w
  | 50 => dec32 w
  | 52 => dec34 w
  | 53 => dec35 w
  | 54 => dec36 w
  | 56 => dec38 w
  | 57 => dec39 w
  | 58 => dec3A w
  | 59 => dec3B w
  | 60 => dec3C w
  | 61 => dec3D w
  | 62 => dec3E w
  | 63 => dec3F w
  | _ => .error .reservedMajor

/-- The instruction a word stands for, or why it is none (spec/04 R66, R81). -/
noncomputable def decode (w : BitVec 32) : Dec :=
  match decodeRaw w with
  | .ok i => bif i.wf then .ok i else .error .refusedOperand
  | .error r => .error r

/-- The word of four bytes, the first the least significant (spec/00 R3). -/
def wordOfBytes (b0 b1 b2 b3 : BitVec 8) : BitVec 32 :=
  BitVec.ofNat 32 (b0.toNat + b1.toNat * 2 ^ 8 + b2.toNat * 2 ^ 16 + b3.toNat * 2 ^ 24)

/-- Decoding of a list of bytes: what the first four read as, and the rest. -/
noncomputable def decodeBytes : List (BitVec 8) → Dec × List (BitVec 8)
  | b0 :: b1 :: b2 :: b3 :: rest => (decode (wordOfBytes b0 b1 b2 b3), rest)
  | rest => (.error .reservedMajor, rest)

/-- What `decode` reads from a word numbered as spec/opcode_table.json numbers its bits.  Every instruction is one
32-bit word (spec/04), so the bits above the word are not read; the event rows have no bits, and the word 0 that stands
for them is no instruction. -/
noncomputable def decodeTableWord (nbits w : Nat) : Option Instr :=
  let v := w % 2 ^ min nbits 32
  match decodeBytes [BitVec.ofNat 8 v, BitVec.ofNat 8 (v / 2 ^ 8), BitVec.ofNat 8 (v / 2 ^ 16), BitVec.ofNat 8 (v / 2 ^ 24)] with
  | (.ok i, _) => some i
  | (.error _, _) => none

/-! The word of each encoded row of the table, in the table's order (spec/04 R67, R68, R76 to R79). -/

def encAdd (d a b : BitVec 5) (l m e x : Bool) : BitVec 32 :=
  FmtA.pack 0x01 ⟨0, d, a, b, 0, l, m, e, x⟩
def encSub (d a b : BitVec 5) (l m e x : Bool) : BitVec 32 :=
  FmtA.pack 0x01 ⟨1, d, a, b, 0, l, m, e, x⟩
def encAnd (d a b : BitVec 5) (l m e x : Bool) : BitVec 32 :=
  FmtA.pack 0x01 ⟨2, d, a, b, 0, l, m, e, x⟩
def encOr (d a b : BitVec 5) (l m e x : Bool) : BitVec 32 :=
  FmtA.pack 0x01 ⟨3, d, a, b, 0, l, m, e, x⟩
def encXor (d a b : BitVec 5) (l m e x : Bool) : BitVec 32 :=
  FmtA.pack 0x01 ⟨4, d, a, b, 0, l, m, e, x⟩
def encAndn (d a b : BitVec 5) (l m e x : Bool) : BitVec 32 :=
  FmtA.pack 0x01 ⟨5, d, a, b, 0, l, m, e, x⟩
def encShl (d a b : BitVec 5) (l m e x : Bool) : BitVec 32 :=
  FmtA.pack 0x01 ⟨6, d, a, b, 0, l, m, e, x⟩
def encShrI (d a b : BitVec 5) (l m e x : Bool) : BitVec 32 :=
  FmtA.pack 0x01 ⟨7, d, a, b, 0, l, m, e, x⟩
def encShrN (d a b : BitVec 5) (l m e x : Bool) : BitVec 32 :=
  FmtA.pack 0x01 ⟨8, d, a, b, 0, l, m, e, x⟩
def encRotl (d a b : BitVec 5) (l m e x : Bool) : BitVec 32 :=
  FmtA.pack 0x01 ⟨9, d, a, b, 0, l, m, e, x⟩
def encRotr (d a b : BitVec 5) (l m e x : Bool) : BitVec 32 :=
  FmtA.pack 0x01 ⟨10, d, a, b, 0, l, m, e, x⟩
def encMul (d a b : BitVec 5) (l m e x : Bool) : BitVec 32 :=
  FmtA.pack 0x01 ⟨11, d, a, b, 0, l, m, e, x⟩
def encMulhI (d a b : BitVec 5) (l m e x : Bool) : BitVec 32 :=
  FmtA.pack 0x01 ⟨12, d, a, b, 0, l, m, e, x⟩
def encMulhN (d a b : BitVec 5) (l m e x : Bool) : BitVec 32 :=
  FmtA.pack 0x01 ⟨13, d, a, b, 0, l, m, e, x⟩
def encMinI (d a b : BitVec 5) (l m e x : Bool) : BitVec 32 :=
  FmtA.pack 0x01 ⟨14, d, a, b, 0, l, m, e, x⟩
def encMinN (d a b : BitVec 5) (l m e x : Bool) : BitVec 32 :=
  FmtA.pack 0x01 ⟨15, d, a, b, 0, l, m, e, x⟩
def encMaxI (d a b : BitVec 5) (l m e x : Bool) : BitVec 32 :=
  FmtA.pack 0x02 ⟨0, d, a, b, 0, l, m, e, x⟩
def encMaxN (d a b : BitVec 5) (l m e x : Bool) : BitVec 32 :=
  FmtA.pack 0x02 ⟨1, d, a, b, 0, l, m, e, x⟩
def encDivI (d a b : BitVec 5) (l m e x : Bool) : BitVec 32 :=
  FmtA.pack 0x02 ⟨2, d, a, b, 0, l, m, e, x⟩
def encDivN (d a b : BitVec 5) (l m e x : Bool) : BitVec 32 :=
  FmtA.pack 0x02 ⟨3, d, a, b, 0, l, m, e, x⟩
def encRemI (d a b : BitVec 5) (l m e x : Bool) : BitVec 32 :=
  FmtA.pack 0x02 ⟨4, d, a, b, 0, l, m, e, x⟩
def encRemN (d a b : BitVec 5) (l m e x : Bool) : BitVec 32 :=
  FmtA.pack 0x02 ⟨5, d, a, b, 0, l, m, e, x⟩
def encClz (d a : BitVec 5) (l e x : Bool) : BitVec 32 :=
  FmtA.pack 0x02 ⟨6, d, a, 0, 0, l, false, e, x⟩
def encCtz (d a : BitVec 5) (l e x : Bool) : BitVec 32 :=
  FmtA.pack 0x02 ⟨7, d, a, 0, 0, l, false, e, x⟩
def encPopc (d a : BitVec 5) (l e x : Bool) : BitVec 32 :=
  FmtA.pack 0x02 ⟨8, d, a, 0, 0, l, false, e, x⟩
def encBrev (d a : BitVec 5) (l e x : Bool) : BitVec 32 :=
  FmtA.pack 0x02 ⟨9, d, a, 0, 0, l, false, e, x⟩
def encBswap (d a : BitVec 5) (l e x : Bool) : BitVec 32 :=
  FmtA.pack 0x02 ⟨10, d, a, 0, 0, l, false, e, x⟩
def encAbs (d a : BitVec 5) (l e x : Bool) : BitVec 32 :=
  FmtA.pack 0x02 ⟨11, d, a, 0, 0, l, false, e, x⟩
def encAddsI (d a b : BitVec 5) (l m e x : Bool) : BitVec 32 :=
  FmtA.pack 0x02 ⟨12, d, a, b, 0, l, m, e, x⟩
def encSubsI (d a b : BitVec 5) (l m e x : Bool) : BitVec 32 :=
  FmtA.pack 0x02 ⟨13, d, a, b, 0, l, m, e, x⟩
def encSeq (d a b : BitVec 5) (l m e x : Bool) : BitVec 32 :=
  FmtA.pack 0x03 ⟨0, d, a, b, 0, l, m, e, x⟩
def encSne (d a b : BitVec 5) (l m e x : Bool) : BitVec 32 :=
  FmtA.pack 0x03 ⟨1, d, a, b, 0, l, m, e, x⟩
def encSltI (d a b : BitVec 5) (l m e x : Bool) : BitVec 32 :=
  FmtA.pack 0x03 ⟨2, d, a, b, 0, l, m, e, x⟩
def encSltN (d a b : BitVec 5) (l m e x : Bool) : BitVec 32 :=
  FmtA.pack 0x03 ⟨3, d, a, b, 0, l, m, e, x⟩
def encSleI (d a b : BitVec 5) (l m e x : Bool) : BitVec 32 :=
  FmtA.pack 0x03 ⟨4, d, a, b, 0, l, m, e, x⟩
def encSleN (d a b : BitVec 5) (l m e x : Bool) : BitVec 32 :=
  FmtA.pack 0x03 ⟨5, d, a, b, 0, l, m, e, x⟩
def encCmovnz (d a b : BitVec 5) (l m e x : Bool) : BitVec 32 :=
  FmtA.pack 0x03 ⟨6, d, a, b, 0, l, m, e, x⟩
def encCmovz (d a b : BitVec 5) (l m e x : Bool) : BitVec 32 :=
  FmtA.pack 0x03 ⟨7, d, a, b, 0, l, m, e, x⟩
def encAddi (d a : BitVec 5) (l : Bool) (i : BitVec 11) : BitVec 32 :=
  FmtIS.pack 0x04 ⟨0, d, a, l, i⟩
def encAndi (d a : BitVec 5) (l : Bool) (i : BitVec 11) : BitVec 32 :=
  FmtIS.pack 0x04 ⟨1, d, a, l, i⟩
def encOri (d a : BitVec 5) (l : Bool) (i : BitVec 11) : BitVec 32 :=
  FmtIS.pack 0x04 ⟨2, d, a, l, i⟩
def encXori (d a : BitVec 5) (l : Bool) (i : BitVec 11) : BitVec 32 :=
  FmtIS.pack 0x04 ⟨3, d, a, l, i⟩
def encShli (d a : BitVec 5) (l : Bool) (i : BitVec 11) : BitVec 32 :=
  FmtIS.pack 0x04 ⟨4, d, a, l, i⟩
def encShriI (d a : BitVec 5) (l : Bool) (i : BitVec 11) : BitVec 32 :=
  FmtIS.pack 0x04 ⟨5, d, a, l, i⟩
def encShriN (d a : BitVec 5) (l : Bool) (i : BitVec 11) : BitVec 32 :=
  FmtIS.pack 0x04 ⟨6, d, a, l, i⟩
def encSltiI (d a : BitVec 5) (l : Bool) (i : BitVec 11) : BitVec 32 :=
  FmtIS.pack 0x04 ⟨7, d, a, l, i⟩
def encSltiN (d a : BitVec 5) (l : Bool) (i : BitVec 11) : BitVec 32 :=
  FmtIS.pack 0x04 ⟨8, d, a, l, i⟩
def encSeqi (d a : BitVec 5) (l : Bool) (i : BitVec 11) : BitVec 32 :=
  FmtIS.pack 0x04 ⟨9, d, a, l, i⟩
def encMuli (d a : BitVec 5) (l : Bool) (i : BitVec 11) : BitVec 32 :=
  FmtIS.pack 0x04 ⟨10, d, a, l, i⟩
def encRotli (d a : BitVec 5) (l : Bool) (i : BitVec 11) : BitVec 32 :=
  FmtIS.pack 0x04 ⟨11, d, a, l, i⟩
def encBfxI (d a : BitVec 5) (l : Bool) (n : BitVec 5) (p : BitVec 6) : BitVec 32 :=
  FmtIS.pack 0x05 ⟨0, d, a, l, (bfImm n p)⟩
def encBfxN (d a : BitVec 5) (l : Bool) (n : BitVec 5) (p : BitVec 6) : BitVec 32 :=
  FmtIS.pack 0x05 ⟨1, d, a, l, (bfImm n p)⟩
def encBfi (d a : BitVec 5) (l : Bool) (n : BitVec 5) (p : BitVec 6) : BitVec 32 :=
  FmtIS.pack 0x05 ⟨2, d, a, l, (bfImm n p)⟩
def encLea2 (d a b : BitVec 5) (l m e x : Bool) : BitVec 32 :=
  FmtA.pack 0x05 ⟨3, d, a, b, 0, l, m, e, x⟩
def encLea4 (d a b : BitVec 5) (l m e x : Bool) : BitVec 32 :=
  FmtA.pack 0x05 ⟨4, d, a, b, 0, l, m, e, x⟩
def encLea8 (d a b : BitVec 5) (l m e x : Bool) : BitVec 32 :=
  FmtA.pack 0x05 ⟨5, d, a, b, 0, l, m, e, x⟩
def encLea16 (d a b : BitVec 5) (l m e x : Bool) : BitVec 32 :=
  FmtA.pack 0x05 ⟨6, d, a, b, 0, l, m, e, x⟩
def encMov (d a : BitVec 5) (l e : Bool) : BitVec 32 :=
  FmtA.pack 0x06 ⟨0, d, a, 0, 0, l, false, e, false⟩
def encSrd (d : BitVec 5) (i : BitVec 11) : BitVec 32 :=
  FmtIS.pack 0x06 ⟨1, d, 0, false, i⟩
def encSwr (a : BitVec 5) (l : Bool) (i : BitVec 11) : BitVec 32 :=
  FmtIS.pack 0x06 ⟨2, 0, a, l, i⟩
def encHrd (d : BitVec 5) (h : BitVec 4) : BitVec 32 :=
  FmtIS.pack 0x06 ⟨3, d, 0, false, (hiveImm h)⟩
def encHwr (a : BitVec 5) (l : Bool) (h : BitVec 4) : BitVec 32 :=
  FmtIS.pack 0x06 ⟨4, 0, a, l, (hiveImm h)⟩
def encHadd (d a : BitVec 5) (l : Bool) (h : BitVec 4) : BitVec 32 :=
  FmtIS.pack 0x06 ⟨5, d, a, l, (hiveImm h)⟩
def encSrdv (d : BitVec 5) : BitVec 32 :=
  FmtIS.pack 0x06 ⟨6, d, 0, false, 2⟩
def encFadd (r : Rm) (d a b : BitVec 5) (l m e : Bool) : BitVec 32 :=
  FmtA.pack 0x07 ⟨(r.toBits.setWidth 4), d, a, b, 0, l, m, e, false⟩
def encFsub (r : Rm) (d a b : BitVec 5) (l m e : Bool) : BitVec 32 :=
  FmtA.pack 0x07 ⟨(r.toBits.setWidth 4), d, a, b, 0, l, m, e, true⟩
def encFmul (r : Rm) (d a b : BitVec 5) (l m e : Bool) : BitVec 32 :=
  FmtA.pack 0x07 ⟨(4 + r.toBits.setWidth 4), d, a, b, 0, l, m, e, false⟩
def encFdiv (r : Rm) (d a b : BitVec 5) (l m e : Bool) : BitVec 32 :=
  FmtA.pack 0x07 ⟨(4 + r.toBits.setWidth 4), d, a, b, 0, l, m, e, true⟩
def encFfma (r : Rm) (d a b : BitVec 5) (l m e : Bool) : BitVec 32 :=
  FmtA.pack 0x07 ⟨(8 + r.toBits.setWidth 4), d, a, b, 0, l, m, e, false⟩
def encFsqrt (r : Rm) (d a : BitVec 5) (l e : Bool) : BitVec 32 :=
  FmtA.pack 0x07 ⟨(8 + r.toBits.setWidth 4), d, a, 0, 0, l, false, e, true⟩
def encFcvtF32I64 (r : Rm) (d a : BitVec 5) (l e : Bool) : BitVec 32 :=
  FmtA.pack 0x07 ⟨(12 + r.toBits.setWidth 4), d, a, 0, 0, l, false, e, false⟩
def encFcvtI64F32 (r : Rm) (d a : BitVec 5) (l e : Bool) : BitVec 32 :=
  FmtA.pack 0x07 ⟨(12 + r.toBits.setWidth 4), d, a, 0, 0, l, false, e, true⟩
def encBr (o : BitVec 17) : BitVec 32 :=
  FmtB.pack 0x08 ⟨0, 0, o⟩
def encBz (r : BitVec 5) (o : BitVec 17) : BitVec 32 :=
  FmtB.pack 0x08 ⟨1, r, o⟩
def encBnz (r : BitVec 5) (o : BitVec 17) : BitVec 32 :=
  FmtB.pack 0x08 ⟨2, r, o⟩
def encBlt (r : BitVec 5) (o : BitVec 17) : BitVec 32 :=
  FmtB.pack 0x08 ⟨3, r, o⟩
def encBge (r : BitVec 5) (o : BitVec 17) : BitVec 32 :=
  FmtB.pack 0x08 ⟨4, r, o⟩
def encBany (r : PReg) (o : BitVec 17) : BitVec 32 :=
  FmtB.pack 0x08 ⟨5, (r.setWidth 5), o⟩
def encBall (r : PReg) (o : BitVec 17) : BitVec 32 :=
  FmtB.pack 0x08 ⟨6, (r.setWidth 5), o⟩
def encBnone (r : PReg) (o : BitVec 17) : BitVec 32 :=
  FmtB.pack 0x08 ⟨7, (r.setWidth 5), o⟩
def encCall (d : BitVec 5) (o : BitVec 17) : BitVec 32 :=
  FmtB.pack 0x09 ⟨0, d, o⟩
def encCallr (d a : BitVec 5) (l e : Bool) : BitVec 32 :=
  FmtA.pack 0x09 ⟨1, d, a, 0, 0, l, false, e, false⟩
def encRet (a : BitVec 5) (l e : Bool) : BitVec 32 :=
  FmtA.pack 0x09 ⟨2, 0, a, 0, 0, l, false, e, false⟩
def encExit (q : BitVec 3) : BitVec 32 :=
  FmtA.pack 0x09 ⟨3, 0, 0, 0, q, false, false, false, false⟩
def encYield : BitVec 32 :=
  FmtA.pack 0x09 ⟨4, 0, 0, 0, 0, false, false, false, false⟩
def encEnq (d a b : BitVec 5) (l m e : Bool) : BitVec 32 :=
  FmtA.pack 0x09 ⟨5, d, a, b, 0, l, m, e, false⟩
def encTrap (i : BitVec 11) : BitVec 32 :=
  FmtIS.pack 0x09 ⟨6, 0, 0, false, i⟩
def encPand (d a b : PReg) (q : BitVec 3) : BitVec 32 :=
  FmtA.pack 0x0A ⟨0, (d.setWidth 5), (a.setWidth 5), (b.setWidth 5), q, false, false, false, false⟩
def encPor (d a b : PReg) (q : BitVec 3) : BitVec 32 :=
  FmtA.pack 0x0A ⟨1, (d.setWidth 5), (a.setWidth 5), (b.setWidth 5), q, false, false, false, false⟩
def encPxor (d a b : PReg) (q : BitVec 3) : BitVec 32 :=
  FmtA.pack 0x0A ⟨2, (d.setWidth 5), (a.setWidth 5), (b.setWidth 5), q, false, false, false, false⟩
def encPandn (d a b : PReg) (q : BitVec 3) : BitVec 32 :=
  FmtA.pack 0x0A ⟨3, (d.setWidth 5), (a.setWidth 5), (b.setWidth 5), q, false, false, false, false⟩
def encPnot (d a : PReg) (q : BitVec 3) : BitVec 32 :=
  FmtA.pack 0x0A ⟨4, (d.setWidth 5), (a.setWidth 5), 0, q, false, false, false, false⟩
def encPmov (d a : PReg) (q : BitVec 3) : BitVec 32 :=
  FmtA.pack 0x0A ⟨5, (d.setWidth 5), (a.setWidth 5), 0, q, false, false, false, false⟩
def encPset (d : PReg) (a : BitVec 5) (q : BitVec 3) (l e : Bool) : BitVec 32 :=
  FmtA.pack 0x0A ⟨6, (d.setWidth 5), a, 0, q, l, false, e, false⟩
def encPfirst (d a : PReg) (q : BitVec 3) : BitVec 32 :=
  FmtA.pack 0x0A ⟨7, (d.setWidth 5), (a.setWidth 5), 0, q, false, false, false, false⟩
def encVadd (w : Wid3) (d a b : BitVec 5) (q : BitVec 3) (l m e x : Bool) : BitVec 32 :=
  FmtA.pack (0x10 + w.toBits.setWidth 6) ⟨0, d, a, b, q, l, m, e, x⟩
def encVsub (w : Wid3) (d a b : BitVec 5) (q : BitVec 3) (l m e x : Bool) : BitVec 32 :=
  FmtA.pack (0x10 + w.toBits.setWidth 6) ⟨1, d, a, b, q, l, m, e, x⟩
def encVmul (w : Wid3) (d a b : BitVec 5) (q : BitVec 3) (l m e x : Bool) : BitVec 32 :=
  FmtA.pack (0x10 + w.toBits.setWidth 6) ⟨2, d, a, b, q, l, m, e, x⟩
def encVminI (w : Wid3) (d a b : BitVec 5) (q : BitVec 3) (l m e : Bool) : BitVec 32 :=
  FmtA.pack (0x10 + w.toBits.setWidth 6) ⟨3, d, a, b, q, l, m, e, false⟩
def encVminN (w : Wid3) (d a b : BitVec 5) (q : BitVec 3) (l m e : Bool) : BitVec 32 :=
  FmtA.pack (0x10 + w.toBits.setWidth 6) ⟨4, d, a, b, q, l, m, e, false⟩
def encVmaxI (w : Wid3) (d a b : BitVec 5) (q : BitVec 3) (l m e : Bool) : BitVec 32 :=
  FmtA.pack (0x10 + w.toBits.setWidth 6) ⟨5, d, a, b, q, l, m, e, false⟩
def encVmaxN (w : Wid3) (d a b : BitVec 5) (q : BitVec 3) (l m e : Bool) : BitVec 32 :=
  FmtA.pack (0x10 + w.toBits.setWidth 6) ⟨6, d, a, b, q, l, m, e, false⟩
def encVabsdI (w : Wid3) (d a b : BitVec 5) (q : BitVec 3) (l m e : Bool) : BitVec 32 :=
  FmtA.pack (0x10 + w.toBits.setWidth 6) ⟨7, d, a, b, q, l, m, e, false⟩
def encVabsdN (w : Wid3) (d a b : BitVec 5) (q : BitVec 3) (l m e : Bool) : BitVec 32 :=
  FmtA.pack (0x10 + w.toBits.setWidth 6) ⟨8, d, a, b, q, l, m, e, false⟩
def encVavgI (w : Wid3) (d a b : BitVec 5) (q : BitVec 3) (l m e : Bool) : BitVec 32 :=
  FmtA.pack (0x10 + w.toBits.setWidth 6) ⟨9, d, a, b, q, l, m, e, false⟩
def encVavgN (w : Wid3) (d a b : BitVec 5) (q : BitVec 3) (l m e : Bool) : BitVec 32 :=
  FmtA.pack (0x10 + w.toBits.setWidth 6) ⟨10, d, a, b, q, l, m, e, false⟩
def encVshl (w : Wid3) (d a b : BitVec 5) (q : BitVec 3) (l m e x : Bool) : BitVec 32 :=
  FmtA.pack (0x10 + w.toBits.setWidth 6) ⟨11, d, a, b, q, l, m, e, x⟩
def encVshrI (w : Wid3) (d a b : BitVec 5) (q : BitVec 3) (l m e : Bool) : BitVec 32 :=
  FmtA.pack (0x10 + w.toBits.setWidth 6) ⟨12, d, a, b, q, l, m, e, false⟩
def encVshrN (w : Wid3) (d a b : BitVec 5) (q : BitVec 3) (l m e : Bool) : BitVec 32 :=
  FmtA.pack (0x10 + w.toBits.setWidth 6) ⟨13, d, a, b, q, l, m, e, false⟩
def encVneg (w : Wid3) (d a : BitVec 5) (q : BitVec 3) (l e x : Bool) : BitVec 32 :=
  FmtA.pack (0x10 + w.toBits.setWidth 6) ⟨14, d, a, 0, q, l, false, e, x⟩
def encVabs (w : Wid3) (d a : BitVec 5) (q : BitVec 3) (l e x : Bool) : BitVec 32 :=
  FmtA.pack (0x10 + w.toBits.setWidth 6) ⟨15, d, a, 0, q, l, false, e, x⟩
def encVaddI64 (d a b : BitVec 5) (q : BitVec 3) (l m e x : Bool) : BitVec 32 :=
  FmtA.pack 0x13 ⟨0, d, a, b, q, l, m, e, x⟩
def encVsubI64 (d a b : BitVec 5) (q : BitVec 3) (l m e x : Bool) : BitVec 32 :=
  FmtA.pack 0x13 ⟨1, d, a, b, q, l, m, e, x⟩
def encVmulI64 (d a b : BitVec 5) (q : BitVec 3) (l m e x : Bool) : BitVec 32 :=
  FmtA.pack 0x13 ⟨2, d, a, b, q, l, m, e, x⟩
def encVminI64 (d a b : BitVec 5) (q : BitVec 3) (l m e : Bool) : BitVec 32 :=
  FmtA.pack 0x13 ⟨3, d, a, b, q, l, m, e, false⟩
def encVminN64 (d a b : BitVec 5) (q : BitVec 3) (l m e : Bool) : BitVec 32 :=
  FmtA.pack 0x13 ⟨4, d, a, b, q, l, m, e, false⟩
def encVmaxI64 (d a b : BitVec 5) (q : BitVec 3) (l m e : Bool) : BitVec 32 :=
  FmtA.pack 0x13 ⟨5, d, a, b, q, l, m, e, false⟩
def encVmaxN64 (d a b : BitVec 5) (q : BitVec 3) (l m e : Bool) : BitVec 32 :=
  FmtA.pack 0x13 ⟨6, d, a, b, q, l, m, e, false⟩
def encVshlI64 (d a b : BitVec 5) (q : BitVec 3) (l m e x : Bool) : BitVec 32 :=
  FmtA.pack 0x13 ⟨7, d, a, b, q, l, m, e, x⟩
def encVshrI64 (d a b : BitVec 5) (q : BitVec 3) (l m e : Bool) : BitVec 32 :=
  FmtA.pack 0x13 ⟨8, d, a, b, q, l, m, e, false⟩
def encVshrN64 (d a b : BitVec 5) (q : BitVec 3) (l m e : Bool) : BitVec 32 :=
  FmtA.pack 0x13 ⟨9, d, a, b, q, l, m, e, false⟩
def encVand (d a b : BitVec 5) (q : BitVec 3) (l m e : Bool) : BitVec 32 :=
  FmtA.pack 0x13 ⟨10, d, a, b, q, l, m, e, false⟩
def encVor (d a b : BitVec 5) (q : BitVec 3) (l m e : Bool) : BitVec 32 :=
  FmtA.pack 0x13 ⟨11, d, a, b, q, l, m, e, false⟩
def encVxor (d a b : BitVec 5) (q : BitVec 3) (l m e : Bool) : BitVec 32 :=
  FmtA.pack 0x13 ⟨12, d, a, b, q, l, m, e, false⟩
def encVandn (d a b : BitVec 5) (q : BitVec 3) (l m e : Bool) : BitVec 32 :=
  FmtA.pack 0x13 ⟨13, d, a, b, q, l, m, e, false⟩
def encVnot (d a : BitVec 5) (q : BitVec 3) (l e : Bool) : BitVec 32 :=
  FmtA.pack 0x13 ⟨14, d, a, 0, q, l, false, e, false⟩
def encVpopc (d a : BitVec 5) (q : BitVec 3) (l e : Bool) : BitVec 32 :=
  FmtA.pack 0x13 ⟨15, d, a, 0, q, l, false, e, false⟩
def encVaddi (w : Wid4) (d a : BitVec 5) (q : BitVec 3) (l : Bool) (i : BitVec 8) : BitVec 32 :=
  FmtIV.pack 0x14 ⟨((w.toBits.setWidth 4 <<< 2)), d, a, q, l, i⟩
def encVshli (w : Wid4) (d a : BitVec 5) (q : BitVec 3) (l : Bool) (i : BitVec 8) : BitVec 32 :=
  FmtIV.pack 0x14 ⟨(1 + (w.toBits.setWidth 4 <<< 2)), d, a, q, l, i⟩
def encVshriI (w : Wid4) (d a : BitVec 5) (q : BitVec 3) (l : Bool) (i : BitVec 8) : BitVec 32 :=
  FmtIV.pack 0x14 ⟨(2 + (w.toBits.setWidth 4 <<< 2)), d, a, q, l, i⟩
def encVshriN (w : Wid4) (d a : BitVec 5) (q : BitVec 3) (l : Bool) (i : BitVec 8) : BitVec 32 :=
  FmtIV.pack 0x14 ⟨(3 + (w.toBits.setWidth 4 <<< 2)), d, a, q, l, i⟩
def encVceq (w : Wid4) (d : PReg) (a b : BitVec 5) (q : BitVec 3) (l m e x : Bool) : BitVec 32 :=
  FmtA.pack 0x15 ⟨((w.toBits.setWidth 4 <<< 2)), (d.setWidth 5), a, b, q, l, m, e, x⟩
def encVcne (w : Wid4) (d : PReg) (a b : BitVec 5) (q : BitVec 3) (l m e x : Bool) : BitVec 32 :=
  FmtA.pack 0x15 ⟨(1 + (w.toBits.setWidth 4 <<< 2)), (d.setWidth 5), a, b, q, l, m, e, x⟩
def encVclt (w : Wid4) (d : PReg) (a b : BitVec 5) (q : BitVec 3) (l m e x : Bool) : BitVec 32 :=
  FmtA.pack 0x15 ⟨(2 + (w.toBits.setWidth 4 <<< 2)), (d.setWidth 5), a, b, q, l, m, e, x⟩
def encVcle (w : Wid4) (d : PReg) (a b : BitVec 5) (q : BitVec 3) (l m e x : Bool) : BitVec 32 :=
  FmtA.pack 0x15 ⟨(3 + (w.toBits.setWidth 4 <<< 2)), (d.setWidth 5), a, b, q, l, m, e, x⟩
def encVdot4I8 (d a b : BitVec 5) (q : BitVec 3) (l m e x : Bool) : BitVec 32 :=
  FmtA.pack 0x16 ⟨0, d, a, b, q, l, m, e, x⟩
def encVdot4N8 (d a b : BitVec 5) (q : BitVec 3) (l m e x : Bool) : BitVec 32 :=
  FmtA.pack 0x16 ⟨1, d, a, b, q, l, m, e, x⟩
def encVdot2I16 (d a b : BitVec 5) (q : BitVec 3) (l m e x : Bool) : BitVec 32 :=
  FmtA.pack 0x16 ⟨2, d, a, b, q, l, m, e, x⟩
def encVdot2N16 (d a b : BitVec 5) (q : BitVec 3) (l m e x : Bool) : BitVec 32 :=
  FmtA.pack 0x16 ⟨3, d, a, b, q, l, m, e, x⟩
def encVmadI16 (d a b : BitVec 5) (q : BitVec 3) (l m e x : Bool) : BitVec 32 :=
  FmtA.pack 0x16 ⟨4, d, a, b, q, l, m, e, x⟩
def encVmadI32 (d a b : BitVec 5) (q : BitVec 3) (l m e x : Bool) : BitVec 32 :=
  FmtA.pack 0x16 ⟨5, d, a, b, q, l, m, e, x⟩
def encVmadI64 (d a b : BitVec 5) (q : BitVec 3) (l m e x : Bool) : BitVec 32 :=
  FmtA.pack 0x16 ⟨6, d, a, b, q, l, m, e, x⟩
def encVaddminI16 (d a b : BitVec 5) (q : BitVec 3) (l m e x : Bool) : BitVec 32 :=
  FmtA.pack 0x17 ⟨0, d, a, b, q, l, m, e, x⟩
def encVaddmaxI16 (d a b : BitVec 5) (q : BitVec 3) (l m e x : Bool) : BitVec 32 :=
  FmtA.pack 0x17 ⟨1, d, a, b, q, l, m, e, x⟩
def encVaddminI32 (d a b : BitVec 5) (q : BitVec 3) (l m e x : Bool) : BitVec 32 :=
  FmtA.pack 0x17 ⟨2, d, a, b, q, l, m, e, x⟩
def encVaddmaxI32 (d a b : BitVec 5) (q : BitVec 3) (l m e x : Bool) : BitVec 32 :=
  FmtA.pack 0x17 ⟨3, d, a, b, q, l, m, e, x⟩
def encVaddminF32 (d a b : BitVec 5) (q : BitVec 3) (l m e : Bool) : BitVec 32 :=
  FmtA.pack 0x17 ⟨4, d, a, b, q, l, m, e, false⟩
def encVaddmaxF32 (d a b : BitVec 5) (q : BitVec 3) (l m e : Bool) : BitVec 32 :=
  FmtA.pack 0x17 ⟨5, d, a, b, q, l, m, e, false⟩
def encVsel (d a b : BitVec 5) (q : BitVec 3) (l m e : Bool) : BitVec 32 :=
  FmtA.pack 0x17 ⟨6, d, a, b, q, l, m, e, false⟩
def encVaddF32 (r : Rm) (d a b : BitVec 5) (q : BitVec 3) (l m e : Bool) : BitVec 32 :=
  FmtA.pack 0x18 ⟨(r.toBits.setWidth 4), d, a, b, q, l, m, e, false⟩
def encVsubF32 (r : Rm) (d a b : BitVec 5) (q : BitVec 3) (l m e : Bool) : BitVec 32 :=
  FmtA.pack 0x18 ⟨(r.toBits.setWidth 4), d, a, b, q, l, m, e, true⟩
def encVmulF32 (r : Rm) (d a b : BitVec 5) (q : BitVec 3) (l m e : Bool) : BitVec 32 :=
  FmtA.pack 0x18 ⟨(4 + r.toBits.setWidth 4), d, a, b, q, l, m, e, false⟩
def encVdivF32 (r : Rm) (d a b : BitVec 5) (q : BitVec 3) (l m e : Bool) : BitVec 32 :=
  FmtA.pack 0x18 ⟨(8 + r.toBits.setWidth 4), d, a, b, q, l, m, e, false⟩
def encVsqrtF32 (r : Rm) (d a : BitVec 5) (q : BitVec 3) (l e : Bool) : BitVec 32 :=
  FmtA.pack 0x18 ⟨(8 + r.toBits.setWidth 4), d, a, 0, q, l, false, e, true⟩
def encVminF32 (d a b : BitVec 5) (q : BitVec 3) (l m e : Bool) : BitVec 32 :=
  FmtA.pack 0x18 ⟨12, d, a, b, q, l, m, e, false⟩
def encVmaxF32 (d a b : BitVec 5) (q : BitVec 3) (l m e : Bool) : BitVec 32 :=
  FmtA.pack 0x18 ⟨13, d, a, b, q, l, m, e, false⟩
def encVfcltF32 (d : PReg) (a b : BitVec 5) (q : BitVec 3) (l m e : Bool) : BitVec 32 :=
  FmtA.pack 0x18 ⟨14, (d.setWidth 5), a, b, q, l, m, e, false⟩
def encVfcleF32 (d : PReg) (a b : BitVec 5) (q : BitVec 3) (l m e : Bool) : BitVec 32 :=
  FmtA.pack 0x18 ⟨14, (d.setWidth 5), a, b, q, l, m, e, true⟩
def encVfceqF32 (d : PReg) (a b : BitVec 5) (q : BitVec 3) (l m e : Bool) : BitVec 32 :=
  FmtA.pack 0x18 ⟨15, (d.setWidth 5), a, b, q, l, m, e, false⟩
def encVfmaF32 (r : Rm) (d a b : BitVec 5) (q : BitVec 3) (l m e x : Bool) : BitVec 32 :=
  FmtA.pack 0x19 ⟨(r.toBits.setWidth 4), d, a, b, q, l, m, e, x⟩
def encVfmsF32 (r : Rm) (d a b : BitVec 5) (q : BitVec 3) (l m e x : Bool) : BitVec 32 :=
  FmtA.pack 0x19 ⟨(4 + r.toBits.setWidth 4), d, a, b, q, l, m, e, x⟩
def encVfmaw (r : Rm) (d a b : BitVec 5) (q : BitVec 3) (l m e x : Bool) : BitVec 32 :=
  FmtA.pack 0x19 ⟨(8 + r.toBits.setWidth 4), d, a, b, q, l, m, e, x⟩
def encVaddHalf (t : Half) (r : Rm) (d a b : BitVec 5) (q : BitVec 3) (l m e : Bool) : BitVec 32 :=
  FmtA.pack (0x1A + t.toBits.setWidth 6) ⟨(r.toBits.setWidth 4), d, a, b, q, l, m, e, false⟩
def encVsubHalf (t : Half) (r : Rm) (d a b : BitVec 5) (q : BitVec 3) (l m e : Bool) : BitVec 32 :=
  FmtA.pack (0x1A + t.toBits.setWidth 6) ⟨(r.toBits.setWidth 4), d, a, b, q, l, m, e, true⟩
def encVmulHalf (t : Half) (r : Rm) (d a b : BitVec 5) (q : BitVec 3) (l m e : Bool) : BitVec 32 :=
  FmtA.pack (0x1A + t.toBits.setWidth 6) ⟨(4 + r.toBits.setWidth 4), d, a, b, q, l, m, e, false⟩
def encVfmaHalf (t : Half) (r : Rm) (d a b : BitVec 5) (q : BitVec 3) (l m e : Bool) : BitVec 32 :=
  FmtA.pack (0x1A + t.toBits.setWidth 6) ⟨(8 + r.toBits.setWidth 4), d, a, b, q, l, m, e, false⟩
def encVfnmaHalf (t : Half) (r : Rm) (d a b : BitVec 5) (q : BitVec 3) (l m e : Bool) : BitVec 32 :=
  FmtA.pack (0x1A + t.toBits.setWidth 6) ⟨(8 + r.toBits.setWidth 4), d, a, b, q, l, m, e, true⟩
def encVminHalf (t : Half) (d a b : BitVec 5) (q : BitVec 3) (l m e : Bool) : BitVec 32 :=
  FmtA.pack (0x1A + t.toBits.setWidth 6) ⟨12, d, a, b, q, l, m, e, false⟩
def encVmaxHalf (t : Half) (d a b : BitVec 5) (q : BitVec 3) (l m e : Bool) : BitVec 32 :=
  FmtA.pack (0x1A + t.toBits.setWidth 6) ⟨13, d, a, b, q, l, m, e, false⟩
def encVfcltHalf (t : Half) (d : PReg) (a b : BitVec 5) (q : BitVec 3) (l m e : Bool) : BitVec 32 :=
  FmtA.pack (0x1A + t.toBits.setWidth 6) ⟨14, (d.setWidth 5), a, b, q, l, m, e, false⟩
def encVfcleHalf (t : Half) (d : PReg) (a b : BitVec 5) (q : BitVec 3) (l m e : Bool) : BitVec 32 :=
  FmtA.pack (0x1A + t.toBits.setWidth 6) ⟨14, (d.setWidth 5), a, b, q, l, m, e, true⟩
def encVfceqHalf (t : Half) (d : PReg) (a b : BitVec 5) (q : BitVec 3) (l m e : Bool) : BitVec 32 :=
  FmtA.pack (0x1A + t.toBits.setWidth 6) ⟨15, (d.setWidth 5), a, b, q, l, m, e, false⟩
def encVcvt (t : NumTy) (d a : BitVec 5) (s : NumTy) (q : BitVec 3) (l : Bool) (r : Rm) (x : Bool) : BitVec 32 :=
  FmtC.pack 0x1C ⟨t.toBits, d, a, s.toBits, false, q, l, r.toBits, x⟩
def encVqpack (r : Rm) (d a : BitVec 5) (p : PackForm) (q : BitVec 3) (l e x : Bool) : BitVec 32 :=
  FmtA.pack 0x1D ⟨(r.toBits.setWidth 4), d, a, p.toBits, q, l, false, e, x⟩
def encVqunpack (r : Rm) (d a : BitVec 5) (p : PackForm) (q : BitVec 3) (l e x : Bool) : BitVec 32 :=
  FmtA.pack 0x1D ⟨(4 + r.toBits.setWidth 4), d, a, p.toBits, q, l, false, e, x⟩
def encVqscale (r : Rm) (d a b : BitVec 5) (q : BitVec 3) (l m e : Bool) : BitVec 32 :=
  FmtA.pack 0x1D ⟨(8 + r.toBits.setWidth 4), d, a, b, q, l, m, e, false⟩
def encVrcp (d a : BitVec 5) (q : BitVec 3) (l e : Bool) : BitVec 32 :=
  FmtA.pack 0x1E ⟨0, d, a, 0, q, l, false, e, false⟩
def encVrsqrt (d a : BitVec 5) (q : BitVec 3) (l e : Bool) : BitVec 32 :=
  FmtA.pack 0x1E ⟨1, d, a, 0, q, l, false, e, false⟩
def encVsqrtSfu (d a : BitVec 5) (q : BitVec 3) (l e : Bool) : BitVec 32 :=
  FmtA.pack 0x1E ⟨2, d, a, 0, q, l, false, e, false⟩
def encVexp2 (d a : BitVec 5) (q : BitVec 3) (l e : Bool) : BitVec 32 :=
  FmtA.pack 0x1E ⟨3, d, a, 0, q, l, false, e, false⟩
def encVlog2 (d a : BitVec 5) (q : BitVec 3) (l e : Bool) : BitVec 32 :=
  FmtA.pack 0x1E ⟨4, d, a, 0, q, l, false, e, false⟩
def encVsin (d a : BitVec 5) (q : BitVec 3) (l e : Bool) : BitVec 32 :=
  FmtA.pack 0x1E ⟨5, d, a, 0, q, l, false, e, false⟩
def encVcos (d a : BitVec 5) (q : BitVec 3) (l e : Bool) : BitVec 32 :=
  FmtA.pack 0x1E ⟨6, d, a, 0, q, l, false, e, false⟩
def encVtanh (d a : BitVec 5) (q : BitVec 3) (l e : Bool) : BitVec 32 :=
  FmtA.pack 0x1E ⟨7, d, a, 0, q, l, false, e, false⟩
def encVsigm (d a : BitVec 5) (q : BitVec 3) (l e : Bool) : BitVec 32 :=
  FmtA.pack 0x1E ⟨8, d, a, 0, q, l, false, e, false⟩
def encVerf (d a : BitVec 5) (q : BitVec 3) (l e : Bool) : BitVec 32 :=
  FmtA.pack 0x1E ⟨9, d, a, 0, q, l, false, e, false⟩
def encVcmulF32 (d a b : BitVec 5) (q : BitVec 3) (l m e : Bool) : BitVec 32 :=
  FmtA.pack 0x1F ⟨0, d, a, b, q, l, m, e, false⟩
def encVcmulcF32 (d a b : BitVec 5) (q : BitVec 3) (l m e : Bool) : BitVec 32 :=
  FmtA.pack 0x1F ⟨1, d, a, b, q, l, m, e, false⟩
def encVcmulBf16 (d a b : BitVec 5) (q : BitVec 3) (l m e : Bool) : BitVec 32 :=
  FmtA.pack 0x1F ⟨2, d, a, b, q, l, m, e, false⟩
def encVbflyF32 (d a b : BitVec 5) (q : BitVec 3) (l m e : Bool) : BitVec 32 :=
  FmtA.pack 0x1F ⟨3, d, a, b, q, l, m, e, false⟩
def encVbflyBf16 (d a b : BitVec 5) (q : BitVec 3) (l m e : Bool) : BitVec 32 :=
  FmtA.pack 0x1F ⟨4, d, a, b, q, l, m, e, false⟩
def encVlread (d a b : BitVec 5) (q : BitVec 3) (l m e : Bool) : BitVec 32 :=
  FmtA.pack 0x20 ⟨0, d, a, b, q, l, m, e, false⟩
def encVshlx (d a b : BitVec 5) (q : BitVec 3) (l m e : Bool) : BitVec 32 :=
  FmtA.pack 0x20 ⟨1, d, a, b, q, l, m, e, false⟩
def encVshrx (d a b : BitVec 5) (q : BitVec 3) (l m e : Bool) : BitVec 32 :=
  FmtA.pack 0x20 ⟨2, d, a, b, q, l, m, e, false⟩
def encVshly (d a b : BitVec 5) (q : BitVec 3) (l m e : Bool) : BitVec 32 :=
  FmtA.pack 0x20 ⟨3, d, a, b, q, l, m, e, false⟩
def encVshry (d a b : BitVec 5) (q : BitVec 3) (l m e : Bool) : BitVec 32 :=
  FmtA.pack 0x20 ⟨4, d, a, b, q, l, m, e, false⟩
def encVsubsel (d a b : BitVec 5) (q : BitVec 3) (l m e : Bool) : BitVec 32 :=
  FmtA.pack 0x20 ⟨5, d, a, b, q, l, m, e, false⟩
def encVrotx (d a b : BitVec 5) (q : BitVec 3) (l m e : Bool) : BitVec 32 :=
  FmtA.pack 0x20 ⟨6, d, a, b, q, l, m, e, false⟩
def encVmatch (d a : BitVec 5) (k : KeyTy) (q : BitVec 3) (l e : Bool) : BitVec 32 :=
  FmtA.pack 0x21 ⟨0, d, a, k.toBits, q, l, false, e, false⟩
def encVballot (d : BitVec 5) (a : PReg) (q : BitVec 3) : BitVec 32 :=
  FmtA.pack 0x21 ⟨1, d, (a.setWidth 5), 0, q, false, false, false, false⟩
def encVredaddI64 (d a : BitVec 5) (q : BitVec 3) (l e : Bool) : BitVec 32 :=
  FmtA.pack 0x21 ⟨2, d, a, 0, q, l, false, e, false⟩
def encVredaddF32 (d a : BitVec 5) (q : BitVec 3) (l e : Bool) : BitVec 32 :=
  FmtA.pack 0x21 ⟨3, d, a, 0, q, l, false, e, false⟩
def encVredminI64 (d a : BitVec 5) (q : BitVec 3) (l e : Bool) : BitVec 32 :=
  FmtA.pack 0x21 ⟨4, d, a, 0, q, l, false, e, false⟩
def encVredmaxI64 (d a : BitVec 5) (q : BitVec 3) (l e : Bool) : BitVec 32 :=
  FmtA.pack 0x21 ⟨5, d, a, 0, q, l, false, e, false⟩
def encVredminF32 (d a : BitVec 5) (q : BitVec 3) (l e : Bool) : BitVec 32 :=
  FmtA.pack 0x21 ⟨6, d, a, 0, q, l, false, e, false⟩
def encVredmaxF32 (d a : BitVec 5) (q : BitVec 3) (l e : Bool) : BitVec 32 :=
  FmtA.pack 0x21 ⟨7, d, a, 0, q, l, false, e, false⟩
def encVscanaddI64 (d a : BitVec 5) (q : BitVec 3) (l e : Bool) : BitVec 32 :=
  FmtA.pack 0x21 ⟨8, d, a, 0, q, l, false, e, false⟩
def encVscanaddF32 (d a : BitVec 5) (q : BitVec 3) (l e : Bool) : BitVec 32 :=
  FmtA.pack 0x21 ⟨9, d, a, 0, q, l, false, e, false⟩
def encVscanmaxI64 (d a : BitVec 5) (q : BitVec 3) (l e : Bool) : BitVec 32 :=
  FmtA.pack 0x21 ⟨10, d, a, 0, q, l, false, e, false⟩
def encVpcount (d : BitVec 5) (a : PReg) (q : BitVec 3) : BitVec 32 :=
  FmtA.pack 0x21 ⟨11, d, (a.setWidth 5), 0, q, false, false, false, false⟩
def encVmov (d a : BitVec 5) (q : BitVec 3) (l e : Bool) : BitVec 32 :=
  FmtA.pack 0x22 ⟨0, d, a, 0, q, l, false, e, false⟩
def encVbcast (d a : BitVec 5) (q : BitVec 3) (l e : Bool) : BitVec 32 :=
  FmtA.pack 0x22 ⟨1, d, a, 0, q, l, false, e, false⟩
def encVextr (d a b : BitVec 5) (l m e : Bool) : BitVec 32 :=
  FmtA.pack 0x22 ⟨2, d, a, b, 0, l, m, e, false⟩
def encVmovi (d : BitVec 5) (q : BitVec 3) (i : BitVec 8) : BitVec 32 :=
  FmtIV.pack 0x22 ⟨3, d, 0, q, false, i⟩
def encPld (d : BitVec 5) (h j : BitVec 3) (z : BitVec 7) (q : BitVec 3) (l : Bool) : BitVec 32 :=
  FmtWin.pack 0x24 ⟨0, d, h, j, z, q, l⟩
def encPst (d : BitVec 5) (z : BitVec 7) (q : BitVec 3) (l : Bool) : BitVec 32 :=
  FmtWin.pack 0x24 ⟨1, d, 0, 0, z, q, l⟩
def encPwinSumI32 (d : BitVec 5) (k : BitVec 3) (z : BitVec 7) (q : BitVec 3) (l : Bool) : BitVec 32 :=
  FmtWin.pack 0x24 ⟨2, d, k, 0, z, q, l⟩
def encPwinSumF32 (d : BitVec 5) (k : BitVec 3) (z : BitVec 7) (q : BitVec 3) (l : Bool) : BitVec 32 :=
  FmtWin.pack 0x24 ⟨3, d, k, 0, z, q, l⟩
def encPwinMaxI32 (d : BitVec 5) (k : BitVec 3) (z : BitVec 7) (q : BitVec 3) (l : Bool) : BitVec 32 :=
  FmtWin.pack 0x24 ⟨4, d, k, 0, z, q, l⟩
def encPwinMaxF32 (d : BitVec 5) (k : BitVec 3) (z : BitVec 7) (q : BitVec 3) (l : Bool) : BitVec 32 :=
  FmtWin.pack 0x24 ⟨5, d, k, 0, z, q, l⟩
def encPwinMinI32 (d : BitVec 5) (k : BitVec 3) (z : BitVec 7) (q : BitVec 3) (l : Bool) : BitVec 32 :=
  FmtWin.pack 0x24 ⟨6, d, k, 0, z, q, l⟩
def encPwinMinF32 (d : BitVec 5) (k : BitVec 3) (z : BitVec 7) (q : BitVec 3) (l : Bool) : BitVec 32 :=
  FmtWin.pack 0x24 ⟨7, d, k, 0, z, q, l⟩
def encScroll (h : BitVec 5) (d : BitVec 4) (r : Dir) (e : Edge) (s : BitVec 5) : BitVec 32 :=
  FmtScr.pack 0x25 ⟨0, h, d, r.toBits, e.toBits, s, 0⟩
def encScrollResume (h : BitVec 5) (d : BitVec 4) (r : Dir) (e : Edge) (s : BitVec 5) : BitVec 32 :=
  FmtScr.pack 0x25 ⟨1, h, d, r.toBits, e.toBits, s, 0⟩
def encPzero (a : BitVec 5) (l e : Bool) : BitVec 32 :=
  FmtA.pack 0x26 ⟨0, 0, a, 0, 0, l, false, e, false⟩
def encPfill (a b : BitVec 5) (l m e : Bool) : BitVec 32 :=
  FmtA.pack 0x26 ⟨1, 0, a, b, 0, l, m, e, false⟩
def encPcopy (a b : BitVec 5) (l m e : Bool) : BitVec 32 :=
  FmtA.pack 0x26 ⟨2, 0, a, b, 0, l, m, e, false⟩
def encPhnd (d a b : BitVec 5) (l m e : Bool) : BitVec 32 :=
  FmtA.pack 0x26 ⟨3, d, a, b, 0, l, m, e, false⟩
def encPclip (d a b : BitVec 5) (l m e : Bool) : BitVec 32 :=
  FmtA.pack 0x26 ⟨4, d, a, b, 0, l, m, e, false⟩
def encVgather (k : Bool) (w : Wid4) (d b i : BitVec 5) (q : BitVec 3) (l v : Bool) (s : Sc) : BitVec 32 :=
  FmtM.pack 0x28 ⟨(((BitVec.ofBool k).setWidth 4 <<< 3) + w.toBits.setWidth 4), d, b, i, q, l, v, s.toBits⟩
def encVscatter (k : Bool) (w : Wid4) (d b i : BitVec 5) (q : BitVec 3) (l v : Bool) (s : Sc) : BitVec 32 :=
  FmtM.pack 0x29 ⟨(((BitVec.ofBool k).setWidth 4 <<< 3) + w.toBits.setWidth 4), d, b, i, q, l, v, s.toBits⟩
def encLd (k : Bool) (w : Wid4) (d b i : BitVec 5) (l v : Bool) (s : Sc) : BitVec 32 :=
  FmtM.pack 0x2A ⟨(((BitVec.ofBool k).setWidth 4 <<< 3) + w.toBits.setWidth 4), d, b, i, 0, l, v, s.toBits⟩
def encSt (k : Bool) (w : Wid4) (d b i : BitVec 5) (l v : Bool) (s : Sc) : BitVec 32 :=
  FmtM.pack 0x2A ⟨(4 + ((BitVec.ofBool k).setWidth 4 <<< 3) + w.toBits.setWidth 4), d, b, i, 0, l, v, s.toBits⟩
def encTld (d b i : BitVec 5) (v : Bool) (s : Sc) : BitVec 32 :=
  FmtM.pack 0x2B ⟨0, d, b, i, 0, false, v, s.toBits⟩
def encTst (d b i : BitVec 5) (l v : Bool) (s : Sc) : BitVec 32 :=
  FmtM.pack 0x2B ⟨1, d, b, i, 0, l, v, s.toBits⟩
def encLflush (b : BitVec 5) : BitVec 32 :=
  FmtM.pack 0x2B ⟨2, 0, b, 0, 0, false, false, 0⟩
def encAadd (d b i : BitVec 5) (l v : Bool) (s : Sc) : BitVec 32 :=
  FmtM.pack 0x2C ⟨0, d, b, i, 0, l, v, s.toBits⟩
def encAand (d b i : BitVec 5) (l v : Bool) (s : Sc) : BitVec 32 :=
  FmtM.pack 0x2C ⟨1, d, b, i, 0, l, v, s.toBits⟩
def encAor (d b i : BitVec 5) (l v : Bool) (s : Sc) : BitVec 32 :=
  FmtM.pack 0x2C ⟨2, d, b, i, 0, l, v, s.toBits⟩
def encAxor (d b i : BitVec 5) (l v : Bool) (s : Sc) : BitVec 32 :=
  FmtM.pack 0x2C ⟨3, d, b, i, 0, l, v, s.toBits⟩
def encAminI (d b i : BitVec 5) (l v : Bool) (s : Sc) : BitVec 32 :=
  FmtM.pack 0x2C ⟨4, d, b, i, 0, l, v, s.toBits⟩
def encAminN (d b i : BitVec 5) (l v : Bool) (s : Sc) : BitVec 32 :=
  FmtM.pack 0x2C ⟨5, d, b, i, 0, l, v, s.toBits⟩
def encAmaxI (d b i : BitVec 5) (l v : Bool) (s : Sc) : BitVec 32 :=
  FmtM.pack 0x2C ⟨6, d, b, i, 0, l, v, s.toBits⟩
def encAmaxN (d b i : BitVec 5) (l v : Bool) (s : Sc) : BitVec 32 :=
  FmtM.pack 0x2C ⟨7, d, b, i, 0, l, v, s.toBits⟩
def encAswap (d b i : BitVec 5) (l v : Bool) (s : Sc) : BitVec 32 :=
  FmtM.pack 0x2C ⟨8, d, b, i, 0, l, v, s.toBits⟩
def encAcas (d b i : BitVec 5) (l v : Bool) (s : Sc) : BitVec 32 :=
  FmtM.pack 0x2C ⟨9, d, b, i, 0, l, v, s.toBits⟩
def encAaddf (d b i : BitVec 5) (v : Bool) (s : Sc) : BitVec 32 :=
  FmtM.pack 0x2C ⟨10, d, b, i, 0, true, v, s.toBits⟩
def encLds (k : Bool) (w : Wid4) (d b i : BitVec 5) (q : BitVec 3) (l : Bool) : BitVec 32 :=
  FmtM.pack 0x2D ⟨(((BitVec.ofBool k).setWidth 4 <<< 3) + w.toBits.setWidth 4), d, b, i, q, l, false, 0⟩
def encSts (k : Bool) (w : Wid4) (d b i : BitVec 5) (q : BitVec 3) (l : Bool) : BitVec 32 :=
  FmtM.pack 0x2D ⟨(4 + ((BitVec.ofBool k).setWidth 4 <<< 3) + w.toBits.setWidth 4), d, b, i, q, l, false, 0⟩
def encPfc (b i : BitVec 5) : BitVec 32 :=
  FmtM.pack 0x2E ⟨0, 0, b, i, 0, false, false, 0⟩
def encPfd (b i : BitVec 5) : BitVec 32 :=
  FmtM.pack 0x2E ⟨1, 0, b, i, 0, false, false, 0⟩
def encCwb (b i : BitVec 5) : BitVec 32 :=
  FmtM.pack 0x2E ⟨2, 0, b, i, 0, false, false, 0⟩
def encCinv (b i : BitVec 5) : BitVec 32 :=
  FmtM.pack 0x2E ⟨3, 0, b, i, 0, false, false, 0⟩
def encCwbinv (b i : BitVec 5) : BitVec 32 :=
  FmtM.pack 0x2E ⟨4, 0, b, i, 0, false, false, 0⟩
def encCpyGp (a : BitVec 5) (t : BitVec 6) (c : BitVec 5) : BitVec 32 :=
  FmtCmd.pack 0x30 ⟨0, a, t, c, 0⟩
def encCpyPg (a : BitVec 5) (t : BitVec 6) (c : BitVec 5) : BitVec 32 :=
  FmtCmd.pack 0x30 ⟨1, a, t, c, 0⟩
def encCpyPp (a : BitVec 5) (t : BitVec 6) (c : BitVec 5) : BitVec 32 :=
  FmtCmd.pack 0x30 ⟨2, a, t, c, 0⟩
def encCpyGg (a : BitVec 5) (t : BitVec 6) (c : BitVec 5) : BitVec 32 :=
  FmtCmd.pack 0x30 ⟨3, a, t, c, 0⟩
def encWaitAny (d a : BitVec 5) : BitVec 32 :=
  FmtTag.pack 0x31 ⟨0, d, a, 0⟩
def encWaitAll (d a : BitVec 5) : BitVec 32 :=
  FmtTag.pack 0x31 ⟨1, d, a, 0⟩
def encTagfind (d a : BitVec 5) : BitVec 32 :=
  FmtTag.pack 0x31 ⟨2, d, a, 0⟩
def encTagclr (a : BitVec 5) : BitVec 32 :=
  FmtTag.pack 0x31 ⟨3, 0, a, 0⟩
def encNmv (a : BitVec 5) (t : BitVec 6) (c : BitVec 5) : BitVec 32 :=
  FmtCmd.pack 0x32 ⟨0, a, t, c, 0⟩
def encNmrd (a : BitVec 5) (t : BitVec 6) (c : BitVec 5) : BitVec 32 :=
  FmtCmd.pack 0x32 ⟨1, a, t, c, 0⟩
def encNmwr (a : BitVec 5) (t : BitVec 6) (c : BitVec 5) : BitVec 32 :=
  FmtCmd.pack 0x32 ⟨2, a, t, c, 0⟩
def encNmwrm (a : BitVec 5) (t : BitVec 6) (c : BitVec 5) : BitVec 32 :=
  FmtCmd.pack 0x32 ⟨3, a, t, c, 0⟩
def encMma (a : BitVec 5) (s : BitVec 4) (m : MSel) (n : BitVec 6) (q : BitVec 3) (r c : Bool) : BitVec 32 :=
  FmtMma.pack 0x34 ⟨0, a, s, m.toBits, n, q, r, c⟩
def encAccz (s n : BitVec 4) (q : BitVec 3) : BitVec 32 :=
  FmtAcc.pack 0x35 ⟨0, 0, s, n, 0, 0, q, false⟩
def encAccld (h : BitVec 5) (s n : BitVec 4) (c : BitVec 3) (r : Rm) (q : BitVec 3) : BitVec 32 :=
  FmtAcc.pack 0x35 ⟨1, h, s, n, c, r.toBits, q, false⟩
def encAccrd (h : BitVec 5) (s n : BitVec 4) (c : BitVec 3) (r : Rm) (q : BitVec 3) : BitVec 32 :=
  FmtAcc.pack 0x35 ⟨2, h, s, n, c, r.toBits, q, false⟩
def encMfence : BitVec 32 :=
  FmtMq.pack 0x36 ⟨0, 0, 0, 0⟩
def encMwait (s : BitVec 4) : BitVec 32 :=
  FmtMq.pack 0x36 ⟨1, 0, s, 0⟩
def encBar (l : BitVec 3) : BitVec 32 :=
  FmtBar.pack 0x38 ⟨0, l, 0⟩
def encBarArrive (l : BitVec 3) : BitVec 32 :=
  FmtBar.pack 0x38 ⟨1, l, 0⟩
def encBarWait (l : BitVec 3) : BitVec 32 :=
  FmtBar.pack 0x38 ⟨2, l, 0⟩
def encFence (s : Scope) (k : FenceKind) : BitVec 32 :=
  FmtFen.pack 0x39 ⟨0, s.toBits, k.toBits, 0⟩
def encRingWait (g : BitVec 4) (s : BitVec 3) (p : Bool) : BitVec 32 :=
  FmtRng.pack 0x3A ⟨0, 0, g, s, p, 0⟩
def encRingSig (g : BitVec 4) (s : BitVec 3) : BitVec 32 :=
  FmtRng.pack 0x3A ⟨1, 0, g, s, false, 0⟩
def encRingTest (d : BitVec 5) (g : BitVec 4) (s : BitVec 3) (p : Bool) : BitVec 32 :=
  FmtRng.pack 0x3A ⟨2, d, g, s, p, 0⟩
def encSend (a e : BitVec 5) (l : Bool) : BitVec 32 :=
  FmtChn.pack 0x3B ⟨0, 0, a, e, l, 0⟩
def encRecv (d e : BitVec 5) : BitVec 32 :=
  FmtChn.pack 0x3B ⟨1, d, 0, e, false, 0⟩
def encTrysend (d a e : BitVec 5) (l : Bool) : BitVec 32 :=
  FmtChn.pack 0x3B ⟨2, d, a, e, l, 0⟩
def encChstat (d e : BitVec 5) : BitVec 32 :=
  FmtChn.pack 0x3B ⟨3, d, 0, e, false, 0⟩
def encAcqW (a : BitVec 5) (k : AcqKind) : BitVec 32 :=
  FmtAcq.pack 0x3C ⟨0, 0, a, k.toBits, 0⟩
def encAcqF (d a : BitVec 5) (k : AcqKind) : BitVec 32 :=
  FmtAcq.pack 0x3C ⟨1, d, a, k.toBits, 0⟩
def encRel (a : BitVec 5) (k : AcqKind) : BitVec 32 :=
  FmtAcq.pack 0x3C ⟨2, 0, a, k.toBits, 0⟩
def encSetperf (a : BitVec 5) : BitVec 32 :=
  FmtAcq.pack 0x3C ⟨3, 0, a, 0, 0⟩
def encSetperfV (a : BitVec 5) : BitVec 32 :=
  FmtAcq.pack 0x3C ⟨4, 0, a, 0, 0⟩
def encPdrop (a : BitVec 5) : BitVec 32 :=
  FmtAcq.pack 0x3C ⟨5, 0, a, 0, 0⟩
def encCtxrd (d a b : BitVec 5) : BitVec 32 :=
  FmtCtx.pack 0x3D ⟨0, d, a, b, 0⟩
def encCtxwr (d a b : BitVec 5) : BitVec 32 :=
  FmtCtx.pack 0x3D ⟨1, d, a, b, 0⟩
def encIdem : BitVec 32 :=
  FmtCtx.pack 0x3D ⟨2, 0, 0, 0, 0⟩
def encIdemEnd : BitVec 32 :=
  FmtCtx.pack 0x3D ⟨3, 0, 0, 0, 0⟩
def encTret (a b : BitVec 5) : BitVec 32 :=
  FmtCtx.pack 0x3D ⟨4, 0, a, b, 0⟩
def encVkill (d a : BitVec 5) : BitVec 32 :=
  FmtCtx.pack 0x3D ⟨5, d, a, 0, 0⟩
def encSkill (d a : BitVec 5) : BitVec 32 :=
  FmtCtx.pack 0x3D ⟨6, d, a, 0, 0⟩
def encSret (d a b : BitVec 5) : BitVec 32 :=
  FmtCtx.pack 0x3D ⟨8, d, a, b, 0⟩
def encGrpsusp (d a : BitVec 5) : BitVec 32 :=
  FmtCtx.pack 0x3D ⟨9, d, a, 0, 0⟩
def encGrpres (d a : BitVec 5) : BitVec 32 :=
  FmtCtx.pack 0x3D ⟨10, d, a, 0, 0⟩
def encAsgen (d a b : BitVec 5) : BitVec 32 :=
  FmtCtx.pack 0x3D ⟨11, d, a, b, 0⟩
def encRpt (n : BitVec 6) (d a b : Bool) (s : BitVec 2) : BitVec 32 :=
  FmtRpt.pack 0x3E ⟨n, d, a, b, s, 0⟩
def encWide (p : BitVec 24) : BitVec 32 :=
  FmtWide.pack 0x3F ⟨0, p⟩
def encMod (s : ModScope) (o : ModOrder) (c : ModCache) (t : Bool) : BitVec 32 :=
  FmtMod.pack 0x3F ⟨1, s.toBits, o.toBits, c.toBits, t, 0⟩
def encSched (y : Bool) (p : BitVec 2) (s : BitVec 16) : BitVec 32 :=
  FmtSch.pack 0x3F ⟨2, y, p, 0, s⟩

/-- The word of an instruction, from the same tables; a device event has none. -/
def encode : Instr → Option (BitVec 32)
  | .add d a b l m e x => some (encAdd d a b l m e x)
  | .sub d a b l m e x => some (encSub d a b l m e x)
  | .and d a b l m e x => some (encAnd d a b l m e x)
  | .or d a b l m e x => some (encOr d a b l m e x)
  | .xor d a b l m e x => some (encXor d a b l m e x)
  | .andn d a b l m e x => some (encAndn d a b l m e x)
  | .shl d a b l m e x => some (encShl d a b l m e x)
  | .shrI d a b l m e x => some (encShrI d a b l m e x)
  | .shrN d a b l m e x => some (encShrN d a b l m e x)
  | .rotl d a b l m e x => some (encRotl d a b l m e x)
  | .rotr d a b l m e x => some (encRotr d a b l m e x)
  | .mul d a b l m e x => some (encMul d a b l m e x)
  | .mulhI d a b l m e x => some (encMulhI d a b l m e x)
  | .mulhN d a b l m e x => some (encMulhN d a b l m e x)
  | .minI d a b l m e x => some (encMinI d a b l m e x)
  | .minN d a b l m e x => some (encMinN d a b l m e x)
  | .maxI d a b l m e x => some (encMaxI d a b l m e x)
  | .maxN d a b l m e x => some (encMaxN d a b l m e x)
  | .divI d a b l m e x => some (encDivI d a b l m e x)
  | .divN d a b l m e x => some (encDivN d a b l m e x)
  | .remI d a b l m e x => some (encRemI d a b l m e x)
  | .remN d a b l m e x => some (encRemN d a b l m e x)
  | .clz d a l e x => some (encClz d a l e x)
  | .ctz d a l e x => some (encCtz d a l e x)
  | .popc d a l e x => some (encPopc d a l e x)
  | .brev d a l e x => some (encBrev d a l e x)
  | .bswap d a l e x => some (encBswap d a l e x)
  | .abs d a l e x => some (encAbs d a l e x)
  | .addsI d a b l m e x => some (encAddsI d a b l m e x)
  | .subsI d a b l m e x => some (encSubsI d a b l m e x)
  | .seq d a b l m e x => some (encSeq d a b l m e x)
  | .sne d a b l m e x => some (encSne d a b l m e x)
  | .sltI d a b l m e x => some (encSltI d a b l m e x)
  | .sltN d a b l m e x => some (encSltN d a b l m e x)
  | .sleI d a b l m e x => some (encSleI d a b l m e x)
  | .sleN d a b l m e x => some (encSleN d a b l m e x)
  | .cmovnz d a b l m e x => some (encCmovnz d a b l m e x)
  | .cmovz d a b l m e x => some (encCmovz d a b l m e x)
  | .addi d a l i => some (encAddi d a l i)
  | .andi d a l i => some (encAndi d a l i)
  | .ori d a l i => some (encOri d a l i)
  | .xori d a l i => some (encXori d a l i)
  | .shli d a l i => some (encShli d a l i)
  | .shriI d a l i => some (encShriI d a l i)
  | .shriN d a l i => some (encShriN d a l i)
  | .sltiI d a l i => some (encSltiI d a l i)
  | .sltiN d a l i => some (encSltiN d a l i)
  | .seqi d a l i => some (encSeqi d a l i)
  | .muli d a l i => some (encMuli d a l i)
  | .rotli d a l i => some (encRotli d a l i)
  | .bfxI d a l n p => some (encBfxI d a l n p)
  | .bfxN d a l n p => some (encBfxN d a l n p)
  | .bfi d a l n p => some (encBfi d a l n p)
  | .lea2 d a b l m e x => some (encLea2 d a b l m e x)
  | .lea4 d a b l m e x => some (encLea4 d a b l m e x)
  | .lea8 d a b l m e x => some (encLea8 d a b l m e x)
  | .lea16 d a b l m e x => some (encLea16 d a b l m e x)
  | .mov d a l e => some (encMov d a l e)
  | .srd d i => some (encSrd d i)
  | .swr a l i => some (encSwr a l i)
  | .hrd d h => some (encHrd d h)
  | .hwr a l h => some (encHwr a l h)
  | .hadd d a l h => some (encHadd d a l h)
  | .srdv d => some (encSrdv d)
  | .fadd r d a b l m e => some (encFadd r d a b l m e)
  | .fsub r d a b l m e => some (encFsub r d a b l m e)
  | .fmul r d a b l m e => some (encFmul r d a b l m e)
  | .fdiv r d a b l m e => some (encFdiv r d a b l m e)
  | .ffma r d a b l m e => some (encFfma r d a b l m e)
  | .fsqrt r d a l e => some (encFsqrt r d a l e)
  | .fcvtF32I64 r d a l e => some (encFcvtF32I64 r d a l e)
  | .fcvtI64F32 r d a l e => some (encFcvtI64F32 r d a l e)
  | .br o => some (encBr o)
  | .bz r o => some (encBz r o)
  | .bnz r o => some (encBnz r o)
  | .blt r o => some (encBlt r o)
  | .bge r o => some (encBge r o)
  | .bany r o => some (encBany r o)
  | .ball r o => some (encBall r o)
  | .bnone r o => some (encBnone r o)
  | .call d o => some (encCall d o)
  | .callr d a l e => some (encCallr d a l e)
  | .ret a l e => some (encRet a l e)
  | .exit q => some (encExit q)
  | .yield => some (encYield)
  | .enq d a b l m e => some (encEnq d a b l m e)
  | .trap i => some (encTrap i)
  | .pand d a b q => some (encPand d a b q)
  | .por d a b q => some (encPor d a b q)
  | .pxor d a b q => some (encPxor d a b q)
  | .pandn d a b q => some (encPandn d a b q)
  | .pnot d a q => some (encPnot d a q)
  | .pmov d a q => some (encPmov d a q)
  | .pset d a q l e => some (encPset d a q l e)
  | .pfirst d a q => some (encPfirst d a q)
  | .vadd w d a b q l m e x => some (encVadd w d a b q l m e x)
  | .vsub w d a b q l m e x => some (encVsub w d a b q l m e x)
  | .vmul w d a b q l m e x => some (encVmul w d a b q l m e x)
  | .vminI w d a b q l m e => some (encVminI w d a b q l m e)
  | .vminN w d a b q l m e => some (encVminN w d a b q l m e)
  | .vmaxI w d a b q l m e => some (encVmaxI w d a b q l m e)
  | .vmaxN w d a b q l m e => some (encVmaxN w d a b q l m e)
  | .vabsdI w d a b q l m e => some (encVabsdI w d a b q l m e)
  | .vabsdN w d a b q l m e => some (encVabsdN w d a b q l m e)
  | .vavgI w d a b q l m e => some (encVavgI w d a b q l m e)
  | .vavgN w d a b q l m e => some (encVavgN w d a b q l m e)
  | .vshl w d a b q l m e x => some (encVshl w d a b q l m e x)
  | .vshrI w d a b q l m e => some (encVshrI w d a b q l m e)
  | .vshrN w d a b q l m e => some (encVshrN w d a b q l m e)
  | .vneg w d a q l e x => some (encVneg w d a q l e x)
  | .vabs w d a q l e x => some (encVabs w d a q l e x)
  | .vaddI64 d a b q l m e x => some (encVaddI64 d a b q l m e x)
  | .vsubI64 d a b q l m e x => some (encVsubI64 d a b q l m e x)
  | .vmulI64 d a b q l m e x => some (encVmulI64 d a b q l m e x)
  | .vminI64 d a b q l m e => some (encVminI64 d a b q l m e)
  | .vminN64 d a b q l m e => some (encVminN64 d a b q l m e)
  | .vmaxI64 d a b q l m e => some (encVmaxI64 d a b q l m e)
  | .vmaxN64 d a b q l m e => some (encVmaxN64 d a b q l m e)
  | .vshlI64 d a b q l m e x => some (encVshlI64 d a b q l m e x)
  | .vshrI64 d a b q l m e => some (encVshrI64 d a b q l m e)
  | .vshrN64 d a b q l m e => some (encVshrN64 d a b q l m e)
  | .vand d a b q l m e => some (encVand d a b q l m e)
  | .vor d a b q l m e => some (encVor d a b q l m e)
  | .vxor d a b q l m e => some (encVxor d a b q l m e)
  | .vandn d a b q l m e => some (encVandn d a b q l m e)
  | .vnot d a q l e => some (encVnot d a q l e)
  | .vpopc d a q l e => some (encVpopc d a q l e)
  | .vaddi w d a q l i => some (encVaddi w d a q l i)
  | .vshli w d a q l i => some (encVshli w d a q l i)
  | .vshriI w d a q l i => some (encVshriI w d a q l i)
  | .vshriN w d a q l i => some (encVshriN w d a q l i)
  | .vceq w d a b q l m e x => some (encVceq w d a b q l m e x)
  | .vcne w d a b q l m e x => some (encVcne w d a b q l m e x)
  | .vclt w d a b q l m e x => some (encVclt w d a b q l m e x)
  | .vcle w d a b q l m e x => some (encVcle w d a b q l m e x)
  | .vdot4I8 d a b q l m e x => some (encVdot4I8 d a b q l m e x)
  | .vdot4N8 d a b q l m e x => some (encVdot4N8 d a b q l m e x)
  | .vdot2I16 d a b q l m e x => some (encVdot2I16 d a b q l m e x)
  | .vdot2N16 d a b q l m e x => some (encVdot2N16 d a b q l m e x)
  | .vmadI16 d a b q l m e x => some (encVmadI16 d a b q l m e x)
  | .vmadI32 d a b q l m e x => some (encVmadI32 d a b q l m e x)
  | .vmadI64 d a b q l m e x => some (encVmadI64 d a b q l m e x)
  | .vaddminI16 d a b q l m e x => some (encVaddminI16 d a b q l m e x)
  | .vaddmaxI16 d a b q l m e x => some (encVaddmaxI16 d a b q l m e x)
  | .vaddminI32 d a b q l m e x => some (encVaddminI32 d a b q l m e x)
  | .vaddmaxI32 d a b q l m e x => some (encVaddmaxI32 d a b q l m e x)
  | .vaddminF32 d a b q l m e => some (encVaddminF32 d a b q l m e)
  | .vaddmaxF32 d a b q l m e => some (encVaddmaxF32 d a b q l m e)
  | .vsel d a b q l m e => some (encVsel d a b q l m e)
  | .vaddF32 r d a b q l m e => some (encVaddF32 r d a b q l m e)
  | .vsubF32 r d a b q l m e => some (encVsubF32 r d a b q l m e)
  | .vmulF32 r d a b q l m e => some (encVmulF32 r d a b q l m e)
  | .vdivF32 r d a b q l m e => some (encVdivF32 r d a b q l m e)
  | .vsqrtF32 r d a q l e => some (encVsqrtF32 r d a q l e)
  | .vminF32 d a b q l m e => some (encVminF32 d a b q l m e)
  | .vmaxF32 d a b q l m e => some (encVmaxF32 d a b q l m e)
  | .vfcltF32 d a b q l m e => some (encVfcltF32 d a b q l m e)
  | .vfcleF32 d a b q l m e => some (encVfcleF32 d a b q l m e)
  | .vfceqF32 d a b q l m e => some (encVfceqF32 d a b q l m e)
  | .vfmaF32 r d a b q l m e x => some (encVfmaF32 r d a b q l m e x)
  | .vfmsF32 r d a b q l m e x => some (encVfmsF32 r d a b q l m e x)
  | .vfmaw r d a b q l m e x => some (encVfmaw r d a b q l m e x)
  | .vaddHalf t r d a b q l m e => some (encVaddHalf t r d a b q l m e)
  | .vsubHalf t r d a b q l m e => some (encVsubHalf t r d a b q l m e)
  | .vmulHalf t r d a b q l m e => some (encVmulHalf t r d a b q l m e)
  | .vfmaHalf t r d a b q l m e => some (encVfmaHalf t r d a b q l m e)
  | .vfnmaHalf t r d a b q l m e => some (encVfnmaHalf t r d a b q l m e)
  | .vminHalf t d a b q l m e => some (encVminHalf t d a b q l m e)
  | .vmaxHalf t d a b q l m e => some (encVmaxHalf t d a b q l m e)
  | .vfcltHalf t d a b q l m e => some (encVfcltHalf t d a b q l m e)
  | .vfcleHalf t d a b q l m e => some (encVfcleHalf t d a b q l m e)
  | .vfceqHalf t d a b q l m e => some (encVfceqHalf t d a b q l m e)
  | .vcvt t d a s q l r x => some (encVcvt t d a s q l r x)
  | .vqpack r d a p q l e x => some (encVqpack r d a p q l e x)
  | .vqunpack r d a p q l e x => some (encVqunpack r d a p q l e x)
  | .vqscale r d a b q l m e => some (encVqscale r d a b q l m e)
  | .vrcp d a q l e => some (encVrcp d a q l e)
  | .vrsqrt d a q l e => some (encVrsqrt d a q l e)
  | .vsqrtSfu d a q l e => some (encVsqrtSfu d a q l e)
  | .vexp2 d a q l e => some (encVexp2 d a q l e)
  | .vlog2 d a q l e => some (encVlog2 d a q l e)
  | .vsin d a q l e => some (encVsin d a q l e)
  | .vcos d a q l e => some (encVcos d a q l e)
  | .vtanh d a q l e => some (encVtanh d a q l e)
  | .vsigm d a q l e => some (encVsigm d a q l e)
  | .verf d a q l e => some (encVerf d a q l e)
  | .vcmulF32 d a b q l m e => some (encVcmulF32 d a b q l m e)
  | .vcmulcF32 d a b q l m e => some (encVcmulcF32 d a b q l m e)
  | .vcmulBf16 d a b q l m e => some (encVcmulBf16 d a b q l m e)
  | .vbflyF32 d a b q l m e => some (encVbflyF32 d a b q l m e)
  | .vbflyBf16 d a b q l m e => some (encVbflyBf16 d a b q l m e)
  | .vlread d a b q l m e => some (encVlread d a b q l m e)
  | .vshlx d a b q l m e => some (encVshlx d a b q l m e)
  | .vshrx d a b q l m e => some (encVshrx d a b q l m e)
  | .vshly d a b q l m e => some (encVshly d a b q l m e)
  | .vshry d a b q l m e => some (encVshry d a b q l m e)
  | .vsubsel d a b q l m e => some (encVsubsel d a b q l m e)
  | .vrotx d a b q l m e => some (encVrotx d a b q l m e)
  | .vmatch d a k q l e => some (encVmatch d a k q l e)
  | .vballot d a q => some (encVballot d a q)
  | .vredaddI64 d a q l e => some (encVredaddI64 d a q l e)
  | .vredaddF32 d a q l e => some (encVredaddF32 d a q l e)
  | .vredminI64 d a q l e => some (encVredminI64 d a q l e)
  | .vredmaxI64 d a q l e => some (encVredmaxI64 d a q l e)
  | .vredminF32 d a q l e => some (encVredminF32 d a q l e)
  | .vredmaxF32 d a q l e => some (encVredmaxF32 d a q l e)
  | .vscanaddI64 d a q l e => some (encVscanaddI64 d a q l e)
  | .vscanaddF32 d a q l e => some (encVscanaddF32 d a q l e)
  | .vscanmaxI64 d a q l e => some (encVscanmaxI64 d a q l e)
  | .vpcount d a q => some (encVpcount d a q)
  | .vmov d a q l e => some (encVmov d a q l e)
  | .vbcast d a q l e => some (encVbcast d a q l e)
  | .vextr d a b l m e => some (encVextr d a b l m e)
  | .vmovi d q i => some (encVmovi d q i)
  | .pld d h j z q l => some (encPld d h j z q l)
  | .pst d z q l => some (encPst d z q l)
  | .pwinSumI32 d k z q l => some (encPwinSumI32 d k z q l)
  | .pwinSumF32 d k z q l => some (encPwinSumF32 d k z q l)
  | .pwinMaxI32 d k z q l => some (encPwinMaxI32 d k z q l)
  | .pwinMaxF32 d k z q l => some (encPwinMaxF32 d k z q l)
  | .pwinMinI32 d k z q l => some (encPwinMinI32 d k z q l)
  | .pwinMinF32 d k z q l => some (encPwinMinF32 d k z q l)
  | .scroll h d r e s => some (encScroll h d r e s)
  | .scrollResume h d r e s => some (encScrollResume h d r e s)
  | .pzero a l e => some (encPzero a l e)
  | .pfill a b l m e => some (encPfill a b l m e)
  | .pcopy a b l m e => some (encPcopy a b l m e)
  | .phnd d a b l m e => some (encPhnd d a b l m e)
  | .pclip d a b l m e => some (encPclip d a b l m e)
  | .vgather k w d b i q l v s => some (encVgather k w d b i q l v s)
  | .vscatter k w d b i q l v s => some (encVscatter k w d b i q l v s)
  | .ld k w d b i l v s => some (encLd k w d b i l v s)
  | .st k w d b i l v s => some (encSt k w d b i l v s)
  | .tld d b i v s => some (encTld d b i v s)
  | .tst d b i l v s => some (encTst d b i l v s)
  | .lflush b => some (encLflush b)
  | .aadd d b i l v s => some (encAadd d b i l v s)
  | .aand d b i l v s => some (encAand d b i l v s)
  | .aor d b i l v s => some (encAor d b i l v s)
  | .axor d b i l v s => some (encAxor d b i l v s)
  | .aminI d b i l v s => some (encAminI d b i l v s)
  | .aminN d b i l v s => some (encAminN d b i l v s)
  | .amaxI d b i l v s => some (encAmaxI d b i l v s)
  | .amaxN d b i l v s => some (encAmaxN d b i l v s)
  | .aswap d b i l v s => some (encAswap d b i l v s)
  | .acas d b i l v s => some (encAcas d b i l v s)
  | .aaddf d b i v s => some (encAaddf d b i v s)
  | .lds k w d b i q l => some (encLds k w d b i q l)
  | .sts k w d b i q l => some (encSts k w d b i q l)
  | .pfc b i => some (encPfc b i)
  | .pfd b i => some (encPfd b i)
  | .cwb b i => some (encCwb b i)
  | .cinv b i => some (encCinv b i)
  | .cwbinv b i => some (encCwbinv b i)
  | .cpyGp a t c => some (encCpyGp a t c)
  | .cpyPg a t c => some (encCpyPg a t c)
  | .cpyPp a t c => some (encCpyPp a t c)
  | .cpyGg a t c => some (encCpyGg a t c)
  | .waitAny d a => some (encWaitAny d a)
  | .waitAll d a => some (encWaitAll d a)
  | .tagfind d a => some (encTagfind d a)
  | .tagclr a => some (encTagclr a)
  | .nmv a t c => some (encNmv a t c)
  | .nmrd a t c => some (encNmrd a t c)
  | .nmwr a t c => some (encNmwr a t c)
  | .nmwrm a t c => some (encNmwrm a t c)
  | .mma a s m n q r c => some (encMma a s m n q r c)
  | .accz s n q => some (encAccz s n q)
  | .accld h s n c r q => some (encAccld h s n c r q)
  | .accrd h s n c r q => some (encAccrd h s n c r q)
  | .mfence => some (encMfence)
  | .mwait s => some (encMwait s)
  | .bar l => some (encBar l)
  | .barArrive l => some (encBarArrive l)
  | .barWait l => some (encBarWait l)
  | .fence s k => some (encFence s k)
  | .ringWait g s p => some (encRingWait g s p)
  | .ringSig g s => some (encRingSig g s)
  | .ringTest d g s p => some (encRingTest d g s p)
  | .send a e l => some (encSend a e l)
  | .recv d e => some (encRecv d e)
  | .trysend d a e l => some (encTrysend d a e l)
  | .chstat d e => some (encChstat d e)
  | .acqW a k => some (encAcqW a k)
  | .acqF d a k => some (encAcqF d a k)
  | .rel a k => some (encRel a k)
  | .setperf a => some (encSetperf a)
  | .setperfV a => some (encSetperfV a)
  | .pdrop a => some (encPdrop a)
  | .ctxrd d a b => some (encCtxrd d a b)
  | .ctxwr d a b => some (encCtxwr d a b)
  | .idem => some (encIdem)
  | .idemEnd => some (encIdemEnd)
  | .tret a b => some (encTret a b)
  | .vkill d a => some (encVkill d a)
  | .skill d a => some (encSkill d a)
  | .sret d a b => some (encSret d a b)
  | .grpsusp d a => some (encGrpsusp d a)
  | .grpres d a => some (encGrpres d a)
  | .asgen d a b => some (encAsgen d a b)
  | .rpt n d a b s => some (encRpt n d a b s)
  | .wide p => some (encWide p)
  | .mod s o c t => some (encMod s o c t)
  | .sched y p s => some (encSched y p s)
  | .doorbellWrite _ _ => none
  | .qerrClear _ _ => none
  | .nothingEntry _ => none
  | .launchEntry _ => none
  | .waitEntry _ => none
  | .waitEntryPoll _ => none
  | .signalEntry _ => none
  | .endEntry _ => none
  | .cplheadPoll _ => none
  | .priorityAging _ => none
  | .unitAdmission _ => none
  | .unitReservation _ => none
  | .teamStart _ => none
  | .groupStart _ => none
  | .arrivalLaunch _ _ => none
  | .groupActivation _ => none
  | .demotion _ => none
  | .schedulerSwap _ => none
  | .registerFill _ => none
  | .loadReply _ _ _ _ => none
  | .sfuResult _ _ => none
  | .bankWake _ _ _ => none
  | .bankRetention _ _ _ => none
  | .storeDrain _ _ => none
  | .storePush _ _ => none
  | .viewRefresh _ _ => none
  | .syncSignal _ => none
  | .barrierReleaseInjection _ => none
  | .channelOfferArrival _ => none
  | .scrollExecute _ => none
  | .copyCommandStart _ _ => none
  | .copyCommandComplete _ _ => none
  | .rawPacketComplete _ _ => none
  | .matrixBegin _ => none
  | .matrixComplete _ _ => none
  | .slewWindowStart _ => none
  | .granuleSlot _ => none
  | .perfMoveComplete _ => none
  | .dwellBoundary => none
  | .mmcCapChange _ _ => none
  | .perfcapWrite _ => none
  | .slewctlWrite _ => none
  | .barstagWrite _ => none
  | .seedWrite _ _ => none
  | .preemptPreempt _ => none
  | .preemptSaveComplete _ => none
  | .preemptRestart _ => none
  | .savedTeamReadmission _ => none
  | .watchdogExpiry _ => none
  | .deferredTrap _ => none
  | .handlerStart _ => none
  | .systemEventPost => none
  | .sysevptrWrite _ => none
  | .groupRetire _ => none
  | .gridEnd _ => none
  | .rebuildComplete _ => none
  | .classifierEntryExpiry _ _ => none
  | .arrayRepair _ _ => none
  | .scrubRead _ => none
  | .rotatingRowCheck _ _ => none
  | .hbmPatrolScrub _ => none
  | .timingReplay _ => none
  | .linkFlitReplay _ => none
  | .fabricWireRepair _ => none
  | .rasstatWrite _ _ => none
  | .portFailover _ _ => none
  | .portFailoverComplete _ => none
  | .portRetrain _ => none
  | .portRetrainEnd _ _ _ => none
  | .lossOfSignal _ => none
  | .portstatWrite _ => none
  | .remoteAccessTimeout _ _ _ => none
  | .hostRequestCompletion _ _ _ _ => none
  | .inboundPeerAccess _ _ _ => none
  | .bar2HostAccess _ _ => none
  | .bar2mapWrite _ => none
  | .peerwinWrite _ => none
  | .functionLevelReset => none
  | .moduleReset => none
  | .attestationRequest _ => none
  | .attestationReport => none
  | .firmwareImageLoad _ _ _ => none
  | .registerWrite _ _ _ => none
  | .clearingComplete _ => none
  | .softError _ => none
  | .dieReset _ _ _ => none
  | .portFlitReplay _ => none
  | .powerStateChange _ => none

/-- The major opcode of an instruction (spec/04 R28, R67). -/
def Instr.major (i : Instr) : Nat :=
  match encode i with
  | some w => (field w 26 6).toNat
  | none => 0

end Sys2Proof
end

