-- ==== Sys2Proof/Config.lean ====
section
/-!
DEFINITION. What an implementation fixes and the values the spec leaves open.  Each constant here is opaque: nothing in
Lean can compute it or prove a value of it, so a statement about the model holds whatever it is.  A value that may differ
from one occurrence to the next is applied to the counter `fresh` of the state.
-/

namespace Sys2Proof.Config

/-- Extra clocks of a core before a word issues (spec/04 R83, spec/06 R122: latencies and waits). -/
opaque stall : Nat → Nat

/-- The 32-bit linear key the device draws for a team at its admission (spec/10 R232). -/
opaque linearKey : Nat → W32

/-- Which of the free context slots a starting group takes (spec/02 R36). -/
opaque pickSlot : Nat → Nat

/-- Of the two f32 values that bracket the exact value of special function `fn` at `x`, whether the device returns the
one of larger magnitude (spec/09 R200); one device always returns the same. -/
opaque sfuUp : Nat → W32 → Bool

/-- Whether a store or atomic that completes with poison was performed at its target (spec/24 R426). -/
opaque poisonedStoreDone : Nat → Bool

/-- Whether an operand read takes the engine's older copy of a plane word, and whether it is made before the next `mfence` begins
or after it (spec/14 R306). -/
opaque staleOperand : Nat → Nat → Bool
opaque readEarly : Nat → Nat → Bool

/-- The value that an array with a failing row computes for an element whose right value is given (spec/14 R308, spec/23
R417), and whether it, not the right one, reaches the slot in redundant mode. -/
opaque wrongHalf : Nat → Nat → W32 → W32
opaque lowerHalf : Nat → Nat → Bool

/-- Whether an engine's access to a peer faults there (spec/12 R262, spec/24 R428), or one to the host completes unsuccessfully
(spec/24 R422). -/
opaque peerRefuses : Nat → Nat → Bool

/-- Whether the two multiply units of a redundant `nmv` differ (spec/13 R286). -/
opaque redMismatch : Nat → Bool

/-- Whether a layout record's dword that changed without a flush reads as its new value (spec/13 R270). -/
opaque layoutNew : Nat → Bool

/-- The status with which a wait entry that is freed completes (spec/03 R50). -/
opaque freedStatus : Nat → Nat

/-- The bytes that a pre-emption save writes into a save area: a form that only the device reads (spec/21 R396). -/
opaque saveByte : Nat → Nat → Byte

/-- The granule of a save area in which the save keeps plane word or slot element `i`, as the form that only the device reads has
it (spec/21 R396, spec/23 R411). -/
opaque saveGranule : Nat → Nat → Nat

/-- What happens next where no turn is set and no group can issue (spec/00 R8): one event of the opcode table, or none. -/
opaque outside : Nat → Option Instr

/-- What the hive registers of a resident team hold after its last group has retired (spec/21 R399). -/
opaque lostHive : Nat → Word

/-- Advance of a die's 100 MHz reference between two reads (spec/07 R157). -/
opaque refAdvance : Nat → Nat

/-- The physical row that holds a word, for the arrays whose rows the spec does not lay out (spec/23 R407); the bit column of an
error; whether a second strike on an HBM granule lies in the same memory device (R418); whether 1 µs has passed since a port's last
replay (spec/24 R424). -/
opaque rowOf : ErrSite → Nat
opaque bitColumn : Nat → Nat
opaque sameDevice : Nat → Bool
opaque replaysLapsed : Nat → Bool

/-- The root of trust (spec/24 R431, R432): the chain and the version of the firmware that the module booted, its fused values and its
signature. -/
opaque bootChain : BitVec 512
opaque bootVersion : BitVec 32
opaque rollback : BitVec 32
opaque serial : BitVec 128
opaque identityKey : BitVec 1064
opaque signature : BitVec 2280 → BitVec 1056

end Sys2Proof.Config
end

