-- ==== Sys2Proof/Machine/Tab.lean ====
section
/-!
DEFINITION. Sparse tables: lists of key and value pairs with strictly rising keys.  The state's collections of groups,
teams, cores, plane words and so on are tables; `Tab.wf` is the form that every operation keeps.
-/

namespace Sys2Proof.Machine

abbrev Tab (α : Type) := List (Nat × α)

def Tab.get {α : Type} : Tab α → Nat → Option α
  | [], _ => none
  | (i, a) :: t, k => if k = i then some a else Tab.get t k

def Tab.set {α : Type} : Tab α → Nat → α → Tab α
  | [], k, v => [(k, v)]
  | (i, a) :: t, k, v =>
    if k < i then (k, v) :: (i, a) :: t
    else if k = i then (k, v) :: t
    else (i, a) :: Tab.set t k v

def Tab.erase {α : Type} : Tab α → Nat → Tab α
  | [], _ => []
  | (i, a) :: t, k => if k = i then Tab.erase t k else (i, a) :: Tab.erase t k

/-- The entry of a key, or a default. -/
def Tab.getD {α : Type} (t : Tab α) (k : Nat) (d : α) : α :=
  match Tab.get t k with
  | some a => a
  | none => d

def Tab.modify {α : Type} (t : Tab α) (k : Nat) (f : α → α) : Tab α :=
  match Tab.get t k with
  | some a => Tab.set t k (f a)
  | none => t

/-- Keys strictly rising. -/
def Tab.wf {α : Type} : Tab α → Bool
  | [] => true
  | [_] => true
  | (i, _) :: (j, b) :: t => i < j && Tab.wf ((j, b) :: t)

/-- A list of `n` values, the value at `i` being `f i`. -/
def tabulate {α : Type} (n : Nat) (f : Nat → α) : List α := (List.range n).map f

/-- The number whose bit `i` is `f i` for `i < n`. -/
def bitsOf (f : Nat → Bool) : Nat → Nat
  | 0 => 0
  | n + 1 => bitsOf f n + (if f n then 2 ^ n else 0)

/-- The mask whose bit `i` is `f i` for `i < n`. -/
def maskOf (n : Nat) (f : Nat → Bool) : Mask := BitVec.ofNat 768 (bitsOf f n)

/-- The list with position `i` replaced; unchanged where the list is shorter. -/
def setAt {α : Type} : List α → Nat → α → List α
  | [], _, _ => []
  | _ :: t, 0, v => v :: t
  | a :: t, i + 1, v => a :: setAt t i v

/-- The list with position `n` holding `v`; positions between, where the list is shorter, hold `d`. -/
def setPad {α : Type} (d : α) : List α → Nat → α → List α
  | l, 0, v => v :: l.tail
  | l, n + 1, v => l.headD d :: setPad d l.tail n v

/-- The list without position `i`. -/
def dropAt {α : Type} : List α → Nat → List α
  | [], _ => []
  | _ :: t, 0 => t
  | a :: t, i + 1 => a :: dropAt t i

/-- The first value `f` gives on the list. -/
def firstSome {α β : Type} (f : α → Option β) : List α → Option β
  | [] => none
  | a :: t => match f a with
    | some b => some b
    | none => firstSome f t

end Sys2Proof.Machine
end

