-- ==== Sys2Proof/Machine/State.lean ====
section
/-!
DEFINITION. The state of one ZM24 module, as plain data: memory, the front end, grids, teams, groups with their register
contexts, cores with their plane, caches and engines, dies, clusters, ports, synchronisation objects and recorded errors.
The last fields (agenda, cur, fresh) are the model's own: which turn comes next, which group issues, and the counter of
free values.
-/

namespace Sys2Proof.Machine

/-! ### Stops -/

/-- Why the machine stops with a fault. -/
inductive Fault where
  /-- Raised by the meaning of an encoded instruction when no group is issuing (`cur` names none).  Safe: `step` issues
  only for a group that exists. -/
  | noIssuer
  deriving DecidableEq, Repr

/-- Why an instruction has no meaning. -/
inductive Refusal where
  /-- Raised by an arm of `exec` whose instruction has no meaning yet.  Safe: nothing is claimed of it. -/
  | notModelled (mnemonic : String)
  deriving DecidableEq, Repr

/-! ### Small sets -/

/-- Roles (spec/02 R28). -/
inductive Role where | vector | matrix | copy
  deriving DecidableEq, Repr

/-- KIND of a page (spec/12 R242). -/
inductive PageKind where | rc | so | uo
  deriving DecidableEq, Repr

/-- GSTATE (spec/05 R92). -/
inductive GState where | active | pending | dormant | ctxFault | suspended | handler
  deriving DecidableEq, Repr

/-- A bank of rows or plane words (spec/05 R109): `waking` has left off and `rousing` has left retention, and neither is full
yet. -/
inductive Bank where | full | waking | rousing | retention | off
  deriving DecidableEq, Repr

/-- Causes of a poisoned completion (spec/12 R263). -/
inductive Poison where | uncore | unreachable | timeout | peerFault | data
  deriving DecidableEq, Repr

/-- A register file and number: a scalar or a lane register. -/
inductive Reg where | s (n : Nat) | v (n : Nat)
  deriving DecidableEq, Repr

/-! ### Words of a bundle (spec/04 R82 to R88) -/

structure ModHint where
  scope : ModScope := .none
  order : ModOrder := .byKind
  cache : ModCache := .dflt
  et : Bool := false
  word : W32 := 0
  deriving DecidableEq, Repr

structure RptHint where
  n : Nat
  d : Bool
  a : Bool
  b : Bool
  stride : Nat
  deriving DecidableEq, Repr

/-- The hints and prefix of the bundle a group is in, with the address of its first word; `begun` says that the group stands
between two repeats (R85). -/
structure Bundle where
  start : Word
  begun : Bool := false
  wide : Option (BitVec 24) := none
  mod : Option ModHint := none
  sched : Option (Bool × BitVec 2 × BitVec 16) := none
  rpt : Option RptHint := none
  deriving DecidableEq, Repr

/-! ### Groups -/

structure GroupId where
  grid : Nat
  team : Nat
  num : Nat
  role : Role
  foot : Nat
  slot : Nat
  base : Nat
  core : Nat
  asid : Nat
  supv : Bool
  arr : Bool
  hndl : Bool
  serves : Option Nat
  deriving DecidableEq, Repr

/-- Registers of a group with the state of each: live, empty, pinned (spec/05 R92, R97 to R104). -/
structure Regs where
  s : List Word
  v : List (List Word)
  p : List Mask
  slive : BitVec 32
  vlive : BitVec 32
  sempty : BitVec 32
  vempty : BitVec 32
  pin : BitVec 32
  deriving DecidableEq, Repr

/-- Group system registers (spec/05 R93). -/
structure SysRegs where
  mode : Word
  fpx : Word := 0
  rangeflag : Word := 0
  rangeaddr : Word := 0
  scrollpos : Word := 0
  remoteerr : Word := 0
  seed : Word
  lfsr : W32
  compand : Word := 0
  wdlimit : Word := 0x40000000
  wdcount : Word := 0
  fillercyc : Word := 0
  traprec : Word
  deriving DecidableEq, Repr

/-- What a full queue, or a limit, belongs to (spec/06 R122). -/
inductive Limit where | copy | packets (stack : Nat) | matrix | scroll | sfu | requests | unit
  deriving DecidableEq, Repr

/-- Why the next word of a group does not issue (spec/05 R113, spec/06 R124). -/
inductive Block where
  | empty (rs : List Reg)   -- empty registers
  | fill (rs : List Reg) (keep : List Reg)  -- register misses of an instruction whose registers are `keep` (R101, R102)
  | wake (long : Bool) (rs : List Reg) (banks : List Nat)  -- the banks of registers, or of plane words, that wake, one from off where `long` (R110)
  | rebuild                 -- a damaged word being rebuilt (spec/23 R410)
  | earlier                 -- earlier instructions have not completed (R153, R319, R391)
  | sticky (n : Nat)        -- earlier instructions that can change system register `n` have not completed (R150)
  | acquire                 -- an acquire or a recv's arrival (R320, R343)
  | parked                  -- an access is parked (R257)
  | plane                   -- a queued scroll touches the words (R219)
  | queue (q : Limit)       -- a queue is full, or a limit is reached (R122)
  | clearing                -- words or a slot being cleared after a grant (R137)
  | tagAny (m : Word)
  | tagAll (m : Word)
  | slot (n : Nat)
  | barrier (level : Nat)
  | ring (ring stage : Nat) (ph : Bool)
  | unheld (ring : Nat)     -- a ring that was released while the group waited on it (R139)
  | recv (ep : Nat)
  | send
  | answer                  -- trysend's answer
  | grant                   -- a waiting acq.w
  | granted                 -- an acq.w whose wait has ended in its grant (R134)
  | overran                 -- an acq.w whose wait has ended in a claim overrun (R133, R134)
  | served                  -- a handler's access to the context it serves (R387)
  | awaits (r : Reg)        -- an empty register of that context (R387)
  | drain                   -- asgen or grpsusp waiting on accesses in flight
  deriving DecidableEq, Repr

/-- One item or byte of a memory access (spec/15 R313): its lane, byte offset in the element, addresses, size, page kind. -/
structure Part where
  lane : Nat
  off : Nat
  va : Nat
  pa : Nat
  n : Nat
  kind : PageKind
  gen : W32 := 0
  val : Nat := 0
  done : Bool := false
  poison : Option Poison := none
  deriving DecidableEq, Repr

inductive AccOp where | load | store | atomic (f : AtomOp) | recv (value : Word) | plane
  deriving DecidableEq, Repr

/-- An access that has issued and not yet performed (spec/15 R312); `keep` is the register of an open region's entry that
its value goes to (spec/21 R393); `wrote` lists the lane, address and size of the parts of a scatter that went before the ones
parked (spec/12 R249); `seq` is the place of a plane access among the commands of its core. -/
structure Access where
  op : AccOp
  ord : Nat
  dest : Option Reg
  keep : Option Reg := none
  bits : Nat
  sext : Bool
  scope : Option Scope
  acq : Bool
  rel : Bool
  vol : Bool
  x : Word := 0
  y : Word := 0
  parts : List Part
  wrote : List (Nat × Nat × Nat) := []
  seq : Nat := 0
  pc : Word
  insn : W32
  deriving DecidableEq, Repr

/-- The operand log (spec/12 R261). -/
structure OpLog where
  valid : Bool := false
  abandon : Bool := false
  failed : Bool := false
  sidx2dead : Bool := false
  cause : Nat := 0
  rpt : Nat := 0
  bundlepc : Word := 0
  insn : W32 := 0
  modhint : W32 := 0
  faddr : Nat := 0
  base : Word := 0
  sidx : Word := 0
  sdata : Word := 0
  sdata2 : Word := 0
  done : Mask := 0
  row0 : List Word := []
  row1 : List Word := []
  access : Option Access := none
  deriving DecidableEq, Repr

/-- A fetch that failed translation (spec/12 R257): its address and cause, and whether `asgen` has failed it (R259). -/
structure FetchWait where
  addr : Nat
  cause : Nat
  failed : Bool := false
  deriving DecidableEq, Repr

/-- The trap record (spec/21 R383), without PEND, which is `Group.pend`. -/
structure TrapRec where
  cause : Nat := 0
  deferred : Bool := false
  retpc : Word := 0
  faultpc : Word := 0
  insn : W32 := 0
  info0 : Word := 0
  info1 : Word := 0
  lanes : Mask := 0
  region : Bool := false
  entry : Word := 0
  deriving DecidableEq, Repr

/-- A deferred cause waiting in PEND (spec/21 R380); `awaits` names the access and lane whose value must be written first (spec/12
R264). -/
structure Deferred where
  code : Nat
  faultpc : Word
  insn : W32
  info0 : Word
  info1 : Word
  awaits : Option (Nat × Nat) := none
  deriving DecidableEq, Repr

/-- What enters a group's sticky registers and counts while its exact context may lie in memory (spec/05 R95): flags of FPX, a
rise of WDCOUNT or FILLERCYC, a value of WDCOUNT or SCROLLPOS, by their offsets in the system block, an out-of-range access, a
poisoned completion with the trap that it causes where it sets FLAG. -/
inductive Note where
  | flags (f : BitVec 5)
  | count (off n : Nat)
  | put (off : Nat) (v : Word)
  | range (flag addr : Word)
  | remote (v : Word) (d : Deferred)
  deriving DecidableEq, Repr

/-- An open idempotent region (spec/21 R391): the state at entry; which registers have been replaced since; the access
count at entry. -/
structure Region where
  entry : Word
  regs : Regs
  sys : SysRegs
  stouched : BitVec 32
  vtouched : BitVec 32
  ord : Nat
  deriving DecidableEq, Repr

/-- The access that met a context page fault (spec/05 R106). -/
inductive Held where
  | fill (r : Reg)
  | spill (r : Reg) (x : Nat)  -- the row of sector `x`
  | restore (r : Reg)       -- a register that a flush gave its old value back (spec/21 R393)
  | header
  | start                   -- the header and the scalars of a group that starts
  | activate
  | write (va : Nat) (v : Word) (clear : Option Reg)
  | note (n : Note)         -- what a result that is held enters
  | entered (n : Note)      -- what the device's copy has taken, and memory has not
  | record
  | log
  | served
  | servedWrite (off : Nat) (v : Word)  -- the write of a handler's `ctxwr` (spec/21 R390)
  | resume
  | refused
  deriving DecidableEq, Repr

/-- A sender's offer: of a `send`; of a `trysend`, whose destination, scalar `d`, is empty until the answer arrives; or with its answer
(spec/16 R342). -/
inductive SendSt where | none | offered | asked (d : Nat) | answered (v : Nat)
  deriving DecidableEq, Repr

/-- Swap priority (spec/06 R125). -/
inductive Prio where | low | normal | high
  deriving DecidableEq, Repr

/-- The scheduler's record of a group: `stall` holds the STALL of the hint of the instruction that each register awaits
(spec/06 R126). -/
structure Sched where
  tab : Option Nat := none
  age : Nat := 0
  ready : Nat := 0
  pend : Nat := 0
  passed : Nat := 0
  prio : Prio := .normal
  yielded : Bool := false
  stall : List (Reg × Nat) := []
  deriving DecidableEq, Repr

/-- `inMem` says that memory holds the exact context (R95); `cfstored` is what CFCAUSE and CFADDR of the header hold in
memory; `noted` is the access whose poisoned completion was recorded last (spec/12 R263), `notes` is what the context in memory has still to
take at the end of the step. -/
structure Group where
  id : GroupId
  gstate : GState
  before : GState := .dormant
  pc : Word
  bundle : Option Bundle := none
  rptdone : Nat := 0
  alive : Mask
  blocked : Option Block := none
  regs : Regs
  sys : SysRegs
  inMem : Bool := false
  cfcause : Nat := 0
  cfaddr : Nat := 0
  cfstored : Nat × Nat := (0, 0)
  held : List Held := []
  ord : Nat := 0
  accs : List Access := []
  log : OpLog := {}
  fetchWait : Option FetchWait := none
  trap : TrapRec := {}
  pend : List Deferred := []
  region : Option Region := none
  arrived : BitVec 8 := 0
  inbar : BitVec 8 := 0
  gen : List Nat := [0, 0, 0, 0, 0, 0, 0, 0]
  genBase : List Nat := [0, 0, 0, 0, 0, 0, 0, 0]
  send : SendSt := .none
  noted : Option (Nat × Nat × Nat) := none
  notes : List Note := []
  sched : Sched := {}
  deriving DecidableEq, Repr

/-! ### Launch records, grids, teams -/

structure Level where
  count : Nat
  domain : Nat
  dieset : Nat
  deriving DecidableEq, Repr

/-- The fields of a launch record (spec/02 R32). -/
structure Launch where
  imgbase : Nat := 0
  imgwords : Nat := 0
  entryvec : Nat := 0
  entrymat : Nat := 0
  entrycpy : Nat := 0
  entryarr : Nat := 0
  entrytrap : Nat := 0
  trapen : Bool := false
  args : Nat := 0
  ctxbase : Nat := 0
  ctxslots : Nat := 0
  ctxstride : Nat := 0
  savebase : Nat := 0
  savestride : Nat := 0
  modeinit : W32 := 0
  seedinit : W32 := 0
  ncpy : Nat := 0
  nmat : Nat := 0
  nvec : Nat := 0
  footcpy : Nat := 1
  footmat : Nat := 1
  footvec : Nat := 1
  levels : List Level := []
  count7 : Nat := 1
  pinrows : Nat := 0
  accslots : Nat := 0
  tags : Nat := 0
  rings : Nat := 0
  area : Nat := 0
  depth : Nat := 0
  ringstg : Word := 0
  chkind : Word := 0
  affmode : Nat := 0
  affheap : Nat := 0
  strict : Bool := false
  heapmask : Nat := 0
  spacing : Nat := 0
  resident : Bool := false
  arrrole : Nat := 0
  pincore : Nat := 0
  pinen : Bool := false
  deriving DecidableEq, Repr

/-- A grid: `next` is the first team not yet admitted, `since` stamps when its next unit began to wait, `past` names its
groups that are gone. -/
structure Grid where
  queue : Nat
  index : Nat
  token : Word
  asid : Nat
  supv : Bool
  launch : Launch
  coresident : Bool
  next : Nat := 0
  ended : Option Nat := none
  endTeam : Nat := 0
  endCore : Nat := 0x3FF
  reserves : Bool := false
  since : Nat := 0
  past : List Nat := []
  deriving DecidableEq, Repr

inductive TeamSt where | running | flushed | saving | saved | restarting | ended
  deriving DecidableEq, Repr

/-- A copy or near-memory command with its snapshot (spec/13 R271, R276, R286, R287): `early` is a failure known at issue,
`pa` a raw packet's physical address, `buf` the values read since it started, `status` a failure met while reading, `short`
that plane words out of range were met, `ord` its place among the accesses of its group, `so` that an access of it to a page of kind SO
has not been performed (spec/12 R243). -/
structure Cmd where
  group : Nat
  team : Nat
  near : Bool
  fn : Nat
  tag : Nat
  cw : Option Word
  a : Word
  b : Word
  c : Word
  recA : List Word := []
  recB : List Word := []
  early : Option Nat := none
  pa : Option Nat := none
  skew : Bool
  sys : Bool
  running : Bool := false
  buf : List (Option Nat) := []
  outs : List Nat := []
  wrote : List (Nat × Bool) := []
  status : Nat := 0
  short : Bool := false
  lost : Bool := false
  fpx : BitVec 5 := 0
  seq : Nat := 0
  ord : Nat := 0
  so : Bool := false
  pc : Word
  insn : W32
  deriving DecidableEq, Repr

/-- One word of a plane that a team holds: value, liveness (spec/05 R108), whether it is still being cleared (spec/06
R137). -/
structure PWord where
  val : Word
  live : Bool
  own : Nat
  clr : Bool := false
  deriving DecidableEq, Repr

/-- A team; `path` says that its last pre-empt took the save path (spec/21 R394); while it is saved `plane` holds its words, `cmds` its cancelled commands, and `lost` numbers the uncorrectable plane
words and, from 98304, slot elements of its save (spec/23 R411). -/
structure Team where
  grid : Nat
  index : Nat
  core : Nat
  slot : Nat
  started : Bool := false
  begun : Nat := 0
  nextNum : Nat := 0
  key : W32
  hive : List Word := List.replicate 16 0
  accHeld : BitVec 12 := 0
  accPhys : List Nat := List.replicate 12 0
  accClr : BitVec 12 := 0
  acc : Tab W32 := []
  tagHeld : Word := 0
  tagReady : Word := 0
  tagCount : Tab Nat := []
  ringHeld : BitVec 16 := 0
  phase : BitVec 128 := 0
  request : BitVec 4 := 7
  status : TeamSt := .running
  path : Bool := false
  handlers : List Nat := []
  plane : Tab PWord := []
  lost : List Nat := []
  cmds : List Cmd := []
  deriving DecidableEq, Repr

/-! ### Cores -/

/-- The owner of a physical lane row or scalar entry: group, register, whether it is a value kept for a region (spec/05
R98), whether it is reserved to a pinned register that is not cached (R103), whether it differs from the context area, and
when it was last used.  The row's value is the register's. -/
structure RowOwn where
  group : Nat
  reg : Nat
  kept : Bool := false
  vacant : Bool := false
  dirty : Bool := true
  use : Nat
  deriving DecidableEq, Repr

/-- A queued scroll (spec/10 R226, R227); `later` holds the out-of-range accesses of the group's instructions after it, which are
recorded after its own (R219). -/
structure Scroll where
  group : Nat
  team : Nat
  handle : Word
  dist : Nat
  dir : Dir
  edge : Edge
  fill : Word
  z0 : Nat
  resume : Bool
  seq : Nat := 0
  later : List Note := []
  pc : Word
  insn : W32
  deriving DecidableEq, Repr

/-- An entry of the special-function queue (spec/09 R201). -/
structure SfuEnt where
  group : Nat
  dest : Option Nat
  keep : Option Nat := none
  vals : List Word
  mask : Mask
  flags : BitVec 5
  ord : Nat
  deriving DecidableEq, Repr

/-- A layout-cache entry (spec/13 R270). -/
structure LEntry where
  asid : Nat
  addr : Nat
  dws : List Word
  deriving DecidableEq, Repr

inductive MKind where | mma | accz | accld | accrd | mfence
  deriving DecidableEq, Repr

/-- An entry of the matrix queue with its snapshot (spec/14 R302, R307). -/
structure MEnt where
  kind : MKind
  group : Nat
  team : Nat
  slot : Nat
  slots : Nat
  rows : BitVec 128
  a : Word := 0
  b : Word := 0
  c : Word := 0
  m : Nat := 0
  n : Nat := 0
  acc : Bool := false
  red : Bool := false
  cvt : Nat := 0
  rnd : Nat := 0
  sat : Bool := false
  lfsr : W32 := 0
  skew : Bool := false
  compand : List Word := []
  begun : Bool := false
  busy : Nat := 0
  issued : Nat := 0
  due : Nat := 0
  read : Tab (Option Word) := []
  wrote : Nat := 0
  fpx : BitVec 5 := 0
  ops : List (Option Word) := []
  opsB : List (Option Word) := []
  seq : Nat := 0
  pc : Word := 0
  insn : W32 := 0
  deriving DecidableEq, Repr

/-- The slew limiter (spec/19 R366): the window, B of the last one, busy clocks and next slot of this one, STEP in force, the group
charged with filler. -/
structure Slew where
  win : Nat := 0
  prev : Nat := 0
  used : Nat := 0
  slot : Nat := 0
  step : Nat := 16
  charged : Option Nat := none
  deriving DecidableEq, Repr

/-- An offer waiting at an endpoint (spec/16 R344). -/
structure Waiter where
  group : Nat
  core : Nat
  value : Word
  try_ : Bool
  deriving DecidableEq, Repr

structure Endpoint where
  team : Nat
  kind : Nat
  seq : BitVec 16 := 0
  unread : Option (Word × Nat) := none
  offers : List Waiter := []
  recvs : List Nat := []
  deriving DecidableEq, Repr

structure AcqWait where
  team : Nat
  group : Nat
  kind : AcqKind
  value : Word
  deriving DecidableEq, Repr

/-- A release that takes effect once the commands queued before it, those with a lower `seq`, are done with what it names
(spec/06 R139). -/
structure RelWait where
  team : Nat
  group : Nat
  kind : AcqKind
  value : Word
  seq : Nat
  deriving DecidableEq, Repr

/-- A hive write in flight (spec/07 R153): the clock it lands after, the issuing position, the operation. -/
structure HiveWrite where
  land : Nat
  pos : Nat
  team : Nat
  group : Nat
  reg : Nat
  add : Option Nat
  val : Word
  deriving DecidableEq, Repr

structure RingToggle where
  land : Nat
  pos : Nat
  team : Nat
  bit : Nat
  deriving DecidableEq, Repr

/-- A cached translation (spec/12 R243 to R245). -/
structure TlbEnt where
  asid : Nat
  page : Nat
  size : Nat
  leaf : Word
  gen : W32
  deriving DecidableEq, Repr

/-- A store waiting in a core or die view (spec/15 R311): `ord` and `lane` name its access, `va` is that access's address;
`seen` names the groups whose loads have returned it, `lent` the dies whose views took its value for a UO load (R314, R316). -/
structure Store where
  pa : Nat
  bytes : List Byte
  kind : PageKind
  group : Nat
  ord : Nat := 0
  lane : Nat := 0
  seen : List Nat := []
  lent : List Nat := []
  asid : Nat
  va : Nat
  gen : W32
  pc : Word
  insn : W32
  deriving DecidableEq, Repr

/-- A core or die view: the bytes in which it differs from the next part outward, the first byte and length of each item that was
written there and that it has not taken yet, whose bytes it takes together (R313), and its waiting stores, oldest first. -/
structure View where
  diff : List Host.Cell := []
  joins : List (Nat × Nat) := []
  wait : List Store := []
  deriving DecidableEq, Repr

/-- A store of a group that is gone which waits, still in its store buffer, for what lets it perform (R317, R319, R325). -/
structure Late where
  acc : Access
  store : Store
  deriving DecidableEq, Repr

/-- RASSTAT and repairs of a core (spec/23 R412 to R415); `replays` counts the successive replays of its stages. -/
structure Ras where
  corr : Nat := 0
  uncorr : Nat := 0
  repairs : Nat := 0
  degraded : Bool := false
  arrayFlt : Bool := false
  timingFlt : Bool := false
  replays : Tab Nat := []
  colSpare : Bool := false
  rowSpare : Bool := false
  arrSpares : Tab Nat := []
  matSpares : Nat := 0
  deriving DecidableEq, Repr

/-- A core; `gone` names the grid and slot base of groups that retired here and whose slot nobody has taken since; `seq`
numbers the commands and scrolls queued here; `issued` and `tried` name the groups that have issued in this clock, and those that
could not (spec/06 R123); `acqRank` is the place in the order of R136 that the acquisition unit has
reached in this clock (spec/06), `roused` names the plane banks that woke for a write and have held nothing live since (spec/05
R109), `planeLate` says that a scalar-slot plane word has issued in it (spec/10 R219). -/
structure Core where
  active : List (Option Nat) := List.replicate 8 none
  rot : Nat := 0
  clk : Nat := 0
  slots : BitVec 7 := 0
  issued : List Nat := []
  tried : List Nat := []
  rows : Tab RowOwn := []
  sents : Tab RowOwn := []
  lbank : Tab Bank := []
  pbank : Tab Bank := []
  roused : List Nat := []
  plane : Tab PWord := []
  last : Tab Nat := []
  mapCol : Option Nat := none
  mapRow : Option Nat := none
  scrolls : List Scroll := []
  sfu : List SfuEnt := []
  lcache : List LEntry := []
  copies : List Cmd := []
  mq : List MEnt := []
  mqAt : Nat := 0
  opcopy : Tab PWord := []
  accLast : Tab Nat := []
  slew : Slew := {}
  eps : Tab Endpoint := []
  acqWaits : List AcqWait := []
  rels : List RelWait := []
  acqRank : Nat := 0
  planeLate : Bool := false
  seq : Nat := 0
  hiveW : List HiveWrite := []
  ringT : List RingToggle := []
  tlb : List TlbEnt := []
  view : View := {}
  late : List Late := []
  ras : Ras := {}
  gone : List (Nat × Nat) := []
  deriving DecidableEq, Repr

/-! ### Dies, clusters, ports, the front end -/

/-- The classes of the fault classifier (spec/23 R412). -/
inductive ErrClass where | bank | column | row | cell
  deriving DecidableEq, Repr

/-- A fault-classifier entry (spec/23 R412): where its errors lay, and the class it took first with the word whose error met it. -/
structure ClsEnt where
  core : Nat
  array : Nat
  bank : Nat
  errs : List (Nat × Nat × Nat)
  want : Option (ErrClass × Nat) := none
  deriving DecidableEq, Repr

/-- A die: `rebuilds` is the queue of its recovery engine (spec/23 R410), `scrubs` the words among them that a scrub read waits
for. -/
structure Die where
  view : View := {}
  uncoreReset : Bool := false
  coresReset : Bool := false
  reftime : Nat := 0
  rebuilds : List ErrSite := []
  scrubs : List ErrSite := []
  classifier : List ClsEnt := []
  deriving DecidableEq, Repr

/-- A cluster's operating point (spec/19 R359 to R362, R369): `code` is the code whose frequency is in force, `ratio` the level of
the converter ratio in force, `moving` the level it is changing to, `goal` the code of the newest move; `slack` says that it has
been slack since the last dwell boundary. -/
structure Cluster where
  supCap : BitVec 4 := 11
  mmcCap : BitVec 4 := 11
  ceil : BitVec 4 := 11
  code : BitVec 4 := 0
  ratio : Nat := 0
  moving : Option Nat := none
  goal : BitVec 4 := 0
  lowered : Nat := 2
  slack : Bool := false
  deriving DecidableEq, Repr

/-- A port's state (spec/24 R424). -/
inductive PortSt where | up | failover | retrain | down
  deriving DecidableEq, Repr

/-- The answer to a request of a peer (spec/24 R428). -/
inductive PeerReply where
  | data (bytes : List Byte)
  | done
  | error
  deriving DecidableEq, Repr

/-- `reply` is the newest answer to a request of the peer. -/
structure Port where
  state : PortSt := .down
  spareUsed : Bool := false
  badLane : BitVec 3 := 0
  enable : Bool := false
  retrains : Nat := 0
  infaults : Nat := 0
  fltAddr : BitVec 52 := 0
  fltCause : BitVec 4 := 0
  lane : BitVec 3 := 0
  replays : Nat := 0
  reply : Option PeerReply := none
  deriving DecidableEq, Repr

/-- A taken queue entry that has not completed (spec/03 R48, R49). -/
structure Taken where
  index : Nat
  kind : Nat
  token : Word
  addr : Word
  value : Word
  grid : Option Nat := none
  deriving DecidableEq, Repr

/-- A queue: TAIL and CPLHEAD as last read, entries taken and not complete, completions due, and what holds it: a head entry
that could not be read (R49), a bad CPLHEAD, a completion that could not be written (R51). -/
structure Queue where
  tail : W32 := 0
  cplSeen : W32 := 0
  taken : List Taken := []
  due : List (Word × Nat) := []
  holdHead : Bool := false
  holdCpl : Bool := false
  holdPost : Bool := false
  raise : Nat := 0
  deriving DecidableEq, Repr

/-- The completion of a request of the host (spec/24 R421, R430). -/
inductive HostReply where
  | data (bytes : List Byte)
  | poisoned
  | unsupported
  deriving DecidableEq, Repr

/-- The front end: `reply` is the newest completion of a request of the host, `mgmt` the management events, each with its port and new
state, oldest first (spec/24 R429), `locked` says that a firmware image was refused at power-up (R431). -/
structure Front where
  qtable : Word := 0
  qerr : BitVec 4096 := 0
  queues : Tab Queue := []
  lastServed : Tab Nat := []
  admitted : List Nat := []
  d3 : Bool := false
  nonce : BitVec 512 := 0
  mailbox : Nat := 0
  report : BitVec 3336 := 0
  stages : List (BitVec 512) := []
  version : Option W32 := none
  reply : Option HostReply := none
  mgmt : List (Nat × PortSt) := []
  locked : Bool := false
  deriving DecidableEq, Repr

/-- Supervisor registers of the whole module (spec/04 R80). -/
structure Sup where
  astable : Word := 0
  barstag : Word := 128
  slewctl : Word := 16
  sysevq : Word := 0
  sysTail : W32 := 0
  sysHead : W32 := 0
  preemptsel : Word := 0
  named : Option Nat := none
  namedState : Nat := 0
  portsel : Word := 0
  bar2map : Word := 0
  peerwin : Word := 0
  deriving DecidableEq, Repr

/-! ### Synchronisation objects and events -/

/-- The barrier of one unit: completed generations, teams that have arrived for the open one, injections still due
(cluster, generation), the core of the team that completed it, and the generation delivered to each team (spec/16 R332 to
R338). -/
structure Barrier where
  grid : Nat
  level : Nat
  unit : Nat
  done : Nat := 0
  arrived : List Nat := []
  inject : List Nat := []
  source : Nat := 0
  sent : Tab Nat := []
  delivered : Tab Nat := []
  deriving DecidableEq, Repr

/-- A TC0 packet in flight (spec/01 R21, spec/15 R330). -/
inductive Packet where
  | arrival (grid level unit team gen : Nat)
  | release (grid level unit team gen : Nat)
  | answer (group value : Nat)
  | element (group : Nat) (ord : Nat)
  | preempt (team : Nat)
  | restart (team : Nat)
  deriving DecidableEq, Repr

/-- A packet on its way; `seq` numbers the packets of the module as they are injected (spec/01 R22). -/
structure Signal where
  src : Nat
  dst : Nat
  packet : Packet
  seq : Nat := 0
  deriving DecidableEq, Repr

/-- An offer on its way to an endpoint, a packet like others (spec/16 R342); `issued` says that its `send` has issued, to an endpoint of
kind 2. -/
structure Offer where
  group : Nat
  src : Nat
  core : Nat
  ep : Nat
  value : Word
  try_ : Bool
  seq : Nat := 0
  issued : Bool := false
  deriving DecidableEq, Repr

structure SysEvent where
  kind : Nat
  core : Nat
  asid : Nat
  base : Nat
  addr : Nat
  cause : Nat
  deriving DecidableEq, Repr

/-- A stored word one of whose bytes fails its parity, or that is marked uncorrectable (spec/23 R409). -/
structure Err where
  site : ErrSite
  marked : Bool
  deriving DecidableEq, Repr

/-- Whose turn it is: a group issues its next word, or one event of the opcode table happens. -/
inductive Turn where
  | issue (group : Nat)
  | event (i : Instr)
  deriving DecidableEq, Repr

structure State where
  mem : List Host.Cell
  poison : List Nat
  front : Front
  sup : Sup
  gens : Tab W32
  grids : Tab Grid
  teams : Tab Team
  groups : Tab Group
  nextId : Nat
  cores : Tab Core
  clusters : Tab Cluster
  dies : Tab Die
  ports : Tab Port
  barriers : List Barrier
  signals : List Signal
  offers : List Offer
  tc0 : Nat
  sysev : List SysEvent
  errs : List Err
  agenda : List Turn
  cur : Option Nat
  fresh : Nat
  deriving DecidableEq, Repr

/-- The module right after reset: no work, every bank off (an absent bank entry), every cluster at code 0, caps 11,
SLEWCTL 16, BARSTAG 128, every port Down (spec/05 R107, spec/16 R339, spec/19 R360 to R369, spec/24 R429).  Absent table
entries stand for cores, clusters, dies and ports with the default values of their structures. -/
def State.reset : State where
  mem := []
  poison := []
  front := {}
  sup := {}
  gens := []
  grids := []
  teams := []
  groups := []
  nextId := 0
  cores := []
  clusters := []
  dies := []
  ports := []
  barriers := []
  signals := []
  offers := []
  tc0 := 0
  sysev := []
  errs := []
  agenda := []
  cur := none
  fresh := 0

end Sys2Proof.Machine
end

