-- ==== Sys2Proof/Machine/Memory.lean ====
section
/-!
DEFINITION. Accessors of the state's tables, and the homes: bytes at 52-bit physical addresses (spec/12 R239, spec/01 R17),
little-endian (spec/00 R3), in one canonical list.
-/

namespace Sys2Proof.Machine

/-! ### Tables of the state -/

def State.core (s : State) (c : Nat) : Core := Tab.getD s.cores c {}
def State.die (s : State) (d : Nat) : Die := Tab.getD s.dies d {}
def State.cluster (s : State) (c : Nat) : Cluster := Tab.getD s.clusters c {}
def State.port (s : State) (p : Nat) : Port := Tab.getD s.ports p {}
def State.group (s : State) (k : Nat) : Option Group := Tab.get s.groups k
def State.team (s : State) (t : Nat) : Option Team := Tab.get s.teams t
def State.grid (s : State) (g : Nat) : Option Grid := Tab.get s.grids g
def State.gen (s : State) (asid : Nat) : W32 := Tab.getD s.gens asid 0

def State.setCore (s : State) (c : Nat) (x : Core) : State := { s with cores := Tab.set s.cores c x }
def State.setDie (s : State) (d : Nat) (x : Die) : State := { s with dies := Tab.set s.dies d x }
def State.setGroup (s : State) (k : Nat) (g : Group) : State := { s with groups := Tab.set s.groups k g }
def State.setTeam (s : State) (t : Nat) (x : Team) : State := { s with teams := Tab.set s.teams t x }
def State.setGrid (s : State) (g : Nat) (x : Grid) : State := { s with grids := Tab.set s.grids g x }
def State.setCluster (s : State) (c : Nat) (x : Cluster) : State := { s with clusters := Tab.set s.clusters c x }
def State.setPort (s : State) (p : Nat) (x : Port) : State := { s with ports := Tab.set s.ports p x }

def State.modCore (s : State) (c : Nat) (f : Core → Core) : State := s.setCore c (f (s.core c))
def State.modDie (s : State) (d : Nat) (f : Die → Die) : State := s.setDie d (f (s.die d))
def State.modGroup (s : State) (k : Nat) (f : Group → Group) : State := { s with groups := Tab.modify s.groups k f }
def State.modTeam (s : State) (t : Nat) (f : Team → Team) : State := { s with teams := Tab.modify s.teams t f }
def State.modGrid (s : State) (g : Nat) (f : Grid → Grid) : State := { s with grids := Tab.modify s.grids g f }

/-- A fresh index for the free values of `Config`. -/
def State.tickFresh (s : State) : State := { s with fresh := s.fresh + 1 }

/-- The die of a core and the cluster of a core (spec/01 R12). -/
def dieOf (core : Nat) : Nat := core / 24
def clusterOf (core : Nat) : Nat := core / 6

/-! ### Homes -/

/-- What an address that nothing has written reads as. -/
def unwritten : Byte := 0

def readByte (m : List Host.Cell) (a : Nat) : Byte := Tab.getD m a unwritten

/-- Writes one byte and keeps the canonical form: no entry holds `unwritten`. -/
def writeByte (m : List Host.Cell) (a : Nat) (b : Byte) : List Host.Cell :=
  if b = unwritten then Tab.erase m a else Tab.set m a b

/-- The canonical form of a memory: rising addresses, no entry equal to what an unlisted address reads as. -/
def memWf (m : List Host.Cell) : Bool := Tab.wf m && m.all (fun c => c.2 != unwritten)

/-- `n` bytes from `a`, least significant first. -/
def readLe (rd : Nat → Byte) (a : Nat) : Nat → Nat
  | 0 => 0
  | n + 1 => (rd a).toNat + 256 * readLe rd (a + 1) n

/-- The `n` bytes of a number, least significant first. -/
def leBytes : Nat → Nat → List Byte
  | 0, _ => []
  | n + 1, v => BitVec.ofNat 8 v :: leBytes n (v / 256)

/-- The places a physical address can lead to (spec/12 R239). -/
inductive Target where
  | heap (h : Nat)
  | host
  | peer (port : Nat)
  | nowhere
  deriving DecidableEq, Repr

def targetOf (pa : Nat) : Target :=
  if pa < 24 * 2 ^ 36 then .heap (pa / 2 ^ 36)
  else if pa < 2 ^ 51 then .nowhere
  else if pa < 3 * 2 ^ 50 then .host
  else if pa < 2 ^ 52 then
    if pa / 2 ^ 44 % 64 < 36 then .peer (pa / 2 ^ 44 % 64) else .nowhere
  else .nowhere

/-- Whether `n` bytes from `a` lie in one heap. -/
def inHeap (a n : Nat) : Bool := a + n ≤ 24 * 2 ^ 36 && a / 2 ^ 36 == (a + n - 1) / 2 ^ 36

/-- Granules of 32 bytes marked poisoned (spec/23 R411) that `n` bytes from `a` touch. -/
def poisoned (s : State) (a n : Nat) : Bool :=
  s.poison.any (fun g => a < 32 * g + 32 && 32 * g < a + n)

/-- Marks the granule that holds an address poisoned. -/
def insertNat (n : Nat) : List Nat → List Nat
  | [] => [n]
  | a :: t => if n < a then n :: a :: t else if n = a then a :: t else a :: insertNat n t
def addPoison (s : State) (pa : Nat) : State := { s with poison := insertNat (pa / 32) s.poison }

/-- A write of `n` bytes at `a` ends the poison of the granules that it covers whole (spec/23 R411). -/
def coverPoison (s : State) (a n : Nat) : State :=
  if s.poison.isEmpty && s.errs.isEmpty then s
  else { s with
    poison := s.poison.filter (fun g => !(a ≤ 32 * g && 32 * g + 32 ≤ a + n))
    errs := s.errs.filter (fun e => match e.site with
      | .hbm g => !(a ≤ 32 * g && 32 * g + 32 ≤ a + n)
      | _ => true) }

/-- Why an access to `n` bytes at `a` completes with poison, if it does (spec/12 R262): 0 uncore in reset, 1 peer
unreachable, 4 uncorrectable data. -/
def poisonAt (s : State) (a n : Nat) : Option Poison :=
  match targetOf a with
  | .heap h => if (s.die h).uncoreReset then some .uncore else if poisoned s a n then some .data else none
  | .peer p =>
    match (s.port p).state with
    | .down => some .unreachable
    | _ => none
  | _ => none

/-- A read of `n` bytes of the homes that the device makes for itself: none where an error cannot be corrected. -/
def readHome (s : State) (a n : Nat) : Option Nat :=
  if (poisonAt s a n).isSome then none else some (readLe (readByte s.mem) a n)

end Sys2Proof.Machine
end

