-- ==== Sys2Proof/Machine/Views.lean ====
section
/-!
DEFINITION. The ordering machine (spec/15): core views, die views and homes, what waits in them, and refreshes.  A view is held as the bytes in which it differs from the next part outward, with the stores that wait in it.
-/

namespace Sys2Proof.Machine

/-! ### Bytes of the parts (R311) -/

def homeByte (s : State) (a : Nat) : Byte := readByte s.mem a
def dieByte (s : State) (d a : Nat) : Byte := Tab.getD (s.die d).view.diff a (homeByte s a)
def coreByte (s : State) (c a : Nat) : Byte := Tab.getD (s.core c).view.diff a (dieByte s (dieOf c) a)

/-- A view's difference at one byte when the byte holds `v` and the next part outward holds `o`. -/
def diffSet (t : List Host.Cell) (a : Nat) (v o : Byte) : List Host.Cell :=
  if v = o then Tab.erase t a else Tab.set t a v

def View.put (x : View) (a : Nat) (v o : Byte) : View := { x with diff := diffSet x.diff a v o }

/-- Every compute die keeps its view's value of a byte whose home changes from `old` to `new`. -/
def keepDies (s : State) (a : Nat) (old new : Byte) : Nat → State
  | 0 => s
  | n + 1 =>
    let s := keepDies s a old new n
    s.modDie n (fun d => { d with view := d.view.put a (Tab.getD d.view.diff a old) new })

/-- Every core of die `d` keeps its view's value of a byte whose die view changes from `old` to `new`. -/
def keepCores (s : State) (d a : Nat) (old new : Byte) : Nat → State
  | 0 => s
  | n + 1 =>
    let s := keepCores s d a old new n
    s.modCore (24 * d + n) (fun c => { c with view := c.view.put a (Tab.getD c.view.diff a old) new })

/-- Writes one byte at its home; no view changes. -/
def writeHomeByte (s : State) (a : Nat) (b : Byte) : State :=
  let old := homeByte s a
  if old = b then s
  else { keepDies s a old b 24 with mem := writeByte s.mem a b }

/-- Writes one byte in a die view; no core view changes. -/
def writeDieByte (s : State) (d a : Nat) (b : Byte) : State :=
  let old := dieByte s d a
  if old = b then s
  else (keepCores s d a old b 24).modDie d (fun x => { x with view := x.view.put a b (homeByte s a) })

/-- Writes one byte in a core view. -/
def writeCoreByte (s : State) (c a : Nat) (b : Byte) : State :=
  s.modCore c (fun x => { x with view := x.view.put a b (dieByte s (dieOf c) a) })

/-! ### Items (R313) -/

/-- Whether a view differs from the next part outward in one of `n` bytes at `a`. -/
def View.differs (v : View) (a n : Nat) : Bool := v.diff.any (fun b => a ≤ b.1 && b.1 < a + n)

/-- The items of `n` bytes at `a`: those of each aligned dword. -/
def dwordItems (a n : Nat) : List (Nat × Nat) :=
  if n = 0 then []
  else (List.range ((a + n - 1) / 8 - a / 8 + 1)).map (fun i =>
    let lo := max a (8 * (a / 8 + i))
    (lo, min (a + n) (8 * (a / 8 + i + 1)) - lo))

/-- Items have been written at the next part outward; those that the view holds already are no longer kept. -/
def View.join (v : View) (l : List (Nat × Nat)) : View :=
  if v.diff.isEmpty then { v with joins := [] }
  else { v with joins := (v.joins ++ l.filter (fun j => 1 < j.2 && !v.joins.contains j)).filter (fun j => v.differs j.1 j.2) }

/-- Whether a view agrees with the next part outward, so that there is nothing to keep together. -/
def View.agrees (v : View) : Bool := v.diff.isEmpty && v.joins.isEmpty

def joinDies (s : State) (l : List (Nat × Nat)) : State :=
  if s.dies.all (fun d => d.2.view.agrees) then s
  else { s with dies := s.dies.map (fun d => (d.1, { d.2 with view := d.2.view.join l })) }
def joinCores (s : State) (d : Nat) (l : List (Nat × Nat)) : State :=
  if s.cores.all (fun c => c.2.view.agrees) then s
  else { s with cores := s.cores.map (fun c => (c.1, if dieOf c.1 = d then { c.2 with view := c.2.view.join l } else c.2)) }

/-- The bytes from `lo` to `hi` with every item that meets them. -/
def View.widen (v : View) (r : Nat × Nat) : Nat × Nat :=
  v.joins.foldl (fun r j => if j.1 < r.2 && r.1 < j.1 + j.2 then (min r.1 j.1, max r.2 (j.1 + j.2)) else r) r

/-- The first byte and the end of what the view takes together with byte `a`. -/
def View.group (v : View) (a : Nat) : Nat × Nat := (List.range 8).foldl (fun r _ => v.widen r) (a, a + 1)

def overBytes (f : State → Nat → Byte → State) (s : State) (a : Nat) : List Byte → State
  | [] => s
  | b :: t => overBytes f (f s a b) (a + 1) t

def writeHome (s : State) (a : Nat) (bs : List Byte) : State :=
  joinDies (coverPoison (overBytes writeHomeByte s a bs) a bs.length) (dwordItems a bs.length)
def writeDie (s : State) (d a : Nat) (bs : List Byte) : State :=
  joinCores (overBytes (fun s => writeDieByte s d) s a bs) d (dwordItems a bs.length)
def writeCore (s : State) (c a : Nat) (bs : List Byte) : State := overBytes (fun s => writeCoreByte s c) s a bs

/-! ### Waiting stores -/

def Store.meets (x : Store) (a n : Nat) : Bool := x.pa < a + n && a < x.pa + x.bytes.length
def Store.overlap (x y : Store) : Bool := x.meets y.pa y.bytes.length

/-- Whether two stores touch a common aligned dword. -/
def Store.near (x y : Store) : Bool :=
  x.meets (y.pa / 8 * 8) ((y.pa + y.bytes.length + 7) / 8 * 8 - y.pa / 8 * 8)

/-- Which of a part's waiting stores go outward when those that `p` names must: they, and every earlier store to a byte
of one that goes, since stores to a common byte leave in the order in which they entered (R312). -/
def leaving (p : Store → Bool) : List Store → List (Store × Bool)
  | [] => []
  | x :: t =>
    let r := leaving p t
    (x, p x || r.any (fun y => y.2 && x.overlap y.1)) :: r

def goes (p : Store → Bool) (l : List Store) : List Store := ((leaving p l).filter (·.2)).map (·.1)
def stays (p : Store → Bool) (l : List Store) : List Store := ((leaving p l).filter (fun x => !x.2)).map (·.1)

/-- Whether a physical address lies behind a port that is in recovery (spec/24 R425). -/
def State.stalledPort (s : State) (pa : Nat) : Bool :=
  match targetOf pa with
  | .peer q => (s.port q).state == .failover || (s.port q).state == .retrain
  | _ => false

def hostAt (pa : Nat) : Bool := targetOf pa == .host

/-- Every store that waits in a view of the module. -/
def State.waits (s : State) : List Store := s.cores.flatMap (fun c => c.2.view.wait) ++ s.dies.flatMap (fun d => d.2.view.wait)

/-- Whether an access of group `k` to host memory, one older than number `ord` that `p` selects, has not completed (spec/24
R422). -/
def State.hostEarlier (s : State) (k ord : Nat) (p : AccOp → Bool) : Bool :=
  (match s.group k with
    | some g => g.accs.any (fun a => p a.op && a.ord < ord && a.parts.any (fun q => !q.done && hostAt q.pa))
    | none => false) ||
  p .store && s.cores.any (fun c => c.2.late.any (fun y => y.store.group == k && y.store.ord < ord && hostAt y.store.pa))

/-- Whether a store cannot reach its home yet: its port is in recovery, or it is a store to host memory and an earlier access of
its group there has not completed (spec/24 R422), one that `out` does not name; `own` says that the store buffer goes first. -/
def State.barred (s : State) (own : Bool) (out : Store → Bool) (x : Store) : Bool :=
  s.stalledPort x.pa || hostAt x.pa && (s.hostEarlier x.group x.ord (fun o => !own || o != .store) ||
    s.waits.any (fun y => y.group == x.group && y.ord < x.ord && hostAt y.pa && !out y))

def poisonCode : Poison → Nat
  | .uncore => 0
  | .unreachable => 1
  | .timeout => 2
  | .peerFault => 3
  | .data => 4

/-- MORE of REMOTEERR (R263) and of RANGEFLAG (spec/10 R218). -/
def moreRemote : Word := 0x2000000000000000
def moreRange : Word := 16

/-- The device's copy of a group's system registers takes a note (spec/08 R180, spec/10 R218, spec/12 R263): an out-of-range access or
a poisoned completion is recorded where FLAG is 0, and else sets MORE only. -/
def SysRegs.enter (y : SysRegs) (n : Note) : SysRegs :=
  match n with
  | .flags f => { y with fpx := y.fpx ||| BitVec.ofNat 64 f.toNat }
  | .count o n => if o = 0x1168 then { y with wdcount := y.wdcount + BitVec.ofNat 64 n }
      else { y with fillercyc := y.fillercyc + BitVec.ofNat 64 n }
  | .put o v => if o = 0x1168 then { y with wdcount := v } else { y with scrollpos := v }
  | .range f a => if flag y.rangeflag 0 then { y with rangeflag := y.rangeflag ||| moreRange }
      else { y with rangeflag := f ||| (y.rangeflag &&& moreRange), rangeaddr := a }
  | .remote v _ => if flag y.remoteerr 63 then { y with remoteerr := y.remoteerr ||| moreRemote }
      else { y with remoteerr := v ||| (y.remoteerr &&& moreRemote) }

/-- A group takes a note; the exact context that memory may hold takes it at the end of the step (spec/05 R95). -/
def Group.take (g : Group) (n : Note) : Group :=
  { g with sys := g.sys.enter n, notes := if g.inMem then g.notes ++ [n] else g.notes }

/-- A poisoned completion of group `k` records itself in REMOTEERR (spec/12 R263), once for the access at `va` that `id` names
however many of its bytes fail; where it sets FLAG and MODE.REMTRAP is 1 a remote-error trap is pending (R264). -/
def noteRemote (s : State) (k : Nat) (id : Nat × Nat) (cause : Poison) (write : Bool) (va : Nat) (pc : Word) (insn : W32) : State :=
  s.modGroup k (fun g =>
    let key := (id.1, id.2, va)
    if g.noted = some key then g
    else
      let v := BitVec.ofNat 64 (va % 2 ^ 57 + poisonCode cause * 2 ^ 57 + (if write then 2 ^ 60 else 0) + 2 ^ 63)
      let d : Deferred := ⟨21, pc, insn, v ||| (g.sys.remoteerr &&& moreRemote), 0, some id⟩
      { g.take (.remote v d) with
        noted := some key
        pend := if !g.inMem && !flag g.sys.remoteerr 63 && flag g.sys.mode 10 then g.pend ++ [d] else g.pend })

/-- Why a store to `n` bytes at `a` completes with poison: a store to poisoned data is no read of it. -/
def storePoison (s : State) (a n : Nat) : Option Poison :=
  match poisonAt s a n with
  | some .data => none
  | x => x

/-- A store reaches its home, or completes there with poison (R262, R319): it is dropped at a heap, and a peer may or may
not have performed it (spec/24 R426). -/
def storeHome (s : State) (x : Store) : State :=
  match storePoison s x.pa x.bytes.length with
  | none => writeHome s x.pa x.bytes
  | some c =>
    let s := noteRemote s x.group (x.ord, x.lane) c true x.va x.pc x.insn
    match targetOf x.pa with
    | .peer _ => (if Config.poisonedStoreDone s.fresh then writeHome s x.pa x.bytes else s).tickFresh
    | _ => s

/-! ### Lent values (R314, R316) -/

/-- A view other than a die's own in which a store waits whose value that die's view has taken. -/
def View.lends (v : View) (d a n : Nat) : Bool := v.wait.any (fun x => x.lent.contains d && x.meets a n)

/-- Whether a part of the module holds such a store for the bytes at `a`. -/
def State.lentTo (s : State) (d a n : Nat) : Bool :=
  s.cores.any (fun c => c.2.view.lends d a n) || s.dies.any (fun x => x.1 != d && x.2.view.lends d a n)

/-- Enters a store in core view `c` (R312 Drain). -/
def enterCore (s : State) (c : Nat) (x : Store) : State :=
  (writeCore s c x.pa x.bytes).modCore c (fun k => { k with view := { k.view with wait := k.view.wait ++ [x] } })

/-! ### Values that loads have returned (R314) -/

/-- The view a number names: core views first, then die views. -/
def State.viewAt (s : State) (v : Nat) : View := if v < 576 then (s.core v).view else (s.die (v - 576)).view

/-- The stores waiting in a view for the bytes at `a`, oldest first. -/
def View.waits (x : View) (a n : Nat) : List Store := x.wait.filter (fun y => y.meets a n)

/-- Stores that wait in view `v` are changed by `f`. -/
def State.modWait (s : State) (v : Nat) (f : Store → Store) : State :=
  let h := fun (x : View) => { x with wait := x.wait.map f }
  if v < 576 then s.modCore v (fun c => { c with view := h c.view }) else s.modDie (v - 576) (fun d => { d with view := h d.view })

/-- A store whose value group `k` has returned. -/
def Store.seenBy (x : Store) (k : Nat) : Store := if x.seen.contains k then x else { x with seen := x.seen ++ [k] }

/-- What waits in view `v` for the bytes at `a` has been returned to group `k`. -/
def noteSeen (k a n : Nat) (s : State) (v : Nat) : State :=
  if ((s.viewAt v).waits a n).isEmpty then s else s.modWait v (fun x => if x.meets a n then x.seenBy k else x)

/-- The stores whose value die view `d` has taken for the bytes at `a` have been returned to group `k`. -/
def noteLent (k a n : Nat) (s : State) (d : Nat) : State :=
  if !s.lentTo d a n then s
  else
    let f := fun (x : Store) => if x.lent.contains d && x.meets a n then x.seenBy k else x
    let h := fun (v : View) => { v with wait := v.wait.map f }
    { s with
      cores := s.cores.map (fun c => (c.1, { c.2 with view := h c.2.view }))
      dies := s.dies.map (fun c => (c.1, { c.2 with view := h c.2.view })) }

/-- A load of group `k` on core `c` has returned what its path, or only its die view, holds for the bytes at `a`. -/
def notePath (k c a n : Nat) (path : Bool) (s : State) : State :=
  let s := if path then noteSeen k a n s c else s
  noteLent k a n (noteSeen k a n s (576 + dieOf c)) (dieOf c)

/-! ### Refresh (R312, R320) -/

def View.holds (v : View) (a : Nat) : Bool := v.wait.any (fun x => x.meets a 1)

/-- One byte of core view `c` takes the die view's value. -/
def refreshCoreByte (s : State) (c a : Nat) : State :=
  if (s.core c).view.holds a then s
  else s.modCore c (fun x => { x with view := { x.view with diff := Tab.erase x.view.diff a } })

/-- One byte of die view `d` takes the home's value, unless the view holds a value lent to it that is later. -/
def refreshDieByte (s : State) (d a : Nat) : State :=
  if (s.die d).view.holds a || s.lentTo d a 1 then s
  else
    let s := if dieByte s d a = homeByte s a then s else keepCores s d a (dieByte s d a) (homeByte s a) 24
    s.modDie d (fun x => { x with view := { x.view with diff := Tab.erase x.view.diff a } })

def refreshCore (s : State) (c : Nat) : State :=
  s.modCore c (fun x => { x with view := ({ x.view with diff := x.view.diff.filter (fun b => x.view.holds b.1) } : View).join [] })

/-- Bytes of die view `d` are refreshed; what it takes together, its core views take together. -/
def refreshDieBytes (s : State) (d : Nat) (l : List Nat) : State :=
  let js := (s.die d).view.joins.filter (fun j => l.any (fun a => j.1 ≤ a && a < j.1 + j.2))
  let s := l.foldl (fun s a => refreshDieByte s d a) s
  joinCores (s.modDie d (fun x => { x with view := x.view.join [] })) d js

def refreshCoreBytes (s : State) (c : Nat) (l : List Nat) : State :=
  (l.foldl (fun s a => refreshCoreByte s c a) s).modCore c (fun x => { x with view := x.view.join [] })

def refreshDie (s : State) (d : Nat) : State := refreshDieBytes s d ((s.die d).view.diff.map (·.1))

/-- `n` bytes of the path of core `c` take the home's values, from the outside inward. -/
def refreshBytes (s : State) (c a n : Nat) : State :=
  let l := (List.range n).map (a + ·)
  refreshCoreBytes (refreshDieBytes s (dieOf c) l) c l

/-- Step 2 of R320 for a group of core `c`: each part narrower than the meeting point, from the outside inward. -/
def refreshPath (s : State) (c : Nat) (sc : Scope) : State :=
  match sc with
  | .group | .team => s
  | .cluster | .die => refreshCore s c
  | .device | .system => refreshCore (refreshDie s (dieOf c)) c

end Sys2Proof.Machine
end

