-- ==== Sys2Proof/Machine/Errors.lean ====
section
/-!
DEFINITION. Errors in the arrays (spec/23 R407 to R414): checks and rebuilds, what an uncorrectable word becomes, the counts
of RASSTAT and the fault classifier.
-/

namespace Sys2Proof.Machine

/-! ### Sites -/

/-- The depth bank of a plane word: sector and 16 words of depth (spec/05 R107). -/
def planeBank (key : Nat) : Nat := 8 * (key / 128 / 32 / 6) + key % 128 / 16

/-- Errors at the sites that `p` names are gone, and nothing waits for their rebuilds. -/
def State.mend (s : State) (p : ErrSite → Bool) : State :=
  { s with
    errs := s.errs.filter (fun e => !p e.site)
    dies := if s.errs.any (fun e => p e.site) then
      s.dies.map (fun (d, x) => (d, { x with
        rebuilds := x.rebuilds.filter (fun q => !p q), scrubs := x.scrubs.filter (fun q => !p q) })) else s.dies }

/-- The core of an error site that lies in a core. -/
def siteCore : ErrSite → Nat
  | .plane c _ | .lane c _ _ _ | .scalar c _ | .acc c _ _ | .l1 c _ | .layout c _ | .opcopy c _ | .matRow c _ => c
  | .dcache d _ => 24 * d
  | .hbm _ | .latch => 0
  | .parity o => siteCore o

/-- A damaged word is queued for the recovery engine of its die (R410). -/
def requestRebuild (s : State) (site : ErrSite) : State :=
  s.modDie (dieOf (siteCore site)) (fun d => if d.rebuilds.contains site then d else { d with rebuilds := d.rebuilds ++ [site] })

/-! ### Groups of rows (R407) -/

/-- Whether two words lie in one array: of the plane, one cell (R407). -/
def sameArray : ErrSite → ErrSite → Bool
  | .plane c k, .plane c' k' => c == c' && k / 128 == k' / 128
  | .lane c x _ _, .lane c' x' _ _ => c == c' && x == x'
  | .acc c p _, .acc c' p' _ => c == c' && p == p'
  | .scalar c _, .scalar c' _ | .l1 c _, .l1 c' _ | .layout c _, .layout c' _ | .opcopy c _, .opcopy c' _ => c == c'
  | .dcache d _, .dcache d' _ => d == d'
  | _, _ => false

/-- The physical row that holds a word in its array; free where the spec does not lay the array out. -/
def physRow : ErrSite → Nat
  | .plane _ k => k % 128
  | .lane _ _ r _ | .matRow _ r => r
  | site => Config.rowOf site

/-- Whether two words lie in one aligned group of 64 physical rows of one array. -/
def inGroup (a b : ErrSite) : Bool := sameArray a b && physRow a / 64 == physRow b / 64

/-- Whether two words lie in different rows of one group. -/
def sameGroup (a b : ErrSite) : Bool := inGroup a b && physRow a != physRow b

/-- Whether a site is the parity row of a word's group. -/
def parityOf (a : ErrSite) : ErrSite → Bool
  | .parity o => inGroup a o
  | _ => false

/-! ### RASSTAT (R414) -/

/-- The core on whose arrays an error lies. -/
def coreAt : ErrSite → Option Nat
  | .plane c _ | .lane c _ _ _ | .scalar c _ | .acc c _ _ | .l1 c _ | .layout c _ | .opcopy c _ | .matRow c _ => some c
  | .dcache _ _ | .hbm _ | .latch => none
  | .parity o => coreAt o

def Core.modRas (c : Core) (f : Ras → Ras) : Core := { c with ras := f c.ras }

def noteCorr (s : State) (site : ErrSite) : State :=
  match coreAt site with
  | none => s
  | some c => s.modCore c (fun x => x.modRas (fun r => { r with corr := min 0xFFFF (r.corr + 1) }))

/-- `n` reads of core `c` have returned uncorrectable.  DEDUCED (log entry 80): each word that a read meets is one read. -/
def noteUncorr (s : State) (c n : Nat) : State :=
  if n = 0 then s else s.modCore c (fun x => x.modRas (fun r => { r with uncorr := min 0xFF (r.uncorr + n) }))

/-- The same of a word of site `site`, where its array is a core's. -/
def noteUncorrAt (s : State) (site : ErrSite) : State :=
  match coreAt site with
  | some c => noteUncorr s c 1
  | none => s

/-! ### The fault classifier (R412) -/

/-- Array, bank, physical row and word of a site. -/
def sitePlace : ErrSite → Nat × Nat × Nat × Nat
  | .plane _ k => (0, planeBank k, k % 128, k)
  | .lane _ x r l => (1 + x, r / 8, r, 192 * r + l)
  | .scalar c i => (5, 0, physRow (.scalar c i), i)
  | .acc c p n => (6, p, physRow (.acc c p n), n)
  | .l1 c n => (7, 0, physRow (.l1 c n), n)
  | .layout c i => (8, 0, physRow (.layout c i), i)
  | .opcopy c k => (9, 0, physRow (.opcopy c k), k)
  | .dcache d n => (10, 0, physRow (.dcache d n), n)
  | .matRow _ r => (11, 0, r, r)
  | .hbm n => (12, 0, n, n)
  | .latch => (13, 0, 0, 0)
  | .parity o => sitePlace o

def distinct (l : List Nat) : Nat := l.eraseDups.length

/-- The first class that a pattern of errors, each with its row, bit column and word, meets. -/
def classOf (errs : List (Nat × Nat × Nat)) : Option ErrClass :=
  let rows := errs.map (·.1)
  let cols := errs.map (fun e => e.2.1)
  let words := errs.map (fun e => e.2.2)
  if 4 ≤ distinct rows && 2 ≤ distinct cols then some .bank
  else if cols.any (fun c => 3 ≤ distinct ((errs.filter (fun e => e.2.1 == c)).map (·.1))) then some .column
  else if rows.any (fun r => 3 ≤ distinct ((errs.filter (fun e => e.1 == r)).map (fun e => e.2.2))) then some .row
  else if words.any (fun w => 2 ≤ words.count w) then some .cell
  else none

/-- An error joins the entry of its array and bank, the entry whose last error is newest last; a full table gives up its
first.  The entry keeps the first class that it takes; `cls` is one that the error has of itself (R416). -/
def logError (s : State) (site : ErrSite) (cls : Option ErrClass := none) : State :=
  let c := siteCore site
  let (a, b, row, word) := sitePlace site
  let e := (row, Config.bitColumn s.fresh, word)
  (s.modDie (dieOf c) (fun d =>
    let mine := fun (x : ClsEnt) => x.core == c && x.array == a && x.bank == b
    let old := (d.classifier.find? mine).getD { core := c, array := a, bank := b, errs := [] }
    let errs := old.errs ++ [e]
    let want := old.want.orElse (fun _ => (cls.orElse (fun _ => classOf errs)).map (fun k => (k, word)))
    let rest := d.classifier.filter (fun x => !mine x)
    let rest := if rest.length < 32 then rest else rest.drop 1
    { d with classifier := rest ++ [{ old with errs := errs, want := want }] })).tickFresh

/-! ### Checks (R409 to R411) -/

/-- A cache line of 128 bytes. -/
def inLine (line a : Nat) : Bool := a / 128 == line

/-- The four granules of a line are written poisoned at their home. -/
def poisonLine (s : State) (line : Nat) : State := (List.range 4).foldl (fun s i => addPoison s (128 * line + 32 * i)) s

/-- Bytes of a line are fetched again. -/
def refetch (s : State) (f : State → Nat → State) (line : Nat) : State := (List.range 128).foldl (fun s i => f s (128 * line + i)) s

/-- A line of a view that cannot be read: a clean one is fetched again, a dirty one is lost. -/
def loseLine (s : State) (v : View) (put : State → (List Store) → State) (f : State → Nat → State) (line : Nat) : State :=
  let mine := fun (x : Store) => x.meets (128 * line) 128
  if v.wait.any mine then
    poisonLine (refetch (put s (v.wait.filter (fun x => !mine x))) f line) line
  else refetch s f line

/-- The layout cache of core `c` becomes `q`: what is damaged in it goes where its entry goes. -/
def State.setLayout (s : State) (c : Nat) (q : List LEntry) : State :=
  let old := (s.core c).lcache
  let move := fun (site : ErrSite) => match site with
    | .layout c' i => if c' != c then some site else
        (old[i]?).bind (fun x => (q.findIdx? (fun y => y.asid == x.asid && y.addr == x.addr)).map (.layout c))
    | _ => some site
  let s := s.modCore c (fun x => { x with lcache := q })
  if s.errs.isEmpty then s
  else { s with
    errs := s.errs.filterMap (fun e => (move e.site).map (fun x => { e with site := x }))
    dies := s.dies.map (fun (d, x) => (d, { x with rebuilds := x.rebuilds.filterMap move })) }

/-- A scrub read that waits for the rebuild of a word returns uncorrectable. -/
def loseScrub (s : State) (site : ErrSite) : State :=
  let d := dieOf (siteCore site)
  if (s.die d).scrubs.contains site then
    (noteUncorrAt s site).modDie d (fun x => { x with scrubs := x.scrubs.filter (· != site) })
  else s

/-- What a word that cannot be corrected becomes. -/
def loseWord (s : State) (site : ErrSite) : State :=
  match site with
  | .l1 c line =>
    let dirty := (s.core c).view.wait.any (fun x => x.meets (128 * line) 128)
    let s := (loseLine s (s.core c).view (fun s w => s.modCore c (fun k => { k with view := { k.view with wait := w } }))
      (fun s a => refreshCoreByte s c a) line).mend (fun e => e == site)
    if dirty then noteUncorr s c 1 else noteCorr s site
  | .dcache d line =>
    (loseLine s (s.die d).view (fun s w => s.modDie d (fun k => { k with view := { k.view with wait := w } }))
      (fun s a => refreshDieByte s d a) line).mend (fun e => e == site)
  | .layout c i => noteCorr ((s.mend (fun e => e == site)).setLayout c (dropAt (s.core c).lcache i)) site
  | _ => loseScrub { s with errs := s.errs.map (fun e => if e.site = site then { e with marked := true } else e) } site

/-- The check of a damaged word: it is rebuilt, or marked where another row of its group, or the group's parity row, is damaged too.
A damaged parity row with good rows is logged as a column fault of its group (R416).  DEDUCED (log entry 80): it is then made anew
from the rows. -/
def settleErr (s : State) (site : ErrSite) : State :=
  match s.errs.find? (fun e => e.site == site) with
  | none => s
  | some e =>
    if e.marked then s
    else match site with
      | .parity o =>
        if s.errs.any (fun x => inGroup o x.site) then s
        else (logError s site (some .column)).mend (fun x => x == site)
      | _ =>
        let s := logError s site
        if s.errs.any (fun o => sameGroup site o.site || parityOf site o.site) then loseWord s site
        else noteCorr (s.mend (fun x => x == site)) site

def settleErrs (s : State) (p : ErrSite → Bool) : State := ((s.errs.map (·.site)).filter p).foldl settleErr s

/-- Whether a write of a word waits: the recovery engine of its die rebuilds a word of its group, and the write is not one that
covers that word whole (R410). -/
def State.rebuildHolds (s : State) (site : ErrSite) (whole : Bool := true) : Bool :=
  match (s.die (dieOf (siteCore site))).rebuilds with
  | r :: _ => inGroup r site && !(whole && r == site)
  | [] => false

/-- The damaged lines of core `c`'s path that hold a run of bytes: a read of it waits for their rebuilds (R409, R410). -/
def State.badLines (s : State) (c a n : Nat) : List ErrSite :=
  (s.errs.map (·.site)).filter (fun e => match e with
    | .l1 c' line => c' == c && a / 128 ≤ line && line ≤ (a + n - 1) / 128
    | .dcache d line => d == dieOf c && a / 128 ≤ line && line ≤ (a + n - 1) / 128
    | _ => false)

/-- Their rebuilds are requested. -/
def mendLines (s : State) (c a n : Nat) : State := (s.badLines c a n).foldl requestRebuild s

end Sys2Proof.Machine
end

