-- ==== Sys2Proof/Machine/Push.lean ====
section
/-!
DEFINITION. The ordering machine (spec/15): pushes from part to part, writes of a path, and steps 2 and 3 of a release.
-/

namespace Sys2Proof.Machine

/-! ### Stores that leave a view (R312) -/

/-- The lines of core view `c`, or of die view `d`, that hold stores which leave are checked (spec/23 R409, R411). -/
def checkCore (s : State) (c : Nat) (go : List Store) : State :=
  if s.errs.isEmpty then s
  else settleErrs s (fun e => match e with | .l1 c' line => c' == c && go.any (fun x => x.meets (128 * line) 128) | _ => false)
def checkDie (s : State) (d : Nat) (go : List Store) : State :=
  if s.errs.isEmpty then s
  else settleErrs s (fun e => match e with | .dcache d' line => d' == d && go.any (fun x => x.meets (128 * line) 128) | _ => false)

/-- Pushes stores waiting in die view `d` to their homes. -/
def pushDie (p : Store → Bool) (s : State) (d : Nat) : State :=
  let s := checkDie s d (goes p (s.die d).view.wait)
  let w := (s.die d).view.wait
  let go := goes p w
  let s := s.modDie d (fun x => { x with view := { x.view with wait := stays p w } })
  go.foldl storeHome s

/-- Stores of core view `c` are written at its die view and wait there; `settle` prepares the die view for each (R314 item 4). -/
def passOut (settle : State → Nat → Nat → Nat → State) (p : Store → Bool) (s : State) (c : Nat) : State :=
  let s := checkCore s c (goes p (s.core c).view.wait)
  let w := (s.core c).view.wait
  let d := dieOf c
  (goes p w).foldl (fun s x => (writeDie (settle s d x.pa x.bytes.length) d x.pa x.bytes).modDie d (fun k =>
      { k with view := { k.view with wait := k.view.wait ++ [x] } }))
    (s.modCore c (fun x => { x with view := { x.view with wait := stays p w } }))

/-- Stores lent to die view `d` for the bytes at `a` are written at their homes, with what those lent in turn must follow; `fuel`
bounds how far that goes. -/
def settleBy : Nat → State → Nat → Nat → Nat → State
  | 0, s, _, _, _ => s
  | fuel + 1, s, d, a, n =>
    if !s.lentTo d a n then s
    else
      let p := fun (x : Store) => x.lent.contains d && x.meets a n
      let s := (s.cores.map (·.1)).foldl (passOut (settleBy fuel) p) s
      ((s.dies.map (·.1)).filter (· != d)).foldl (pushDie p) s

/-- Before die view `d` takes a later value of the bytes at `a`, stores lent to it are written at their homes (R314 item 4). -/
def settleLent (s : State) (d a n : Nat) : State := settleBy (s.waits.length + 1) s d a n

/-- A store that leaves a core view is written at die view `d` and waits there. -/
def enterDie (s : State) (d : Nat) (x : Store) : State :=
  (writeDie (settleLent s d x.pa x.bytes.length) d x.pa x.bytes).modDie d (fun k =>
    { k with view := { k.view with wait := k.view.wait ++ [x] } })

/-- Pushes stores waiting in core view `c` to its die view. -/
def pushCore (p : Store → Bool) (s : State) (c : Nat) : State := passOut settleLent p s c

/-- What waits on core `c`'s path for the bytes at `a`, or has been lent to its die, is written at the home. -/
def pushBytes (s : State) (c a n : Nat) : State :=
  let p := fun x => Store.meets x a n
  settleLent (pushDie p (pushCore p s c) (dieOf c)) (dieOf c) a n

/-- A write at the home and at the die view and core view of core `c`, in one step; what waits there for the bytes goes first,
since the new value takes the next place in coherence order (R314 item 4, R326). -/
def writePath (s : State) (c a : Nat) (bs : List Byte) : State :=
  writeCore (writeDie (writeHome (pushBytes s c a bs.length) a bs) (dieOf c) a bs) c a bs

/-- The stores that a release of group `k` writes outward: its own and, of anyone, those on RC and SO pages (R319). -/
def Store.carried (k : Nat) (x : Store) : Bool := x.group == k || x.kind != .uo

/-- The stores that wait on the path of core `c`, oldest first for each byte. -/
def State.onPath (s : State) (c : Nat) : List Store := (s.die (dieOf c)).view.wait ++ (s.core c).view.wait

/-- The stores that wait anywhere and have been lent. -/
def State.lenders (s : State) : List Store := s.waits.filter (fun x => !x.lent.isEmpty)

/-- Whether writing what `p` selects on the path of core `c` to the die view, and on to the homes where `home`, would write a store
that cannot reach its home yet; `own` says that the store buffers of the groups that `p` selects go first. -/
def State.heldBy (s : State) (c : Nat) (own : Store → Bool) (home : Bool) (p : Store → Bool) : Bool :=
  let out := goes p (s.onPath c)
  (home && out.any (fun x => s.barred (own x) out.contains x)) ||
    s.lenders.any (fun y => s.barred false (fun _ => false) y && out.any (fun x => x.near y))

/-- The same of a write of `n` bytes at `a` on the path of core `c`. -/
def State.clogged (s : State) (c a n : Nat) : Bool :=
  s.heldBy c (fun _ => false) true (fun x => x.meets a n) ||
    s.lenders.any (fun y => y.meets (a / 8 * 8) ((a + n + 7) / 8 * 8 - a / 8 * 8) && s.barred false (fun _ => false) y)

/-- Steps 2 and 3 of R319 beyond the store buffer, for group `k` of core `c`. -/
def pushPath (s : State) (c k : Nat) (sc : Scope) : State :=
  let p := Store.carried k
  match sc with
  | .group | .team => s
  | .cluster | .die => pushCore p s c
  | .device | .system => pushDie p (pushCore p s c) (dieOf c)

end Sys2Proof.Machine
end

