-- ==== Sys2Proof/Machine/Xlat.lean ====
section
/-!
DEFINITION. Addresses and translation (spec/12 R239 to R246): descriptors, the five-level walk, entries, generations and
cached translations.
-/

namespace Sys2Proof.Machine

/-- What an access asks of a page. -/
inductive Want where | read | write | both | fetch
  deriving DecidableEq, Repr

/-- A translated byte: its physical address and its page's kind. -/
structure Phys where
  pa : Nat
  kind : PageKind
  gen : W32
  deriving DecidableEq, Repr

/-- A leaf found by a walk: virtual page base, size, the entry. -/
structure Leaf where
  page : Nat
  size : Nat
  pte : Nat
  deriving DecidableEq, Repr

/-- A field of a number. -/
def nbits (w hi lo : Nat) : Nat := w / 2 ^ lo % 2 ^ (hi + 1 - lo)

/-- The five levels, outermost first: low index bit, index width, whether a leaf is permitted, whether only a leaf is. -/
def levels : List (Nat × Nat × Bool × Bool) :=
  [(48, 9, false, false), (39, 9, false, false), (30, 9, true, false), (21, 9, true, false), (16, 5, true, true)]

/-- Whether an entry that is not a leaf has all its reserved bits zero (R242). -/
def tableEntryOk (e : Nat) : Bool := nbits e 11 2 == 0 && nbits e 63 52 == 0

/-- Whether a leaf of page size `2^lo` is accepted (R242). -/
def leafOk (e lo : Nat) : Bool :=
  nbits e 11 8 == 0 && nbits e 53 52 == 0 && nbits e 63 59 == 0 && nbits e 7 6 != 3 && nbits e (lo - 1) 12 == 0 &&
    (match targetOf (nbits e 51 12 * 4096) with
    | .heap h => nbits e 58 54 == h
    | .host => nbits e 58 54 == 24
    | .peer _ => nbits e 58 54 == 25
    | .nowhere => false)

/-- The walk below a table at `tab` (R241): a leaf, or the cause of R246. -/
def walk (s : State) (va tab : Nat) : List (Nat × Nat × Bool × Bool) → Except Nat Leaf
  | [] => .error 4
  | (lo, w, leafAllowed, leafOnly) :: rest =>
    let a := tab + 8 * (va / 2 ^ lo % 2 ^ w)
    if !inHeap a 8 then .error 5
    else match readHome s a 8 with
      | none => .error 5
      | some e =>
        if !e.testBit 0 then .error 2
        else if e.testBit 1 then
          if leafAllowed && leafOk e lo then .ok ⟨va / 2 ^ lo * 2 ^ lo, 2 ^ lo, e⟩ else .error 4
        else if leafOnly || !tableEntryOk e then .error 4
        else walk s va (nbits e 51 12 * 4096) rest

/-- The descriptor of an address space and the walk from its root (R240, R241). -/
def findLeaf (s : State) (asid va : Nat) : Except Nat Leaf :=
  let d := nbits s.sup.astable.toNat 51 12 * 4096 + 16 * asid
  if !inHeap d 16 then .error 5
  else match readHome s d 8, readHome s (d + 8) 8 with
    | some r, some r' =>
      if !r.testBit 0 || nbits r 11 1 != 0 || nbits r 63 52 != 0 || r' != 0 then .error 2
      else walk s va (nbits r 51 12 * 4096) levels
    | _, _ => .error 5

/-- Permission of a leaf (R242, R246): U is checked for user accesses of the group itself. -/
def allowed (pte : Nat) (w : Want) (user : Bool) : Bool :=
  (!user || pte.testBit 5) &&
    match w with
    | .read => pte.testBit 2
    | .write => pte.testBit 3
    | .both => pte.testBit 2 && pte.testBit 3
    | .fetch => pte.testBit 4

def kindOf (pte : Nat) : PageKind :=
  match nbits pte 7 6 with
  | 0 => .rc
  | 1 => .so
  | _ => .uo

/-- A cached translation that serves an access of core `c` (R243, R244): one made under the current generation. -/
def cachedLeaf (s : State) (c asid va : Nat) : Option Leaf :=
  firstSome (fun (e : TlbEnt) =>
    if e.asid = asid && e.gen == s.gen asid && e.page ≤ va && va < e.page + e.size then
      some ⟨e.page, e.size, e.leaf.toNat⟩
    else none) (s.core c).tlb

/-- The translation of one address for core `c` (R246): where it leads, or the cause of failure. -/
def xlat (s : State) (c asid va : Nat) (w : Want) (user : Bool) : Except Nat Phys :=
  if 2 ^ 57 ≤ va then .error 1
  else match (match cachedLeaf s c asid va with
    | some l => Except.ok l
    | none => findLeaf s asid va) with
    | .error e => .error e
    | .ok l =>
      if allowed l.pte w user then
        .ok ⟨nbits l.pte 51 12 * 4096 + (va - l.page), kindOf l.pte, s.gen asid⟩
      else .error 3

/-- The core TLB after an address was translated: valid entries are kept, 2048 at most, the newest first. -/
def noteXlat (s : State) (c asid va : Nat) : State :=
  match cachedLeaf s c asid va with
  | some _ => s
  | none =>
    if 2 ^ 57 ≤ va then s
    else match findLeaf s asid va with
      | .error _ => s
      | .ok l => s.modCore c (fun x =>
          { x with tlb := (⟨asid, l.page, l.size, BitVec.ofNat 64 l.pte, s.gen asid⟩ :: x.tlb).take 2048 })

/-- The bytes of an access of `n` bytes that lie on the first byte's page: an access is split at a page boundary
(R256), and every page is a multiple of 64 KiB. -/
def firstPart (va n : Nat) : Nat := min n (65536 - va % 65536)

end Sys2Proof.Machine
end

