-- ==== Sys2Proof/Machine/Regs.lean ====
section
/-!
DEFINITION. Registers of a group: reading and writing scalars, lane registers and predicates, liveness and emptiness
(spec/04 R69 to R73, spec/05 R94 to R104).
-/

namespace Sys2Proof.Machine

/-! ### Masks -/

def Group.lanes (g : Group) : Nat := 192 * g.id.foot

/-- Every lane of a footprint of `k` sectors. -/
def footMask (k : Nat) : Mask := BitVec.ofNat 768 (2 ^ (192 * k) - 1)

def Group.full (g : Group) : Mask := footMask g.id.foot

/-- Predicate q (R69): q0 is true in every lane. -/
def Group.pred (g : Group) (q : Nat) : Mask :=
  if q = 0 then g.full else (g.regs.p.getD (q - 1) 0) &&& g.full

/-- The effective mask of R71. -/
def Group.eff (g : Group) (q : Nat) : Mask := g.full &&& g.pred q &&& g.alive

def bit (m : Mask) (l : Nat) : Bool := m.getLsbD l

/-- The lanes of a mask in ascending order. -/
def lanesOf (n : Nat) (m : Mask) : List Nat := (List.range n).filter (bit m)

/-! ### Liveness -/

def Group.live (g : Group) : Reg → Bool
  | .s n => n == 0 || g.regs.slive.getLsbD n
  | .v n => g.regs.vlive.getLsbD n

def Group.empty (g : Group) : Reg → Bool
  | .s n => n != 0 && g.regs.sempty.getLsbD n
  | .v n => g.regs.vempty.getLsbD n

def Group.pinned (g : Group) (n : Nat) : Bool := g.regs.pin.getLsbD n

def setBit {w : Nat} (b : BitVec w) (n : Nat) (x : Bool) : BitVec w :=
  if x then b ||| BitVec.ofNat w (2 ^ n) else b &&& ~~~(BitVec.ofNat w (2 ^ n))

def Group.setLive (g : Group) (r : Reg) (x : Bool) : Group :=
  match r with
  | .s n => if n = 0 then g else { g with regs := { g.regs with slive := setBit g.regs.slive n x } }
  | .v n => { g with regs := { g.regs with vlive := setBit g.regs.vlive n x } }

def Group.setEmpty (g : Group) (r : Reg) (x : Bool) : Group :=
  match r with
  | .s n => if n = 0 then g else { g with regs := { g.regs with sempty := setBit g.regs.sempty n x } }
  | .v n => { g with regs := { g.regs with vempty := setBit g.regs.vempty n x } }

/-! ### Values -/

def Group.sreg (g : Group) (n : Nat) : Word := if n = 0 then 0 else g.regs.s.getD n 0
def Group.vreg (g : Group) (n l : Nat) : Word := (g.regs.v.getD n []).getD l 0

def Group.putS (g : Group) (n : Nat) (x : Word) : Group :=
  { g with regs := { g.regs with s := setPad 0 g.regs.s n x } }
def Group.putV (g : Group) (n : Nat) (x : List Word) : Group :=
  { g with regs := { g.regs with v := setPad [] g.regs.v n x } }

/-- Discards what producers in flight would write to `r` (R104, R117). -/
def Group.discard (g : Group) (r : Reg) : Group :=
  let f := fun (a : Access) => if a.dest = some r then { a with dest := none } else a
  { g with accs := g.accs.map f, log := { g.log with access := g.log.access.map f } }

/-- Writes a scalar: it becomes live and full; s0 discards its writes (R69, R97). -/
def Group.setS (g : Group) (n : Nat) (x : Word) : Group :=
  if n = 0 then g else ((g.putS n x).setLive (.s n) true).setEmpty (.s n) false

/-- The lane values of register `n` after a write of `f` in the lanes of `m`: a lane that is not written keeps its value,
or holds zero where the register was dead before the instruction (R71, R97). -/
def Group.merged (g : Group) (n : Nat) (m : Mask) (f : Nat → Word) : List Word :=
  tabulate g.lanes (fun l => if bit m l then f l else if g.live (.v n) then g.vreg n l else 0)

/-- Writes lane register `n` in the lanes of `m`; `old` is the group before the instruction. -/
def Group.setV (g old : Group) (n : Nat) (m : Mask) (f : Nat → Word) : Group :=
  ((g.putV n (old.merged n m f)).setLive (.v n) true).setEmpty (.v n) false

/-- Writes predicate `q` in the lanes of `m`; a write of q0 has no effect (R69). -/
def Group.setP (g : Group) (q : Nat) (m : Mask) (f : Nat → Bool) : Group :=
  if q = 0 then g
  else
    let old := g.regs.p.getD (q - 1) 0
    let new := maskOf g.lanes (fun l => if bit m l then f l else bit old l)
    { g with regs := { g.regs with p := setPad 0 g.regs.p (q - 1) new } }

/-- Marks the destination of a producer empty at issue (R104); `old` is the group before the instruction. -/
def Group.await (g old : Group) : Reg → Group
  | .s n => if n = 0 then g else ((g.setLive (.s n) true).setEmpty (.s n) true)
  | .v n => ((g.putV n (old.merged n 0 (fun _ => 0))).setLive (.v n) true).setEmpty (.v n) true

/-- Frees a register: it becomes dead (R98, R117). -/
def Group.free (g : Group) (r : Reg) : Group :=
  match r with
  | .s n => if n = 0 then g else (((g.putS n 0).setLive r false).setEmpty r false).discard r
  | .v n => (((g.putV n []).setLive r false).setEmpty r false).discard r

def Group.freeAll (g : Group) (rs : List Reg) : Group := rs.foldl Group.free g

/-- The signed value of a word's low `w` bits. -/
def sval (w : Nat) (x : Nat) : Int :=
  let y := x % 2 ^ w
  if y < 2 ^ (w - 1) then (y : Int) else (y : Int) - 2 ^ w

/-- The low `w` bits of an integer. -/
def wrap (w : Nat) (i : Int) : Nat := (i % 2 ^ w).toNat

/-- Sign extension and zero extension of the low `w` bits to 64. -/
def sext64 (w : Nat) (x : Nat) : Word := BitVec.ofInt 64 (sval w x)
def zext64 (w : Nat) (x : Nat) : Word := BitVec.ofNat 64 (x % 2 ^ w)

end Sys2Proof.Machine
end

