-- ==== Sys2Proof/Machine/Flags.lean ====
section
/-!
DEFINITION. Number formats, rounding and exception flags (spec/08 R164 to R183).  A number is exact: a sign, a magnitude
`m * 2^e`, and whether the magnitude exceeds that by less than `2^e` (a quotient or a root cut off far below the last
place of every format).
-/

namespace Sys2Proof.Machine

/-! ### Flags (R151, R180) -/

abbrev Fx := BitVec 5

def fxNone : Fx := 0
def fxInvalid : Fx := 1
def fxDivZero : Fx := 2
def fxOverflow : Fx := 4
def fxUnderflow : Fx := 8
def fxInexact : Fx := 16

/-- Flags are ORed into FPX.FLAGS (R180). -/
def Group.addFlags (g : Group) (f : Fx) : Group := if f = fxNone then g else g.take (.flags f)

/-- FPX.FLAGS that MODE.FPTRAP enables (R181). -/
def Group.enabledFlags (g : Group) : Nat := (g.sys.fpx.toNat % 32) &&& (bits g.sys.mode 8 4)

/-! ### Modes (R168) -/

inductive Rnd where | rne | rz | ru | rd | rs
  deriving DecidableEq, Repr

/-- MODE.RND; the unlisted values are never written. -/
def Group.modeRnd (g : Group) : Rnd :=
  match bits g.sys.mode 2 0 with
  | 1 => .rz
  | 2 => .ru
  | 3 => .rd
  | 4 => .rs
  | _ => .rne

/-- The mode an RM field chooses (spec/04 R75). -/
def Group.rnd (g : Group) (r : Rm) : Rnd :=
  match r with
  | .mode => g.modeRnd
  | .rn => .rne
  | .rz => .rz
  | .rs => .rs

/-- One step of the generator (R173). -/
def lfsrStep (s : W32) : W32 := if s.getLsbD 0 then (s >>> 1) ^^^ 0x80200003 else s >>> 1

/-- The draw for element `i` under the stepped state (R174). -/
def draw (s : W32) (i : Nat) : Nat := bits ((s ^^^ BitVec.ofNat 32 (i * 0x9E3779B9)) * 0x85EBCA6B) 31 16

/-- The generator after an instruction that rounds in mode `m`. -/
def stepped (m : Rnd) (s : W32) : W32 := if m = .rs then lfsrStep s else s

/-! ### Exact numbers -/

inductive Num where
  | nan
  | inf (neg : Bool)
  | fin (neg : Bool) (m : Nat) (e : Int) (more : Bool)
  deriving DecidableEq, Repr

def Num.zero (neg : Bool) : Num := .fin neg 0 0 false
def Num.ofInt (i : Int) : Num := .fin (i < 0) i.natAbs 0 false

def Num.neg : Num → Num
  | .nan => .nan
  | .inf s => .inf (!s)
  | .fin s m e b => .fin (!s) m e b

def Num.isNan : Num → Bool
  | .nan => true
  | _ => false

def Num.isZero : Num → Bool
  | .fin _ m _ more => m == 0 && !more
  | _ => false

def Num.isNeg : Num → Bool
  | .nan => false
  | .inf s => s
  | .fin s _ _ _ => s

def Num.abs : Num → Num
  | .nan => .nan
  | .inf _ => .inf false
  | .fin _ m e b => .fin false m e b

/-! ### Formats (R165, R166) -/

inductive Fmt where | f32 | f16 | bf16 | e4m3 | e5m2 | e2m1
  deriving DecidableEq, Repr

def Fmt.width : Fmt → Nat
  | .f32 => 32
  | .f16 | .bf16 => 16
  | .e4m3 | .e5m2 => 8
  | .e2m1 => 4

/-- Width of the significand field. -/
def Fmt.mw : Fmt → Nat
  | .f32 => 23
  | .f16 => 10
  | .bf16 => 7
  | .e4m3 => 3
  | .e5m2 => 2
  | .e2m1 => 1

def Fmt.bias : Fmt → Nat
  | .f32 | .bf16 => 127
  | .f16 | .e5m2 => 15
  | .e4m3 => 7
  | .e2m1 => 1

/-- The code of the greatest finite magnitude. -/
def Fmt.maxCode : Fmt → Nat
  | .f32 => 0x7F7FFFFF
  | .f16 => 0x7BFF
  | .bf16 => 0x7F7F
  | .e4m3 => 0x7E
  | .e5m2 => 0x7B
  | .e2m1 => 7

/-- The code of infinity, where the format has one. -/
def Fmt.infCode : Fmt → Option Nat
  | .f32 => some 0x7F800000
  | .f16 => some 0x7C00
  | .bf16 => some 0x7F80
  | .e5m2 => some 0x7C
  | .e4m3 | .e2m1 => none

/-- The canonical NaN; for e2m1, which has none, code 0 (spec/09 R196). -/
def Fmt.nanCode : Fmt → Nat
  | .f32 => 0x7FC00000
  | .f16 => 0x7E00
  | .bf16 => 0x7FC0
  | .e4m3 => 0x7F
  | .e5m2 => 0x7E
  | .e2m1 => 0

def Fmt.signed (f : Fmt) (neg : Bool) (mag : Nat) : Nat := mag + if neg then 2 ^ (f.width - 1) else 0

/-- The value a code stands for (R165); the e2m1 code 0b1000 reads as +0 outside a block. -/
def Fmt.decode (f : Fmt) (code : Nat) : Num :=
  let c := code % 2 ^ f.width
  let neg := 2 ^ (f.width - 1) ≤ c
  let mag := c % 2 ^ (f.width - 1)
  let ex := mag / 2 ^ f.mw
  let mm := mag % 2 ^ f.mw
  if f == .e2m1 && c == 8 then .zero false
  else if f.maxCode < mag then (if f.infCode = some mag then .inf neg else .nan)
  else if ex == 0 then .fin neg mm (1 - (f.bias : Int) - f.mw) false
  else .fin neg (mm + 2 ^ f.mw) ((ex : Int) - f.bias - f.mw) false

/-- Signalling NaNs exist in f32, f16 and bf16: top significand bit 0 (R166). -/
def Fmt.snan (f : Fmt) (code : Nat) : Bool :=
  (f == .f32 || f == .f16 || f == .bf16) && (f.decode code).isNan && !(code.testBit (f.mw - 1))

/-! ### Rounding (R169 to R172) -/

/-- Whether `choose` takes the neighbour of larger magnitude: the discarded part is `rem / 2^s`, and more where `more`;
`odd` says whether the nearer-zero neighbour's last bit is 1, `r` is the draw. -/
def chooseUp (m : Rnd) (neg odd : Bool) (rem s : Nat) (more : Bool) (r : Nat) : Bool :=
  match m with
  | .rne => 2 ^ s < 2 * rem || (2 * rem == 2 ^ s && (more || odd))
  | .rz => false
  | .ru => !neg
  | .rd => neg
  | .rs => r < rem * 65536 / 2 ^ s

/-- `overflow(sign, fmt, rm, sat)` of R169. -/
def Fmt.overflow (f : Fmt) (neg : Bool) (m : Rnd) (sat : Bool) : Nat :=
  let away := match m with
    | .rne | .rs => true
    | .ru => !neg
    | .rd => neg
    | .rz => false
  if sat || !away then f.signed neg f.maxCode
  else match f with
    | .e4m3 => f.signed neg 0x7F
    | .e2m1 => f.signed neg 7
    | f => f.signed neg (f.infCode.getD f.maxCode)

/-- Floor of a base-2 logarithm of a magnitude `m * 2^e`, `m` not zero. -/
def ilog (m : Nat) (e : Int) : Int := (Nat.log2 m : Int) + e

/-- A zero of a format: e2m1 has only +0 (R167). -/
def Fmt.zeroCode (f : Fmt) (neg : Bool) : Nat := if f == .e2m1 then 0 else f.signed neg 0

/-- `round(x, fmt, rm, sat)` for a floating format, with the draw `r` (R169). -/
def Fmt.round (f : Fmt) (x : Num) (m : Rnd) (r : Nat) (sat : Bool) : Nat × Fx :=
  match x with
  | .nan => (f.nanCode, fxInvalid)
  | .inf neg =>
    match f.infCode with
    | some c => if sat then (f.overflow neg m sat, fxNone) else (f.signed neg c, fxNone)
    | none => (f.overflow neg m sat, fxNone)
  | .fin neg mag e more =>
    if mag == 0 then (f.zeroCode neg, if more then fxInexact ||| fxUnderflow else fxNone)
    else
      let emin : Int := 1 - (f.bias : Int)
      let q : Int := max (ilog mag e) emin - f.mw
      let s : Nat := (q - e).toNat
      let scaled : Nat := mag * 2 ^ (e - q).toNat
      let lo := scaled / 2 ^ s
      let rem := scaled % 2 ^ s
      let exact := rem == 0 && !more
      let up := !exact && chooseUp m neg (lo % 2 == 1) rem s more r
      let y := if up then lo + 1 else lo
      let code := (q - (emin - f.mw)).toNat * 2 ^ f.mw + y
      if f.maxCode < code then (f.overflow neg m sat, fxOverflow ||| fxInexact)
      else
        let tiny := !exact && code < 2 ^ f.mw
        (if code == 0 then f.zeroCode neg else f.signed neg code,
          (if exact then fxNone else fxInexact) ||| (if tiny then fxUnderflow else fxNone))

/-- The rounding of an exact number to an integer, before saturation, and whether it is inexact. -/
def roundToInt (x : Num) (m : Rnd) (r : Nat) : Int × Bool :=
  match x with
  | .nan | .inf _ => (0, false)
  | .fin neg mag e more =>
    let s := (-e).toNat
    let scaled := mag * 2 ^ e.toNat
    let lo := scaled / 2 ^ s
    let rem := scaled % 2 ^ s
    let exact := rem == 0 && !more
    let y := if !exact && chooseUp m neg (lo % 2 == 1) rem s more r then lo + 1 else lo
    (if neg then -(y : Int) else y, !exact)

/-- `roundint(x, fmt, rm)` for a `w`-bit integer type (R170): the bits and the flags. -/
def roundInt (w : Nat) (isSigned : Bool) (x : Num) (m : Rnd) (r : Nat) : Nat × Fx :=
  let lo : Int := if isSigned then -(2 ^ (w - 1)) else 0
  let hi : Int := if isSigned then 2 ^ (w - 1) - 1 else 2 ^ w - 1
  match x with
  | .nan => (0, fxInvalid)
  | .inf neg => (wrap w (if neg then lo else hi), fxInvalid)
  | x =>
    let (y, inexact) := roundToInt x m r
    if y < lo then (wrap w lo, fxInvalid)
    else if hi < y then (wrap w hi, fxInvalid)
    else (wrap w y, if inexact then fxInexact else fxNone)

/-! ### Exact arithmetic (R167, R171) -/

/-- The signed integer that a finite number is in units of `2^q`, `q` at most its exponent. -/
def Num.units (neg : Bool) (m : Nat) (e q : Int) : Int :=
  let v : Int := m * 2 ^ (e - q).toNat
  if neg then -v else v

/-- A sum, exact: the result and whether the operation is invalid. -/
def Num.add (m : Rnd) (a b : Num) : Num × Fx :=
  match a, b with
  | .nan, _ => (.nan, fxNone)
  | _, .nan => (.nan, fxNone)
  | .inf s, .inf t => if s == t then (.inf s, fxNone) else (.nan, fxInvalid)
  | .inf s, _ => (.inf s, fxNone)
  | _, .inf t => (.inf t, fxNone)
  | .fin s x e _, .fin t y f _ =>
    if x == 0 && y == 0 then (.zero (if s == t then s else m == .rd), fxNone)
    else
      let q := min e f
      let v := Num.units s x e q + Num.units t y f q
      if v == 0 then (.zero (m == .rd), fxNone) else (.fin (v < 0) v.natAbs q false, fxNone)

/-- A product, exact. -/
def Num.mul (a b : Num) : Num × Fx :=
  match a, b with
  | .nan, _ => (.nan, fxNone)
  | _, .nan => (.nan, fxNone)
  | .inf s, .inf t => (.inf (s != t), fxNone)
  | .inf s, .fin t y _ _ => if y == 0 then (.nan, fxInvalid) else (.inf (s != t), fxNone)
  | .fin s x _ _, .inf t => if x == 0 then (.nan, fxInvalid) else (.inf (s != t), fxNone)
  | .fin s x e _, .fin t y f _ => (.fin (s != t) (x * y) (e + f) false, fxNone)

/-- A quotient, cut off far below the last place of every format. -/
def Num.div (a b : Num) : Num × Fx :=
  match a, b with
  | .nan, _ => (.nan, fxNone)
  | _, .nan => (.nan, fxNone)
  | .inf _, .inf _ => (.nan, fxInvalid)
  | .inf s, .fin t _ _ _ => (.inf (s != t), fxNone)
  | .fin s _ _ _, .inf t => (.zero (s != t), fxNone)
  | .fin s x e _, .fin t y f _ =>
    if y == 0 then (if x == 0 then (.nan, fxInvalid) else (.inf (s != t), fxDivZero))
    else if x == 0 then (.zero (s != t), fxNone)
    else
      let k := 96 + Nat.log2 y
      let n := x * 2 ^ k
      (.fin (s != t) (n / y) (e - f - k) (n % y != 0), fxNone)

/-- The integer square root by bits, from bit `i` down. -/
def isqrtBits (n : Nat) : Nat → Nat → Nat
  | 0, r => r
  | i + 1, r =>
    let r' := r + 2 ^ i
    isqrtBits n i (if r' * r' ≤ n then r' else r)

def isqrt (n : Nat) : Nat := isqrtBits n (Nat.log2 n / 2 + 1) 0

/-- A square root, cut off far below the last place of every format. -/
def Num.sqrt (a : Num) : Num × Fx :=
  match a with
  | .nan => (.nan, fxNone)
  | .inf s => if s then (.nan, fxInvalid) else (.inf false, fxNone)
  | .fin s x e _ =>
    if x == 0 then (.zero s, fxNone)
    else if s then (.nan, fxInvalid)
    else
      let k := 128 + (e % 2).toNat
      let n := x * 2 ^ k
      let r := isqrt n
      (.fin false r ((e - k) / 2) (r * r != n), fxNone)

/-! ### Comparison of numbers -/

/-- Whether a number is below another; false where either is NaN. -/
def Num.lt (a b : Num) : Bool :=
  match a, b with
  | .nan, _ => false
  | _, .nan => false
  | .inf s, .inf t => s && !t
  | .inf s, _ => s
  | _, .inf t => !t
  | .fin s x e _, .fin t y f _ =>
    let q := min e f
    Num.units s x e q < Num.units t y f q

def Num.eq (a b : Num) : Bool := !a.isNan && !b.isNan && !a.lt b && !b.lt a
def Num.le (a b : Num) : Bool := a.lt b || a.eq b

/-! ### Operations on codes of one format -/

/-- The invalid flag of reading a signalling NaN (R171). -/
def Fmt.sig (f : Fmt) (l : List Nat) : Fx := if l.any f.snan then fxInvalid else fxNone

/-- A result that is an input taken over without an operation: a NaN becomes the canonical one, and a signalling one raises invalid
(R166, R171). -/
def Fmt.passed (f : Fmt) (v : Nat) : Nat × Fx := (if (f.decode v).isNan then f.nanCode else v, f.sig [v])

/-- An exact result rounded once, with the flags of the operation. -/
def Fmt.finish (f : Fmt) (x : Num × Fx) (m : Rnd) (r : Nat) : Nat × Fx :=
  let y := f.round x.1 m r false
  (y.1, y.2 ||| x.2)

def Fmt.add (f : Fmt) (m : Rnd) (r a b : Nat) : Nat × Fx :=
  let y := f.finish (Num.add m (f.decode a) (f.decode b)) m r
  (y.1, y.2 ||| f.sig [a, b])

/-- The code with its sign bit flipped. -/
def Fmt.flip (f : Fmt) (a : Nat) : Nat := Nat.xor (a % 2 ^ f.width) (2 ^ (f.width - 1))

def Fmt.sub (f : Fmt) (m : Rnd) (r a b : Nat) : Nat × Fx :=
  let y := f.finish (Num.add m (f.decode a) (f.decode b).neg) m r
  (y.1, y.2 ||| f.sig [a, b])

def Fmt.mul (f : Fmt) (m : Rnd) (r a b : Nat) : Nat × Fx :=
  let y := f.finish (Num.mul (f.decode a) (f.decode b)) m r
  (y.1, y.2 ||| f.sig [a, b])

def Fmt.div (f : Fmt) (m : Rnd) (r a b : Nat) : Nat × Fx :=
  let y := f.finish (Num.div (f.decode a) (f.decode b)) m r
  (y.1, y.2 ||| f.sig [a, b])

def Fmt.sqrt (f : Fmt) (m : Rnd) (r a : Nat) : Nat × Fx :=
  let y := f.finish (Num.sqrt (f.decode a)) m r
  (y.1, y.2 ||| f.sig [a])

/-- `a * b + c` for exact numbers, before rounding; the product's sign is flipped where `np`, the addend's where `nc`. -/
def Num.fma (m : Rnd) (a b c : Num) (np nc : Bool) : Num × Fx :=
  let p := Num.mul a b
  let s := Num.add m (if np then p.1.neg else p.1) (if nc then c.neg else c)
  (s.1, s.2 ||| p.2)

def Fmt.fma (f : Fmt) (m : Rnd) (r a b c : Nat) (np nc : Bool) : Nat × Fx :=
  let y := f.finish (Num.fma m (f.decode a) (f.decode b) (f.decode c) np nc) m r
  (y.1, y.2 ||| f.sig [a, b, c])

end Sys2Proof.Machine
end

