-- ==== Sys2Proof/Machine/Rows.lean ====
section
/-!
DEFINITION. The register caches and the context areas: rows and entries, banks, allocation, eviction and spills, fills,
context page faults (spec/05 R91 to R112).
-/

namespace Sys2Proof.Machine

/-! ### Context areas (R91 to R94) -/

def scalarOff (n : Nat) : Nat := 0x1000 + 8 * n
/-- The dword of lane `l` of lane register `n`. -/
def laneOff (n l : Nat) : Nat := 0x1400 + 0xC000 * (l / 192) + 0x600 * n + 8 * (l % 192)
/-- The sector of a lane register's dword at address `va` of the context of `g`. -/
def sectorAt (g : Group) (va : Nat) : Nat := (va - g.id.base - 0x1400) / 0xC000
/-- The dword of log row `j` for lane `l` in a context of `k` sectors (spec/12 R261). -/
def logRowOff (k j l : Nat) : Nat := 0x1400 + 0xC000 * k + 0xC00 * (l / 192) + 0x600 * j + 8 * (l % 192)

/-- Reads one dword of the context of `g`: the address of a failure with its cause (1 or 2 a translation failure, 4 an
uncorrectable error). -/
def ctxLoad (s : State) (g : Group) (va : Nat) : Except (Nat × Bool) Nat :=
  match xlat s g.id.core g.id.asid va .both false with
  | .error _ => .error (va, false)
  | .ok p =>
    match readHome s p.pa 8 with
    | none => .error (va, true)
    | some v => .ok v

/-- Writes one dword of the context of `g`, at device scope. -/
def ctxStore (s : State) (g : Group) (va v : Nat) : Except (Nat × Bool) State :=
  match xlat s g.id.core g.id.asid va .both false with
  | .error _ => .error (va, false)
  | .ok p =>
    match storePoison s p.pa 8 with
    | none => .ok (writePath s g.id.core p.pa (leBytes 8 v))
    | some _ => .error (va, true)

/-- Writes a run of dwords from `va`. -/
def ctxStoreAll (s : State) (g : Group) (va : Nat) : List Nat → Except (Nat × Bool) State
  | [] => .ok s
  | v :: t =>
    match ctxStore s g va v with
    | .error e => .error e
    | .ok s => ctxStoreAll s g (va + 8) t

/-- Reads `n` dwords from `va`. -/
def ctxLoadAll (s : State) (g : Group) (va : Nat) : Nat → Except (Nat × Bool) (List Nat)
  | 0 => .ok []
  | n + 1 =>
    match ctxLoad s g va with
    | .error e => .error e
    | .ok v =>
      match ctxLoadAll s g (va + 8) n with
      | .error e => .error e
      | .ok l => .ok (v :: l)

/-- Posts a system event; it waits in order of arising (spec/21 R382). -/
def postEvent (s : State) (e : SysEvent) : State := { s with sysev := s.sysev ++ [e] }

/-- Group `k` holds no position of its core's active set. -/
def leaveActive (s : State) (c k : Nat) : State :=
  s.modCore c (fun x => { x with active := x.active.map (fun a => if a = some k then none else a) })

/-- The state that a group in GSTATE 3 came from and returns to: one of the active set is pending meanwhile (R113). -/
def Group.cameFrom (g : Group) : GState :=
  match g.gstate with
  | .ctxFault => g.before
  | .active => .pending
  | x => x

/-- A group in GSTATE 3, with the access to make again. -/
def Group.faulted (g : Group) (cause va : Nat) (h : Held) : Group :=
  { g with
    gstate := .ctxFault, before := g.cameFrom, cfcause := cause, cfaddr := va
    held := if g.held.contains h then g.held else g.held ++ [h] }

/-- A context page fault of group `k` (R106): GSTATE 3, which leaves the active set (R113), CFCAUSE, CFADDR, the event, and
the access to make again. -/
def ctxFault (s : State) (k cause va : Nat) (h : Held) : State :=
  match s.group k with
  | none => s
  | some g =>
    postEvent (leaveActive (s.setGroup k (g.faulted cause va h)) g.id.core k)
      { kind := 1, core := g.id.core, asid := g.id.asid, base := g.id.base, addr := va, cause := cause }

/-- CFCAUSE of a failed context access: 4 where an error cannot be corrected. -/
def cfCause (uncorr : Bool) (other : Nat) : Nat := if uncorr then 4 else other

/-! ### Banks (R107 to R110) -/

def Core.lstate (c : Core) (bank : Nat) : Bank := Tab.getD c.lbank bank .off
def Core.pstate (c : Core) (bank : Nat) : Bank := Tab.getD c.pbank bank .off

/-- The lane bank of row index `64 * sector + row`. -/
def laneBank (i : Nat) : Nat := i / 8

/-- An allocation or access wakes its bank (R109). -/
def wakeBank (b : Bank) : Bank :=
  match b with
  | .off => .waking
  | .retention => .rousing
  | x => x

/-- A bank that is full, or will be once its wake latency has passed: the state that R109's table moves it to. -/
def Bank.up (b : Bank) : Bool :=
  match b with
  | .full | .waking | .rousing => true
  | _ => false

/-- A bank whose wake latency has not passed. -/
def Bank.wakes (b : Bank) : Bool :=
  match b with
  | .waking | .rousing => true
  | _ => false

def Core.wakeL (c : Core) (bank : Nat) : Core := { c with lbank := Tab.set c.lbank bank (wakeBank (c.lstate bank)) }
def Core.wakeP (c : Core) (bank : Nat) : Core := { c with pbank := Tab.set c.pbank bank (wakeBank (c.pstate bank)) }

/-- A read, a scroll or an engine's access wakes a plane bank from retention (R109). -/
def Core.readP (c : Core) (bank : Nat) : Core := if c.pstate bank == .retention then c.wakeP bank else c

/-- A plane bank wakes for a write that waits for it; it stays on until a word of it has been live (R109). -/
def Core.rouseP (c : Core) (bank : Nat) : Core :=
  ({ c with roused := if c.pstate bank == Bank.off && !c.roused.contains bank then c.roused ++ [bank] else c.roused }).wakeP bank

/-- A lane bank none of whose rows is allocated goes off (R109). -/
def Core.sleepL (c : Core) : Core :=
  { c with lbank := c.lbank.map (fun (b, st) => (b, if c.rows.any (fun r => laneBank r.1 == b) then st else .off)) }

/-! ### Rows and entries -/

/-- The register number a row is allocated under before the instruction that takes it has completed. -/
def freshReg (n : Nat) : Nat := n + 32

/-- Whether a row or entry holds register `n` of group `k`. -/
def RowOwn.is (o : RowOwn) (k n : Nat) : Bool := o.group == k && o.reg == n && !o.kept && !o.vacant

def Core.hasRow (c : Core) (k n x : Nat) : Bool := c.rows.any (fun r => r.2.is k n && r.1 / 64 == x)
def Core.hasEntry (c : Core) (k n : Nat) : Bool := c.sents.any (fun r => r.2.is k n)

/-- Whether a register of group `k` with a footprint of `foot` sectors is cached. -/
def Core.cached (c : Core) (k foot : Nat) : Reg → Bool
  | .s n => n == 0 || c.hasEntry k n
  | .v n => (List.range foot).all (fun x => c.hasRow k n x)

/-- Whether every row of a register lies in a bank that is full. -/
def Core.woken (c : Core) (k : Nat) : Reg → Bool
  | .s _ => true
  | .v n => c.rows.all (fun r => !r.2.is k n || c.lstate (laneBank r.1) == .full)

/-- Whether a bank that holds a row of a register is waking (R110). -/
def Core.wakes (c : Core) (k : Nat) : Reg → Bool
  | .s _ => false
  | .v n => c.rows.any (fun r => r.2.is k n && (c.lstate (laneBank r.1)).wakes)

/-- Wakes the banks that hold a register's rows. -/
def Core.wakeReg (c : Core) (k : Nat) : Reg → Core
  | .s _ => c
  | .v n => c.rows.foldl (fun c r => if r.2.is k n then c.wakeL (laneBank r.1) else c) c

/-- A read of the row of sector `x` of lane register `n` wakes its bank from retention (R109). -/
def Core.readRow (c : Core) (k n x : Nat) : Core :=
  c.rows.foldl (fun c r => if r.2.is k n && r.1 / 64 == x && c.lstate (laneBank r.1) == .retention then c.wakeL (laneBank r.1) else c) c

/-- Whether a register waits for a bank that was off (R110). -/
def Core.wakesLong (c : Core) (k : Nat) : Reg → Bool
  | .s _ => false
  | .v n => c.rows.any (fun r => r.2.is k n && (c.lstate (laneBank r.1) == .off || c.lstate (laneBank r.1) == .waking))

/-- Free rows of sector `x` in ascending order. -/
def Core.freeRows (c : Core) (x : Nat) : List Nat :=
  ((List.range 64).map (fun r => 64 * x + r)).filter (fun i => (Tab.get c.rows i).isNone)

/-- The free row that R100 takes: the lowest in a full bank, then in retention, then off.  DEDUCED (log entry 74): a bank
that wakes counts as full, the state its event moved it to (R109). -/
def Core.pickRow (c : Core) (x : Nat) : Option Nat :=
  let free := c.freeRows x
  let inState := fun (p : Bank → Bool) => free.find? (fun i => p (c.lstate (laneBank i)))
  match inState Bank.up with
  | some i => some i
  | none => match inState (· == .retention) with
    | some i => some i
    | none => free.head?

def Core.freeEntries (c : Core) : List Nat := (List.range 1024).filter (fun i => (Tab.get c.sents i).isNone)

/-- The row of sector `x` that is reserved to pinned register `n` of group `k`, which is not cached (R103). -/
def Core.reservedRow (c : Core) (k n x : Nat) : Option Nat :=
  (c.rows.find? (fun r => r.1 / 64 == x && r.2.group == k && r.2.reg == n && r.2.vacant)).map (·.1)

/-- Takes the reserved row or a free row of sector `x` for register `n` of group `k`; unchanged where there is none. -/
def Core.takeRow (c : Core) (k n x : Nat) (dirty : Bool := true) : Core :=
  match (c.reservedRow k n x).orElse (fun _ => c.pickRow x) with
  | none => c
  | some i => ({ c with rows := Tab.set c.rows i { group := k, reg := n, dirty := dirty, use := c.clk } }).wakeL (laneBank i)

def Core.takeEntry (c : Core) (k n : Nat) (dirty : Bool := true) : Core :=
  match c.freeEntries.head? with
  | none => c
  | some i => { c with sents := Tab.set c.sents i { group := k, reg := n, dirty := dirty, use := c.clk } }

/-- Takes rows or an entry where register `r` of group `k` has none. -/
def Core.claim (c : Core) (k foot : Nat) (r : Reg) (dirty : Bool := true) : Core :=
  match r with
  | .s n => if n = 0 ∨ c.hasEntry k n then c else c.takeEntry k n dirty
  | .v n => (List.range foot).foldl (fun c x => if c.hasRow k n x then c else c.takeRow k n x dirty) c

def Core.mapRows (c : Core) (f : RowOwn → Option RowOwn) : Core :=
  { c with rows := c.rows.filterMap (fun r => (f r.2).map (fun o => (r.1, o))) }

def Core.mapEnts (c : Core) (f : RowOwn → Option RowOwn) : Core :=
  { c with sents := c.sents.filterMap (fun r => (f r.2).map (fun o => (r.1, o))) }

/-- The rows of a register are freed: dropped, or kept with the old value where `keep` (R98). -/
def Core.release (c : Core) (k : Nat) (keep : Bool) (r : Reg) : Core :=
  let f := fun n (o : RowOwn) => if o.is k n then (if keep then some { o with kept := true } else none) else some o
  match r with
  | .s n => c.mapEnts (f n)
  | .v n => c.mapRows (f n)

/-- A register's rows are marked used now, and dirty where `w`; the access wakes their banks (R109). -/
def Core.touch (c : Core) (k : Nat) (w : Bool) (r : Reg) : Core :=
  let f := fun n (o : RowOwn) => if o.is k n then some { o with use := c.clk, dirty := o.dirty || w } else some o
  match r with
  | .s n => c.mapEnts (f n)
  | .v n => (c.mapRows (f n)).wakeReg k r

/-- The rows an instruction has taken for its destination become the register's. -/
def Core.settle (c : Core) (k : Nat) (r : Reg) : Core :=
  let f := fun n (o : RowOwn) => if o.is k (freshReg n) then some { o with reg := n } else some o
  match r with
  | .s n => c.mapEnts (f n)
  | .v n => c.mapRows (f n)

/-- Every kept row and entry of group `k` is freed (R98). -/
def Core.dropKept (c : Core) (k : Nat) : Core :=
  (c.mapRows (fun o => if o.group == k && o.kept then none else some o)).mapEnts
    (fun o => if o.group == k && o.kept then none else some o)

/-- Every row and entry of group `k` leaves the cache; rows of the registers named in `pin` stay reserved to them where
`keepPins` (R103, R119). -/
def Core.dropAll (c : Core) (k : Nat) (pin : BitVec 32) (keepPins : Bool) : Core :=
  (c.mapRows (fun o =>
    if o.group != k then some o
    else if keepPins && !o.kept && pin.getLsbD o.reg then some { o with vacant := true, dirty := false }
    else none)).mapEnts (fun o => if o.group == k then none else some o)

/-! ### Regions (spec/21 R391, R392) -/

/-- Closes the region of group `k`, if one is open. -/
def closeRegion (s : State) (k : Nat) : State :=
  match s.group k with
  | none => s
  | some g =>
    match g.region with
    | none => s
    | some _ => (s.setGroup k { g with region := none }).modCore g.id.core (fun c => c.dropKept k)

/-- Whether register `r`'s value at the entry of an open region is still the register's own. -/
def Group.untouched (g : Group) (r : Reg) : Bool :=
  match g.region with
  | none => false
  | some x => match r with
    | .s n => !x.stouched.getLsbD n && x.regs.slive.getLsbD n
    | .v n => !x.vtouched.getLsbD n && x.regs.vlive.getLsbD n

def Group.noteTouch (g : Group) (r : Reg) : Group :=
  match g.region with
  | none => g
  | some x => match r with
    | .s n => { g with region := some { x with stouched := setBit x.stouched n true } }
    | .v n => { g with region := some { x with vtouched := setBit x.vtouched n true } }

def Core.keptIn (c : Core) (k x : Nat) : Nat :=
  (c.rows.filter (fun r => r.2.group == k && r.2.kept && r.1 / 64 == x)).length
def Core.keptEnts (c : Core) (k : Nat) : Nat := (c.sents.filter (fun r => r.2.group == k && r.2.kept)).length

/-- More than 16 old rows in a sector, or more than 32 old entries (R392). -/
def Core.keepsTooMuch (c : Core) (k : Nat) : Bool :=
  (List.range 4).any (fun x => 16 < c.keptIn k x) || 32 < c.keptEnts k

/-! ### Eviction (R100) -/

/-- The class of a victim's group: dormant first, then pending, then active.  DESIGN CHOICE (log entry 74): R100 names no class
for GSTATE 3, 4 and 5; their rows stand with those of pending groups. -/
def victimClass (s : State) (o : RowOwn) : Nat :=
  match s.group o.group with
  | none => 0
  | some g => match g.gstate with
    | .dormant => 0
    | .active => 2
    | _ => 1

/-- Whether a faulting spill holds this row in place (R106); row `i` of the lane cache lies in sector `i / 64`. -/
def heldRow (s : State) (i : Nat) (o : RowOwn) (lane : Bool) : Bool :=
  match s.group o.group with
  | none => false
  | some g => g.held.any (fun h => match h with
    | .spill (.v n) x => lane && n == o.reg && x == i / 64
    | .spill (.s n) _ => !lane && n == o.reg
    | _ => false)

def lessVictim (s : State) (a b : RowOwn) : Bool :=
  victimClass s a < victimClass s b || (victimClass s a == victimClass s b && a.use < b.use)

/-- The victim among candidate rows: first by class, then least recently used. -/
def bestVictim (s : State) : List (Nat × RowOwn) → Option (Nat × RowOwn)
  | [] => none
  | r :: t =>
    match bestVictim s t with
    | none => some r
    | some b => if lessVictim s b.2 r.2 then some b else some r

/-! ### Errors in the arrays (spec/23 R407 to R411) -/

/-- Errors that lie in the rows or the entry of register `r` of group `k`. -/
def State.regErrs (s : State) (k core : Nat) (r : Reg) : List Err :=
  let c := s.core core
  match r with
  | .s n => s.errs.filter (fun e => match e.site with
      | .scalar c' i => c' == core && (match Tab.get c.sents i with | some o => o.is k n | none => false)
      | _ => false)
  | .v n => s.errs.filter (fun e => match e.site with
      | .lane c' x row _ => c' == core && (match Tab.get c.rows (64 * x + row) with | some o => o.is k n | none => false)
      | _ => false)

/-- The lane of an error in a lane row. -/
def Err.lane (e : Err) : Nat :=
  match e.site with
  | .lane _ x _ cell => 192 * x + cell
  | _ => 0

/-- Whether a write of the lanes `m` of register `r` of group `k` waits for a rebuild of a word of its group of rows that it does not
cover (R410). -/
def State.writeHeld (s : State) (k core foot : Nat) (r : Reg) (m : Nat → Bool := fun _ => true) : Bool :=
  match (s.die (dieOf core)).rebuilds, r with
  | .lane c x row cell :: _, .v n =>
    c == core && x < foot && !(m (192 * x + cell) && match Tab.get (s.core core).rows (64 * x + row) with
      | some o => o.is k n
      | none => false)
  | .scalar c _ :: _, .s n => c == core && (s.core core).sents.any (fun e => e.2.is k n && s.rebuildHolds (.scalar core e.1))
  | _, _ => false

/-- The damaged words of a register, of one sector where `x` names it, are checked before they are read to be spilled (R409). -/
def checkReg (s : State) (k core : Nat) (r : Reg) (x : Option Nat) : State :=
  if s.errs.isEmpty then s
  else
    let bad := (s.regErrs k core r).map (·.site)
    settleErrs s (fun e => bad.contains e && match e, x with | .lane _ y _ _, some z => y == z | _, _ => true)

/-- The granules of a run of a context area that was written whole: poisoned where they hold a marked dword. -/
def poisonRun (s : State) (g : Group) (va : Nat) (bad : Nat → Bool) : Nat → State
  | 0 => s
  | n + 1 =>
    let s := poisonRun s g va bad n
    match xlat s g.id.core g.id.asid (va + 32 * n) .both false with
    | .error _ => s
    | .ok p =>
      if (List.range 4).any (fun i => bad (4 * n + i)) then addPoison s p.pa else coverPoison s (p.pa / 32 * 32) 32

/-- Writes one register's row of sector `x` to its owner's context area. -/
def spillRow (s : State) (g : Group) (k n x : Nat) : Except (Nat × Bool) State :=
  let va := g.id.base + laneOff n (192 * x)
  let s := checkReg s k g.id.core (.v n) (some x)
  let bad := (s.regErrs k g.id.core (.v n)).filter (·.marked)
  let bad := bad.filter (fun e => e.lane / 192 == x)
  (ctxStoreAll s g va ((List.range 192).map (fun l => (g.vreg n (192 * x + l)).toNat))).map (fun s =>
    noteUncorr (poisonRun s g va (fun i => bad.any (fun e => e.lane == 192 * x + i)) 48) g.id.core bad.length)

/-- Writes a scalar to its owner's context area. -/
def spillScalar (s : State) (g : Group) (k n : Nat) : Except (Nat × Bool) State :=
  let va := g.id.base + scalarOff n
  let s := checkReg s k g.id.core (.s n) none
  (ctxStore s g va (g.sreg n).toNat).map (fun s' =>
    if (s.regErrs k g.id.core (.s n)).any (·.marked) then
      let s' := noteUncorr s' g.id.core 1
      match xlat s' g.id.core g.id.asid va .both false with
      | .ok p => addPoison s' p.pa
      | .error _ => s'
    else s')

/-- Removes a victim: a kept row closes its group's region; a dirty row of a live register is spilled first; a faulting
spill leaves the row and gives its owner a context page fault. -/
def evictOne (s : State) (core : Nat) (lane : Bool) (v : Nat × RowOwn) : State :=
  let drop := fun (s : State) => s.modCore core (fun c =>
    if lane then { c with rows := Tab.erase c.rows v.1 } else { c with sents := Tab.erase c.sents v.1 })
  if v.2.kept then closeRegion s v.2.group
  else match s.group v.2.group with
    | none => drop s
    | some g =>
      let r := if lane then Reg.v v.2.reg else Reg.s v.2.reg
      if !v.2.dirty || !g.live r then drop s
      else match (if lane then spillRow (s.modCore core (fun c => c.wakeL (laneBank v.1))) g v.2.group v.2.reg (v.1 / 64)
          else spillScalar s g v.2.group v.2.reg) with
        | .ok s => drop s
        | .error e => ctxFault s v.2.group (cfCause e.2 2) e.1 (.spill r (v.1 / 64))

/-- Makes one row of sector `x` free by evicting a victim that is neither pinned, held, nor a register of `keep` of the
issuing group `k`. -/
def evictRow (s : State) (core k x : Nat) (keep : List Reg) : State :=
  let cand := (s.core core).rows.filter (fun r => r.1 / 64 == x && !(r.2.group == k && !r.2.kept && keep.contains (.v r.2.reg))
    && (r.2.kept || (match s.group r.2.group with | some g => !g.pinned r.2.reg | none => true)) && !heldRow s r.1 r.2 true)
  match bestVictim s cand with
  | none => s
  | some v => evictOne s core true v

def evictEntry (s : State) (core k : Nat) (keep : List Reg) : State :=
  let cand := (s.core core).sents.filter (fun r => !(r.2.group == k && !r.2.kept && keep.contains (.s r.2.reg))
    && !heldRow s r.1 r.2 false)
  match bestVictim s cand with
  | none => s
  | some v => evictOne s core false v

/-! ### Room for a destination -/

/-- Whether a write of `r` by group `g` takes new rows: it has none, it is freed by the same instruction, or a region keeps
its old value (R97, R98). -/
def renames (g : Group) (frees : List Reg) (r : Reg) : Bool :=
  (frees.contains r && !(match r with | .v n => g.pinned n | .s _ => false)) || g.untouched r

/-- The sectors in which a write of `r` needs a row that is not there. -/
def Core.lacking (c : Core) (k foot : Nat) (renamed : Bool) (n : Nat) : List Nat :=
  (List.range foot).filter (fun x =>
    (renamed || (!c.hasRow k n x && (c.reservedRow k n x).isNone)) && (c.freeRows x).isEmpty)

/-- Whether the rows or the entry that a write of `r` needs are free. -/
def Core.room (c : Core) (k foot : Nat) (renamed : Bool) : Reg → Bool
  | .s n => n == 0 || (c.hasEntry k n && !renamed) || !c.freeEntries.isEmpty
  | .v n => (c.lacking k foot renamed n).isEmpty

/-- Evicts so that a write of `r` has room. -/
def makeRoom (s : State) (core k foot : Nat) (renamed : Bool) (r : Reg) (keep : List Reg) : State :=
  match r with
  | .s _ => evictEntry s core k keep
  | .v n => ((s.core core).lacking k foot renamed n).foldl (fun s x => evictRow s core k x keep) s

/-- Evicts until a write of `r` has room, at most `n` times. -/
def roomFor (s : State) (core k foot : Nat) (r : Reg) (keep : List Reg) : Nat → State
  | 0 => s
  | n + 1 =>
    if (s.core core).room k foot false r then s
    else roomFor (makeRoom s core k foot false r keep) core k foot r keep n

/-- The rows of the core when an instruction of group `g` has freed `frees` and written `dests`: destinations take their
rows before the frees, so that freed rows are not open to them (R98). -/
def Core.turnover (c : Core) (k : Nat) (g : Group) (frees dests : List Reg) : Core :=
  let new := dests.filter (renames g frees)
  let c := new.foldl (fun c r => match r with
    | .s n => if n = 0 then c else c.takeEntry k (freshReg n)
    | .v n => (List.range g.id.foot).foldl (fun c x => c.takeRow k (freshReg n) x) c) c
  let c := (dests.filter (fun r => !renames g frees r)).foldl (fun c r => c.claim k g.id.foot r) c
  let gone := frees.filter (fun r => match r with | .v n => !g.pinned n | .s _ => true) ++
    new.filter (fun r => !frees.contains r)
  let c := gone.foldl (fun c r => c.release k (g.untouched r) r) c
  let c := new.foldl (fun c r => c.settle k r) c
  dests.foldl (fun c r => c.touch k true r) c

/-! ### Spills and fills (R100, R101, R112) -/

/-- Whether register `n` of group `k` has a dirty row in sector `x`. -/
def Core.dirtyIn (c : Core) (k n x : Nat) : Bool := c.rows.any (fun r => r.2.is k n && r.2.dirty && r.1 / 64 == x)

/-- Whether a register of group `k` has a dirty row or entry. -/
def Core.dirty (c : Core) (k : Nat) : Reg → Bool
  | .s n => c.sents.any (fun r => r.2.is k n && r.2.dirty)
  | .v n => c.rows.any (fun r => r.2.is k n && r.2.dirty)

def Core.clean (c : Core) (k : Nat) (r : Reg) : Core :=
  let f := fun n (o : RowOwn) => if o.is k n then some { o with dirty := false } else some o
  match r with
  | .s n => c.mapEnts (f n)
  | .v n => c.mapRows (f n)

/-- Writes the sectors of a register that `p` names to its context area. -/
def spillSectors (s : State) (k : Nat) (g : Group) (n : Nat) (p : Nat → Bool) : Except (Nat × Bool) State :=
  ((List.range g.id.foot).filter p).foldl (fun r x => r.bind (fun s => spillRow s g k n x)) (.ok s)

/-- Writes a whole register of `g` to its context area. -/
def spillReg (s : State) (k : Nat) (g : Group) : Reg → Except (Nat × Bool) State
  | .s n => spillScalar s g k n
  | .v n => spillSectors s k g n (fun _ => true)

/-- Writes the dirty rows or the entry of a register, whose banks wake (R109, R112). -/
def spillDirty (s : State) (k : Nat) (g : Group) : Reg → Except (Nat × Bool) State
  | .s n => spillScalar s g k n
  | .v n => spillSectors (s.modCore g.id.core (fun c => c.wakeReg k (.v n))) k g n ((s.core g.id.core).dirtyIn k n)

/-- Writes every live dirty register among `rs`. -/
def spillRegs (s : State) (k : Nat) (g : Group) : List Reg → Except (Reg × Nat × Bool) State
  | [] => .ok s
  | r :: t =>
    if (s.core g.id.core).dirty k r && g.live r then
      match spillDirty s k g r with
      | .error e => .error (r, e)
      | .ok s => spillRegs (s.modCore g.id.core (fun c => c.clean k r)) k g t
    else spillRegs s k g t

/-- A register's value, its sectors that are not cached read from the context area in ascending order. -/
def loadReg (s : State) (k : Nat) (g : Group) : Reg → Except (Nat × Bool) Group
  | .s n => (ctxLoad s g (g.id.base + scalarOff n)).map (fun v => if n = 0 then g else g.putS n (BitVec.ofNat 64 v))
  | .v n =>
    ((List.range g.id.foot).foldl (fun (r : Except (Nat × Bool) (List Word)) x => r.bind (fun l =>
      if (s.core g.id.core).hasRow k n x then .ok (l ++ tabulate 192 (fun i => g.vreg n (192 * x + i)))
      else (ctxLoadAll s g (g.id.base + laneOff n (192 * x)) 192).map (fun m => l ++ m.map (BitVec.ofNat 64)))) (.ok [])).map
      (fun l => g.putV n l)

/-- Register `n` of group `k` leaves the cache in every sector, its dirty rows spilled first; reserved rows stay reserved. -/
def uncache (s : State) (k : Nat) (r : Reg) : State :=
  match s.group k, r with
  | some g, .v n =>
    (match spillRegs s k g [r] with
    | .error e => ctxFault s k (cfCause e.2.2 2) e.2.1 (.spill e.1 (sectorAt g e.2.1))
    | .ok s => s.modCore g.id.core (fun c => c.mapRows (fun o =>
        if !o.is k n then some o else if g.pinned n then some { o with vacant := true } else none)))
  | _, _ => s

/-- Errors in the rows of register `r` of group `k` end where the register has been written whole: everywhere in rows that
it did not have in `old`, and in the lanes of `m` (spec/23 R409). -/
def mendRows (s : State) (k : Nat) (g : Group) (old : Core) (r : Reg) (m : Nat → Bool) : State :=
  if s.errs.isEmpty then s
  else
    let c := s.core g.id.core
    match r with
    | .s n => s.mend (fun e => match e with
        | .scalar c' i => c' == g.id.core && (match Tab.get c.sents i with | some o => o.is k n | none => false)
        | _ => false)
    | .v n => s.mend (fun e => match e with
        | .lane c' x row cell => c' == g.id.core &&
            (match Tab.get c.rows (64 * x + row) with | some o => o.is k n | none => false) &&
            (m (192 * x + cell) || !(match Tab.get old.rows (64 * x + row) with | some o => o.is k n | none => false))
        | _ => false)

/-- A fill of register `r` of group `k`, for an instruction whose registers `keep` are not evicted: room is made, rows are
taken, and the value is read (R101, R102, R104); a register whose fill fails is left uncached in every sector (spec/22 R404). -/
def fillReg (s : State) (k : Nat) (r : Reg) (keep : List Reg) : State :=
  match s.group k with
  | none => s
  | some g =>
    let c := g.id.core
    if (s.core c).cached k g.id.foot r || s.writeHeld k c g.id.foot r then s
    else if !(s.core c).room k g.id.foot false r then makeRoom s c k g.id.foot false r (r :: keep)
    else match loadReg s k g r with
      | .error e => ctxFault (uncache s k r) k (cfCause e.2 1) e.1 (.fill r)
      | .ok g' =>
        mendRows ((s.setGroup k g').modCore c (fun x => x.claim k g.id.foot r false)) k g (s.core c) r (fun _ => false)

/-- The first of the registers `rs` that is not cached is filled. -/
def fillMissing (s : State) (k : Nat) (rs keep : List Reg) : State :=
  match s.group k with
  | none => s
  | some g => match rs.find? (fun r => !(s.core g.id.core).cached k g.id.foot r) with
    | some r => fillReg s k r keep
    | none => s

/-- Fills register `r` of group `k`, evicting as often as it takes. -/
def fillWhole (s : State) (k : Nat) (r : Reg) (keep : List Reg) : Nat → State
  | 0 => s
  | n + 1 =>
    match s.group k with
    | none => s
    | some g =>
      if g.gstate = .ctxFault || (s.core g.id.core).cached k g.id.foot r then s
      else fillWhole (fillReg s k r keep) k r keep n

end Sys2Proof.Machine
end

