-- ==== Sys2Proof/Machine/Rect.lean ====
section
/-!
DEFINITION. The plane's words (spec/10 R213 to R218): rectangle handles, held words, reads and writes of a word, and the
record of out-of-range accesses.
-/

namespace Sys2Proof.Machine

/-- A rectangle of plane words (R215). -/
structure Rect where
  x0 : Nat
  y0 : Nat
  w : Nat
  h : Nat
  z0 : Nat
  dc : Nat
  deriving DecidableEq, Repr

/-- The named bits of a handle. -/
def handleBits : Word := 0x80007F7F1F1F1F1F

/-- The rectangle of a handle that is not refused (R216). -/
def rectOf (h : Word) : Option Rect :=
  let r : Rect := ⟨bits h 4 0, bits h 12 8, bits h 20 16 + 1, bits h 28 24 + 1, bits h 38 32, bits h 46 40 + 1⟩
  if flag h 63 || h &&& ~~~handleBits != 0 || 32 < r.x0 + r.w || 24 < r.y0 + r.h || 128 < r.z0 + r.dc then none
  else some r

/-- The handle of a rectangle. -/
def handleOf (r : Rect) : Word :=
  BitVec.ofNat 64 (r.x0 + r.y0 * 2 ^ 8 + (r.w - 1) * 2 ^ 16 + (r.h - 1) * 2 ^ 24 + r.z0 * 2 ^ 32 + (r.dc - 1) * 2 ^ 40)

/-- A plane word's coordinates. -/
structure Pos where
  x : Int
  y : Int
  z : Nat
  deriving DecidableEq, Repr

def Pos.exist (p : Pos) : Bool := 0 ≤ p.x && p.x < 32 && 0 ≤ p.y && p.y < 24 && p.z < 128

/-- The key of word (x, y, z) in a core's plane. -/
def planeKey (x y z : Nat) : Nat := (32 * y + x) * 128 + z
def Pos.key (p : Pos) : Nat := planeKey p.x.toNat p.y.toNat p.z

/-- The words of a rectangle by ascending z, then y, then x (R218). -/
def Rect.words (r : Rect) : List Pos :=
  (List.range r.dc).flatMap (fun z => (List.range r.h).flatMap (fun y => (List.range r.w).map (fun x =>
    ⟨(r.x0 + x : Nat), (r.y0 + y : Nat), r.z0 + z⟩)))

def Rect.keys (r : Rect) : List Nat := r.words.map Pos.key

/-- Whether a word lies in a rectangle. -/
def Rect.has (r : Rect) (key : Nat) : Bool :=
  let x := key / 128 % 32
  let y := key / 128 / 32
  let z := key % 128
  r.x0 ≤ x && x < r.x0 + r.w && r.y0 ≤ y && y < r.y0 + r.h && r.z0 ≤ z && z < r.z0 + r.dc

/-- A word that team `t` holds. -/
def Core.word (c : Core) (t : Nat) (p : Pos) : Option PWord :=
  if p.exist then
    match Tab.get c.plane p.key with
    | some w => if w.own = t then some w else none
    | none => none
  else none

/-- The value a read of word `p` by team `t` returns: zero where it is out of range or dead (R111, R217). -/
def Core.pread (c : Core) (t : Nat) (p : Pos) : Word :=
  match c.word t p with
  | some w => if w.live then w.val else 0
  | none => 0

/-- A write of word `p` by team `t`: dropped where it is out of range (R217); it makes the word live (R108). -/
def Core.pwrite (c : Core) (t : Nat) (p : Pos) (v : Word) : Core :=
  match c.word t p with
  | some w => ({ c with plane := Tab.set c.plane p.key { w with val := v, live := true } }).wakeP (planeBank p.key)
  | none => c

/-- A plane bank none of whose words is live any more goes off and loses its contents; one that woke for a write that has not come
yet stays (R109). -/
def Core.sleepP (c : Core) : Core :=
  let lives := fun (b : Nat) => c.plane.any (fun w => w.2.live && planeBank w.1 == b)
  let roused := c.roused.filter (fun b => !lives b)
  let bank := c.pbank.map (fun (b, st) => (b, if lives b || roused.contains b then st else .off))
  { c with
    pbank := bank
    roused := roused
    plane := c.plane.map (fun (k, w) => (k, if !w.live && Tab.getD bank (planeBank k) .off == .off then { w with val := 0 } else w)) }

/-- Drops word `p` of team `t`: it is dead (R108). -/
def Core.pdrop (c : Core) (t : Nat) (p : Pos) : Core :=
  match c.word t p with
  | some w => { c with plane := Tab.set c.plane p.key { w with live := false } }
  | none => c

/-- Whether a read of `p` would be a dead read: held and not live. -/
def Core.deadRead (c : Core) (t : Nat) (p : Pos) : Bool :=
  match c.word t p with
  | some w => !w.live
  | none => false

/-- The X, Y and Z fields of RANGEADDR, with a byte offset (R218). -/
def rangeAddr (p : Pos) (off : Nat) : Word :=
  BitVec.ofNat 64 (wrap 8 p.x + wrap 8 p.y * 2 ^ 8 + p.z % 128 * 2 ^ 16 + off % 2 ^ 32 * 2 ^ 32)

/-- The record of one out-of-range access (R218). -/
def rangeNote (src : Nat) (write : Bool) (p : Pos) (off : Nat) : Note :=
  .range (BitVec.ofNat 64 (1 + (if write then 2 else 0) + 4 * src)) (rangeAddr p off)

/-- Errors in plane words of core `c` end where the words are written whole (spec/23 R409). -/
def mendPlane (s : State) (c : Nat) (keys : Nat → Bool) : State :=
  if s.errs.isEmpty then s
  else s.mend (fun e => match e with | .plane c' k => c' == c && keys k | _ => false)

/-- Errors of plane word `key` of core `c`. -/
def State.planeErr (s : State) (c key : Nat) : Option Err :=
  s.errs.find? (fun e => match e.site with | .plane c' k => c' == c && k == key | _ => false)

/-- A deferred cause joins the causes that a group has pending (spec/21 R380). -/
def pendTrap (s : State) (k : Nat) (d : Deferred) : State := s.modGroup k (fun g => { g with pend := g.pend ++ [d] })

/-- The out-of-range accesses among `ps`, in their order. -/
def rangeNotes (c : Core) (t src : Nat) (write : Bool) (ps : List Pos) : List Note :=
  (ps.filter (fun p => !(c.word t p).isSome)).map (fun p => rangeNote src write p 0)

/-- Notes of group `k` among its queued scrolls: the last of them keeps the notes. -/
def keepLater (k : Nat) (ns : List Note) : List Scroll → List Scroll
  | [] => []
  | x :: t =>
    if x.group == k && !t.any (fun y => y.group == k) then { x with later := x.later ++ ns } :: t else x :: keepLater k ns t

/-- Group `k` records out-of-range accesses: at once, or, where it has queued scrolls, after theirs, since accesses are recorded in the
order of issue (R219). -/
def noteAccesses (s : State) (core k : Nat) (ns : List Note) : State :=
  if (s.core core).scrolls.any (fun x => x.group == k) then
    s.modCore core (fun c => { c with scrolls := keepLater k ns c.scrolls })
  else s.modGroup k (fun g => ns.foldl Group.take g)

end Sys2Proof.Machine
end

