-- ==== Sys2Proof/Machine/Claims.lean ====
section
/-!
DEFINITION. The acquisition unit (spec/06 R129 to R142): claims, holdings, requests, the banker's check, grants, releases
and the decisions made again after a release.
-/

namespace Sys2Proof.Machine

/-! ### Vectors of eight resources (R129) -/

abbrev Vec8 := List Nat

def vadd8 (a b : Vec8) : Vec8 := List.zipWith (· + ·) a b
def vsub8 (a b : Vec8) : Vec8 := List.zipWith (· - ·) a b
def vle8 (a b : Vec8) : Bool := (List.zip a b).all (fun x => x.1 ≤ x.2)
def vzero8 : Vec8 := [0, 0, 0, 0, 0, 0, 0, 0]

/-- Capacities per core. -/
def capacity : Vec8 := [48, 48, 48, 48, 98304, 12, 64, 16]

/-- A team's claim (spec/02 R33). -/
def Launch.claim (l : Launch) : Vec8 :=
  [l.pinrows, l.pinrows, l.pinrows, l.pinrows, l.area * l.depth, l.accslots, l.tags, l.rings]

def popcount {w : Nat} (b : BitVec w) : Nat := ((List.range w).filter (fun i => b.getLsbD i)).length

/-- Groups of team `t` with their keys. -/
def State.groupsOf (s : State) (t : Nat) : List (Nat × Group) := s.groups.filter (fun g => g.2.id.team == t)

/-- Teams on core `c` with their keys: those that hold a team slot. -/
def State.teamsOn (s : State) (c : Nat) : List (Nat × Team) :=
  s.teams.filter (fun t => t.2.core == c && (t.2.status == .running || t.2.status == .flushed || t.2.status == .saving))

def State.claimOf (s : State) (t : Team) : Vec8 :=
  match s.grid t.grid with
  | some g => g.launch.claim
  | none => vzero8

/-- The number of plane words a team holds. -/
def Core.wordsOf (c : Core) (t : Nat) : Nat := (c.plane.filter (fun w => w.2.own == t)).length

/-- A team's holdings (R129). -/
def State.holdOf (s : State) (k : Nat) (t : Team) : Vec8 :=
  let pins := fun x => ((s.groupsOf k).map (fun g => if x < g.2.id.foot then popcount g.2.regs.pin else 0)).foldl (· + ·) 0
  [pins 0, pins 1, pins 2, pins 3, (s.core t.core).wordsOf k, popcount t.accHeld, popcount t.tagHeld, popcount t.ringHeld]

/-! ### Requests (R130, R131) -/

/-- The words of a request that the team does not hold. -/
def newWords (c : Core) (t : Nat) (r : Rect) : List Nat :=
  r.keys.filter (fun k => match Tab.get c.plane k with | some w => w.own != t | none => true)

/-- The request vector of group `g`. -/
def State.request (s : State) (g : Group) (t : Team) (kind : AcqKind) (v : Word) : Vec8 :=
  match kind with
  | .pin =>
    let n := popcount (BitVec.ofNat 32 v.toNat &&& ~~~g.regs.pin)
    let at_ := fun x => if x < g.id.foot then n else 0
    [at_ 0, at_ 1, at_ 2, at_ 3, 0, 0, 0, 0]
  | .plane =>
    match rectOf v with
    | some r => [0, 0, 0, 0, (newWords (s.core g.id.core) g.id.team r).length, 0, 0, 0]
    | none => vzero8
  | .acc => [0, 0, 0, 0, 0, popcount (BitVec.ofNat 12 v.toNat &&& ~~~t.accHeld), 0, 0]
  | .tag => [0, 0, 0, 0, 0, 0, popcount (v &&& ~~~t.tagHeld), 0]
  | .ring => [0, 0, 0, 0, 0, 0, 0, popcount (BitVec.ofNat 16 v.toNat &&& ~~~t.ringHeld)]

/-- The other teams that hold words of a request. -/
def State.holders (s : State) (c t : Nat) (kind : AcqKind) (v : Word) : List Nat :=
  match kind, rectOf v with
  | .plane, some r => ((r.keys.filterMap (fun k => (Tab.get (s.core c).plane k).map (fun w => w.own))).filter (· != t)).eraseDups
  | _, _ => []

/-! ### The banker's check (R132) -/

/-- Whether teams with needs and holdings can all finish, starting from `work`; one team finishes in each round. -/
def safeFrom : Nat → Vec8 → List (Vec8 × Vec8) → Bool
  | 0, _, l => l.isEmpty
  | n + 1, work, l =>
    match l.find? (fun t => vle8 t.1 work) with
    | none => l.isEmpty
    | some t => safeFrom n (vadd8 work t.2) (l.erase t)

/-- Claims and holdings of the teams on a core, with team `t`'s holdings raised by `req`. -/
def State.books (s : State) (c t : Nat) (req : Vec8) : List (Vec8 × Vec8) :=
  (s.teamsOn c).map (fun x =>
    (s.claimOf x.2, if x.1 = t then vadd8 (s.holdOf x.1 x.2) req else s.holdOf x.1 x.2))

def available (b : List (Vec8 × Vec8)) : Vec8 := vsub8 capacity ((b.map (·.2)).foldl vadd8 vzero8)

/-- Whether a state of claims and holdings is safe (R132). -/
def safeBooks (b : List (Vec8 × Vec8)) : Bool :=
  safeFrom b.length (available b) (b.map (fun x => (vsub8 x.1 x.2, x.2)))

/-- The outcomes of R133. -/
inductive Decision where | overrun | busy | unsafeState | granted
  deriving DecidableEq, Repr

/-- R133: the first step that applies. -/
def State.decide (s : State) (g : Group) (t : Team) (kind : AcqKind) (v : Word) : Decision :=
  let req := s.request g t kind v
  let c := g.id.core
  if req = vzero8 then .granted
  else if !vle8 (vadd8 (s.holdOf g.id.team t) req) (s.claimOf t) then .overrun
  else if !vle8 req (available (s.books c g.id.team vzero8)) || !(s.holders c g.id.team kind v).isEmpty then .busy
  else if !safeBooks (s.books c g.id.team req) then .unsafeState
  else .granted

/-! ### The wait-for relation (R135) -/

/-- The teams that the waiters of team `t` wait for on words. -/
def State.waitsFor (s : State) (c t : Nat) : List Nat :=
  ((s.core c).acqWaits.filter (fun w => w.team == t)).flatMap (fun w => s.holders c t w.kind w.value)

/-- Whether a chain of at most `n` waits leads from `u` to `t`. -/
def State.leads (s : State) (c t : Nat) : Nat → Nat → Bool
  | 0, u => u == t
  | n + 1, u => u == t || (s.waitsFor c u).any (fun x => s.leads c t n x)

def minOf : List Nat → Option Nat
  | [] => none
  | a :: l => match minOf l with
    | none => some a
    | some b => some (min a b)

/-- The team slot that INFO1 names when an `acq.w` would close a cycle. -/
def State.cycleSlot (s : State) (c t : Nat) (kind : AcqKind) (v : Word) : Option Nat :=
  minOf (((s.holders c t kind v).filter (fun u => s.leads c t 8 u)).filterMap (fun u => (s.team u).map (·.slot)))

/-! ### Grants (R137, R138) -/

/-- Physical accumulator slots of a core that no team is mapped to. -/
def State.freePhys (s : State) (c : Nat) : List Nat :=
  (List.range 12).filter (fun p => (s.teamsOn c).all (fun t =>
    (List.range 12).all (fun a => !(t.2.accHeld.getLsbD a && t.2.accPhys.getD a 12 == p))))

/-- Maps one slot name of team `k` to a free physical slot, reading zero, with no error left in it; being cleared where another
team held it last (R137, R142, spec/23 R409). -/
def grantSlot (s : State) (c k : Nat) (a : Nat) : State :=
  match s.team k with
  | none => s
  | some t =>
    if t.accHeld.getLsbD a then s
    else
      let p := (s.freePhys c).headD 0
      let dirty := match Tab.get (s.core c).accLast p with | some o => o != k | none => false
      let s := (s.setTeam k { t with
          accHeld := setBit t.accHeld a true
          accPhys := setPad 0 t.accPhys a p
          accClr := setBit t.accClr a dirty
          acc := t.acc.filter (fun e => e.1 / 16384 != a) }).modCore c (fun x => { x with accLast := Tab.set x.accLast p k })
      if s.errs.isEmpty then s
      else s.mend (fun e => match e with | .acc c' q _ => c' == c && q == p | _ => false)

/-- Takes one plane word for team `k`: live, zero; being cleared where another owner held it last in a bank that is not off. -/
def grantWord (c : Core) (k key : Nat) : Core :=
  match Tab.get c.plane key with
  | some _ => c
  | none =>
    let dirty := c.pstate (planeBank key) != .off &&
      (match Tab.get c.last key with | some o => o != k | none => false)
    ({ c with plane := Tab.set c.plane key ⟨0, true, k, dirty⟩, last := Tab.set c.last key k }).wakeP (planeBank key)

/-- The live registers that a pin request names and that are not cached. -/
def State.unfilled (s : State) (k : Nat) (g : Group) (kind : AcqKind) (v : Word) : List Reg :=
  match kind with
  | .pin => (((List.range 32).filter (fun n => v.getLsbD n && !g.pinned n && g.live (.v n))).map Reg.v).filter (fun r =>
      !(s.core g.id.core).cached k g.id.foot r)
  | _ => []

/-- They are filled, before a grant takes effect; a fault is the group's context page fault (R138). -/
def fillPins (s : State) (k : Nat) (g : Group) (kind : AcqKind) (v : Word) : State :=
  (s.unfilled k g kind v).foldl (fun s r =>
    fillWhole s k r (((List.range 32).filter (fun n => v.getLsbD n)).map Reg.v) 80) s

/-- Pins the registers of `m` in group `k`: each takes its reserved rows, victims being evicted until there are some; no error of an
earlier owner is left in them (R142). -/
def grantPins (s : State) (k : Nat) (m : BitVec 32) : State :=
  match s.group k with
  | none => s
  | some g =>
    let rs := ((List.range 32).filter (fun n => m.getLsbD n && !g.pinned n)).map Reg.v
    let s := rs.foldl (fun s r =>
      if (s.core g.id.core).cached k g.id.foot r then s
      else mendRows ((roomFor s g.id.core k g.id.foot r rs 80).modCore g.id.core (fun c => c.claim k g.id.foot r)) k g
        (s.core g.id.core) r (fun _ => false)) s
    s.modGroup k (fun g => { g with regs := { g.regs with pin := g.regs.pin ||| m } })

/-- A grant: the holdings grow by the request; words that it zeroes hold no error any more (R137, spec/23 R409). -/
def grant (s : State) (k : Nat) (kind : AcqKind) (v : Word) : State :=
  match s.group k with
  | none => s
  | some g =>
    let c := g.id.core
    let t := g.id.team
    match kind with
    | .pin => grantPins s k (BitVec.ofNat 32 v.toNat)
    | .plane =>
      match rectOf v with
      | some r =>
        let new := newWords (s.core c) t r
        mendPlane (s.modCore c (fun x => r.keys.foldl (fun x w => grantWord x t w) x)) c new.contains
      | none => s
    | .acc => ((List.range 12).filter (fun a => v.getLsbD a)).foldl (fun s a => grantSlot s c t a) s
    | .tag => s.modTeam t (fun x =>
        let new := v &&& ~~~x.tagHeld
        { x with
          tagHeld := x.tagHeld ||| v
          tagReady := x.tagReady &&& ~~~new
          tagCount := x.tagCount.filter (fun e => !new.getLsbD e.1) })
    | .ring => s.modTeam t (fun x =>
        let m := BitVec.ofNat 16 v.toNat
        { x with
          ringHeld := x.ringHeld ||| m
          phase := BitVec.ofNat 128 (bitsOf (fun i =>
            x.phase.getLsbD i && !(m.getLsbD (i / 8) && !x.ringHeld.getLsbD (i / 8))) 128) })

/-- Whether a queued scroll touches one of the words (spec/10 R219). -/
def Core.scrolled (c : Core) (keys : List Nat) : Bool :=
  c.scrolls.any (fun x => match rectOf x.handle with | some r => keys.any r.has | none => false)

/-- Whether a queued scroll holds back an `acq` or `rel` (spec/10 R219). -/
def Core.holdsBack (c : Core) (kind : AcqKind) (v : Word) : Bool :=
  match kind, rectOf v with
  | .plane, some r => c.scrolled r.keys
  | _, _ => false

/-- Whether group `k` stands in GSTATE 3. -/
def State.faulted (s : State) (k : Nat) : Bool :=
  match s.group k with
  | some g => g.gstate == .ctxFault
  | none => false

/-- A wait ends in the outcome `b`. -/
def endWait (s : State) (c : Nat) (w : AcqWait) (b : Block) : State :=
  (s.modCore c (fun x => { x with acqWaits := x.acqWaits.filter (fun y => y != w) })).modGroup w.group (fun g =>
    { g with blocked := some b })

/-- A waiting request is granted: its group's region closes first (spec/21 R392), its wait ends. -/
def grantWaiter (s : State) (c : Nat) (w : AcqWait) : State :=
  endWait (grant (closeRegion s w.group) w.group w.kind w.value) c w .granted

/-- Waiting requests of core `c` are decided again, in the order in which the waits began (R134): granted, or ended by a claim
overrun, whose trap their group's word takes; one whose words a scroll moves waits on (spec/10 R219), and one whose registers cannot be filled, until its group's context page
fault is resolved (R138). -/
def redecide (s : State) (c : Nat) : State :=
  (s.core c).acqWaits.foldl (fun s w =>
    match s.group w.group, s.team w.team with
    | some g, some t =>
      match s.decide g t w.kind w.value with
      | .granted =>
        if g.gstate = .ctxFault || (s.core c).holdsBack w.kind w.value then s
        else
          let s := fillPins s w.group g w.kind w.value
          if s.faulted w.group then s else grantWaiter s c w
      | .overrun => endWait s c w .overran
      | _ => s
    | _, _ => s.modCore c (fun x => { x with acqWaits := x.acqWaits.filter (fun y => y != w) })) s

/-! ### The order of one clock (R136) -/

/-- The place of a request of group `k` in one clock: ascending team slot, then active-set position; releases and retirements
have place 0. -/
def State.acqPlace (s : State) (k : Nat) (g : Group) : Nat :=
  1 + 8 * (match s.team g.id.team with | some t => t.slot | none => 0) + (s.core g.id.core).active.findIdx (· == some k)

/-- Whether the acquisition unit has in this clock gone past a place: what reaches it now is taken in the next. -/
def Core.acqPast (c : Core) (place : Nat) : Bool := place < c.acqRank

/-- The unit takes what has this place. -/
def Core.acqAt (c : Core) (place : Nat) : Core := { c with acqRank := place }

/-! ### Releases (R139, R141) -/

/-- Unpins registers of group `k`: the rows of a dead register are freed, and those reserved to one that is not cached (R103). -/
def unpin (s : State) (k : Nat) (m : BitVec 32) : State :=
  match s.group k with
  | none => s
  | some g =>
    let dead := (List.range 32).filter (fun n => m.getLsbD n && g.pinned n && !g.live (.v n))
    (s.modGroup k (fun g => { g with regs := { g.regs with pin := g.regs.pin &&& ~~~m } })).modCore g.id.core
      (fun c => (dead.foldl (fun c n => c.release k false (.v n)) c).mapRows (fun o =>
        if o.group == k && o.vacant && m.getLsbD o.reg then none else some o))

/-- Team `t`'s words among `keys` are released: not live, no longer held. -/
def Core.dropWords (c : Core) (t : Nat) (p : Nat → Bool) : Core :=
  { c with plane := c.plane.filter (fun w => !(w.2.own == t && p w.1)) }

/-- Groups of team `t` that wait on a ring that is released will trap (R139). -/
def unholdRings (s : State) (t : Nat) (m : BitVec 16) : State :=
  { s with groups := s.groups.map (fun (k, g) => (k, match g.blocked with
      | some (.ring r _ _) => if g.id.team = t && m.getLsbD r then { g with blocked := some (.unheld r) } else g
      | _ => g)) }

/-- What a release of team `t` on core `c` gives up, but for pins (R139). -/
def releaseTeam (s : State) (c t : Nat) (kind : AcqKind) (v : Word) : State :=
  match kind with
  | .pin => s
  | .plane =>
    (match rectOf v with
    | some r => s.modCore c (fun x => x.dropWords t r.has)
    | none => s)
  | .acc => s.modTeam t (fun x =>
      let m := BitVec.ofNat 12 v.toNat
      { x with
        accHeld := x.accHeld &&& ~~~m
        accClr := x.accClr &&& ~~~m
        acc := x.acc.filter (fun e => !m.getLsbD (e.1 / 16384)) })
  | .tag => s.modTeam t (fun x =>
      { x with
        tagHeld := x.tagHeld &&& ~~~v
        tagReady := x.tagReady &&& ~~~v
        tagCount := x.tagCount.filter (fun e => !v.getLsbD e.1) })
  | .ring =>
    let m := BitVec.ofNat 16 v.toNat
    unholdRings (s.modTeam t (fun x => { x with ringHeld := x.ringHeld &&& ~~~m })) t m

/-- What `rel` of group `k` releases (R139). -/
def release (s : State) (k : Nat) (kind : AcqKind) (v : Word) : State :=
  match s.group k with
  | none => s
  | some g =>
    let s := match kind with
      | .pin => unpin s k (BitVec.ofNat 32 v.toNat)
      | _ => releaseTeam s g.id.core g.id.team kind v
    redecide s g.id.core

/-- Everything team `t` holds is released, but for pins, which leave with their groups (R141). -/
def releaseAll (s : State) (t : Nat) : State :=
  match s.team t with
  | none => s
  | some x =>
    let s := s.setTeam t { x with
      accHeld := 0
      accClr := 0
      acc := []
      tagHeld := 0
      tagReady := 0
      tagCount := []
      ringHeld := 0
      phase := 0 }
    s.modCore x.core (fun c => c.dropWords t (fun _ => true))

end Sys2Proof.Machine
end

