-- ==== Sys2Proof/Machine/Units.lean ====
section
/-!
DEFINITION. Levels and units of a launch (spec/01 R25 to R27), barrier generations (spec/16 R332 to R338), TC0 signals
(spec/01 R22), and what a group may wait on (spec/05 R113, spec/06 R124).
-/

namespace Sys2Proof.Machine

/-! ### Levels -/

def Launch.level (l : Launch) (n : Nat) : Level := l.levels.getD (n - 3) ⟨0, 0, 0⟩

/-- The count of level 3 to 7; an absent level counts as 1 (R26). -/
def Launch.countAt (l : Launch) (n : Nat) : Nat :=
  if n = 7 then l.count7 else if (l.level n).domain = 0 then 1 else (l.level n).count

/-- The teams in one unit of level `n`. -/
def Launch.teamsIn (l : Launch) (n : Nat) : Nat :=
  ((List.range (n - 2)).map (fun i => l.countAt (i + 3))).foldl (· * ·) 1

def Launch.unitOf (l : Launch) (team n : Nat) : Nat := if n ≤ 2 then team else team / l.teamsIn n

/-- Whether the level has a barrier. -/
def Launch.present (l : Launch) (n : Nat) : Bool := n == 2 || n == 7 || (3 ≤ n && n ≤ 6 && (l.level n).domain != 0)

/-- The memory scope of a level (R25): domains 1 cluster, 2 die, 3 named die set, 4 module. -/
def Launch.scopeOf (l : Launch) (n : Nat) : Scope :=
  if n = 2 then .team
  else if n = 7 then .device
  else match (l.level n).domain with
    | 1 => .cluster
    | 2 => .die
    | _ => .device

def Launch.ordinary (l : Launch) : Nat := l.ncpy + l.nmat + l.nvec

/-! ### Barriers -/

def State.barrier (s : State) (grid level unit : Nat) : Barrier :=
  match s.barriers.find? (fun b => b.grid == grid && b.level == level && b.unit == unit) with
  | some b => b
  | none => { grid := grid, level := level, unit := unit }

def State.setBarrier (s : State) (b : Barrier) : State :=
  if s.barriers.any (fun x => x.grid == b.grid && x.level == b.level && x.unit == b.unit) then
    { s with barriers := s.barriers.map (fun x =>
        if x.grid = b.grid ∧ x.level = b.level ∧ x.unit = b.unit then b else x) }
  else { s with barriers := s.barriers ++ [b] }

/-- The generations of a level that a group has arrived at, counted as the barrier counts them. -/
def Group.arrivals (g : Group) (level : Nat) : Nat :=
  g.genBase.getD level 0 + g.gen.getD level 0 + (if g.arrived.getLsbD level then 1 else 0)

/-- The members of a team that have begun (R332): every group but handlers. -/
def State.members (s : State) (t : Nat) : List Group := ((s.groupsOf t).map (·.2)).filter (fun g => !g.id.hndl)

/-- Whether every member of a team has arrived at more than `n` generations of a level; an ordinary group that has not
begun has not arrived. -/
def State.allArrived (s : State) (t : Nat) (x : Team) (level n : Nat) : Bool :=
  let begun := match s.grid x.grid with
    | some g => g.launch.ordinary ≤ x.begun
    | none => true
  x.started && begun && (s.members t).all (fun g => n < g.arrivals level)

/-- The key of a grid's team by its index. -/
def State.teamKey (s : State) (grid index : Nat) : Option Nat :=
  (s.teams.find? (fun t => t.2.grid == grid && t.2.index == index)).map (·.1)

/-- Whether team `index` of a grid counts as arrived at the open generation of barrier `b` (R332). -/
def State.counted (s : State) (g : Grid) (b : Barrier) (index : Nat) : Bool :=
  b.arrived.contains index ||
    (index < g.next &&
      match s.teamKey b.grid index with
      | none => true
      | some t =>
        match s.team t with
        | none => true
        | some x => x.status == .ended || (s.allArrived t x b.level b.done && (s.members t).isEmpty))

/-- The clusters that hold teams of a unit, ascending (R338). -/
def State.clustersOf (s : State) (grid : Nat) (l : Launch) (level unit : Nat) : List Nat :=
  let cs := (s.teams.filter (fun t => t.2.grid == grid && l.unitOf t.2.index level == unit)).map (fun t => clusterOf t.2.core)
  (List.range 96).filter (fun c => cs.contains c)

/-- Packets are injected into TC0 (spec/01 R22): source, destination and content of each. -/
def State.inject (s : State) (l : List (Nat × Nat × Packet)) : State :=
  { s with
    signals := s.signals ++ (List.range l.length).map (fun i =>
      let x := l.getD i (0, 0, .answer 0 0)
      { src := x.1, dst := x.2.1, packet := x.2.2, seq := s.tc0 + i })
    tc0 := s.tc0 + l.length }

/-- Whether a packet may arrive: none from its source to its destination was injected before it, and it is among the 16 of its
source that are in flight (spec/01 R22). -/
def State.mayArrive (s : State) (src dst seq : Nat) : Bool :=
  let before := (s.signals.filter (fun y => y.src == src && y.seq < seq)).map (·.dst) ++
    (s.offers.filter (fun y => y.src == src && y.seq < seq)).map (·.core)
  !before.contains dst && before.length < 16

/-- Completion of a barrier at a level from 3 to 7 is decided: where every team of the unit has arrived, the generation
completes and its releases are due at each cluster in rank order, from the core of the team that completed it. A generation at which no team has a recorded arrival has
nobody to release and stays open. -/
def settleUnit (s : State) (grid level unit core : Nat) : State :=
  match s.grid grid with
  | none => s
  | some g =>
    let b := s.barrier grid level unit
    let n := g.launch.teamsIn level
    if (List.range n).all (fun i => s.counted g b (unit * n + i)) && b.inject.isEmpty && !b.arrived.isEmpty then
      s.setBarrier { b with done := b.done + 1, arrived := [], inject := s.clustersOf grid g.launch level unit, source := core }
    else s

/-- A team's arrival at a level is decided: at level 2 the generation completes; at others the team's arrival is sent, for the
open generation, whatever completed while the team had no member.  DESIGN CHOICE (log entry 68): the packet goes from the team's core
to that same core, as no rule places a barrier unit. -/
def settleTeam (s : State) (t level : Nat) : State :=
  match s.team t with
  | none => s
  | some x =>
    match s.grid x.grid with
    | none => s
    | some g =>
      let unit := g.launch.unitOf x.index level
      let b := s.barrier x.grid level unit
      if level = 2 then
        if s.allArrived t x 2 b.done && !(s.members t).isEmpty then
          s.setBarrier { b with done := b.done + 1, delivered := Tab.set b.delivered x.index (b.done + 1) }
        else s
      else if !g.launch.present level then s
      else
        let n := max b.done (Tab.getD b.sent x.index 0)
        if s.allArrived t x level n && !(s.members t).isEmpty then
          let s := s.setBarrier { b with sent := Tab.set b.sent x.index (n + 1) }
          s.inject [(x.core, x.core, .arrival x.grid level unit x.index (n + 1))]
        else settleUnit s x.grid level unit x.core

/-- A member that starts joins the open generation of every barrier: its team has not arrived there any more (R332). -/
def reopen (s : State) (t : Nat) : State :=
  match s.team t with
  | none => s
  | some x => { s with barriers := s.barriers.map (fun b =>
      match s.grid x.grid with
      | some g => if b.grid == x.grid && g.launch.unitOf x.index b.level == b.unit then
          { b with arrived := b.arrived.filter (· != x.index), sent := if b.done < Tab.getD b.sent x.index 0 then Tab.set b.sent x.index b.done else b.sent }
        else b
      | none => b) }

/-- Completion is decided again at every level, after an arrival, a retirement or a start (R332). -/
def settleAll (s : State) (t : Nat) : State := [2, 3, 4, 5, 6, 7].foldl (fun s l => settleTeam s t l) s

/-- Whether group `g` may leave the barrier of a level: the generation it arrived at has been delivered to its team. -/
def State.mayDepart (s : State) (g : Group) (level : Nat) : Bool :=
  match s.team g.id.team, s.grid g.id.grid with
  | some x, some gr =>
    let b := s.barrier g.id.grid level (gr.launch.unitOf x.index level)
    g.genBase.getD level 0 + g.gen.getD level 0 < Tab.getD b.delivered x.index 0
  | _, _ => false

/-! ### What a group waits on -/

/-- Ring phase of a team (spec/16 R340). -/
def Team.ringPhase (t : Team) (ring stage : Nat) : Bool := t.phase.getLsbD (8 * ring + stage)

/-- A ready tag that the team holds (spec/13 R280, R281). -/
def Team.ready (t : Team) : Word := t.tagReady &&& t.tagHeld

def Core.scrollOf (c : Core) (k : Nat) : Bool := c.scrolls.any (fun x => x.group == k)

/-- Whether an access of a group has not performed. -/
def Access.pending (a : Access) : Bool := a.parts.any (fun p => !p.done)

def Access.isStore (a : Access) : Bool :=
  match a.op with
  | .store => true
  | _ => false

def Group.loadsPending (g : Group) : Bool := g.accs.any (fun a => !a.isStore)

/-- Whether an access in flight holds what is later as an acquire does: one that is an acquire, and an SO load (spec/15 R317,
R320). -/
def Access.holds (a : Access) : Bool :=
  a.acq || (match a.op with | .load => a.parts.any (fun p => !p.done && p.kind == .so) | _ => false)

/-- Whether the parked access of a group is an acquire. -/
def Group.parkedAcquire (g : Group) : Bool := g.log.access.any Access.holds

/-- Whether an earlier acquire has not completed (spec/15 R320). -/
def Group.acquirePending (g : Group) : Bool := g.accs.any (fun a => a.holds) || g.parkedAcquire

/-- The stores of group `k` that wait in the views of its path. -/
def State.waitingStores (s : State) (k core : Nat) : List Store :=
  ((s.core core).view.wait ++ (s.die (dieOf core)).view.wait).filter (fun x => x.group == k)

def Group.parked (g : Group) : Bool := g.log.valid

/-- Whether nothing of an access is outstanding but behind a port in recovery. -/
def State.behindPort (s : State) (a : Access) : Bool := a.pending && a.parts.all (fun p => p.done || s.stalledPort p.pa)

/-- The outstanding requests of an access (spec/12 R266): one for each line that a lane instruction touches, one for a scalar
instruction. -/
def requestsOf (a : Access) : Nat :=
  let l := (((a.parts.filter (fun p => !p.done)).map (fun p => p.pa / 128)).eraseDups).length
  let op := bits a.insn 31 26
  if op = 0x28 ∨ op = 0x29 ∨ op = 0x2D then l else min 1 l

/-- The outstanding requests of a core. -/
def State.requests (s : State) (core : Nat) : Nat :=
  ((s.groups.filter (fun x => x.2.id.core == core)).flatMap (fun x => x.2.accs.map requestsOf)).foldl (· + ·) 0

/-- Whether engine instructions of group `k` have not completed. -/
def Core.engineBusy (c : Core) (k : Nat) : Bool :=
  c.copies.any (fun x => x.group == k) || c.mq.any (fun x => x.group == k) || c.scrollOf k ||
    c.sfu.any (fun x => x.group == k)

/-- Whether the receiver at place `i` of the receivers is served: an offer pairs with it, or it is the first and an unread
element is held (spec/16 R344). -/
def Endpoint.servesAt (e : Endpoint) (i : Nat) : Bool := i < e.offers.length || (i == 0 && e.unread.isSome)

/-- Whether a group's `send` or `trysend` is out. -/
def Group.offering (g : Group) : Bool :=
  match g.send with
  | .offered | .asked _ => true
  | .none | .answered _ => false

/-- Whether a group's `trysend` awaits its answer. -/
def Group.asking (g : Group) : Bool :=
  match g.send with
  | .asked _ => true
  | .none | .offered | .answered _ => false

/-- Whether the answer to a `trysend` of group `k` is on its way. -/
def State.answering (s : State) (k : Nat) : Bool :=
  s.signals.any (fun x => match x.packet with
    | .answer g _ => g == k
    | _ => false)

/-- Whether an offer of group `k` is on its way, waits at an endpoint, or has an answer on its way (spec/16 R342). -/
def State.offerOpen (s : State) (k : Nat) : Bool :=
  s.offers.any (fun o => o.group == k && !o.issued) ||
    s.cores.any (fun c => c.2.eps.any (fun e => e.2.offers.any (fun o => o.group == k))) || s.answering k

/-- Whether an access can complete with poison, which REMOTEERR records (spec/12 R262). -/
def Access.poisons (a : Access) : Bool :=
  match a.op with
  | .load | .store | .atomic _ => true
  | .recv _ | .plane => false

/-- The atomic that can raise a flag (spec/12 R252). -/
def Access.raises (a : Access) : Bool :=
  match a.op with
  | .atomic .addf => true
  | _ => false

/-- Whether stores of group `k` wait in the views of its path. -/
def State.storesOut (s : State) (k core : Nat) : Bool :=
  (s.core core).view.wait.any (fun x => x.group == k) || (s.die (dieOf core)).view.wait.any (fun x => x.group == k)

/-- Whether the parked access of a group can change system register `n` (spec/07 R150). -/
def Group.stickyParked (g : Group) (n : Nat) : Bool :=
  g.log.valid && match n, g.log.access with
    | 1, some a => a.raises
    | 20, _ => true
    | _, _ => false

/-- Whether a load or an atomic in flight can change system register `n`. -/
def Group.stickyReply (g : Group) (n : Nat) : Bool :=
  match n with
  | 1 => g.accs.any Access.raises
  | 20 => g.accs.any (fun a => a.poisons && !a.isStore)
  | _ => false

/-- Whether an earlier instruction of group `k` that can change system register `n` has not completed (spec/07 R150). -/
def State.stickyBusy (s : State) (k : Nat) (g : Group) (n : Nat) : Bool :=
  let c := s.core g.id.core
  match n with
  | 1 => g.stickyReply 1 || c.sfu.any (fun x => x.group == k) || c.copies.any (fun x => x.group == k && x.near && x.fn == 0) ||
      c.mq.any (fun x => x.group == k && (x.kind == .mma || (x.kind == .accrd && x.cvt != 0)))
  | 17 | 18 | 19 => c.scrollOf k
  | 20 => g.accs.any Access.poisons || s.storesOut k g.id.core
  | _ => false

/-- Whether a queue is full or a limit is reached (spec/06 R122). -/
def State.limited (s : State) (core : Nat) : Limit → Bool
  | .copy => 16 ≤ (s.core core).copies.length
  | .packets stack => 8 ≤ ((s.core core).copies.filter (fun y => y.pa.any (fun b => b / 2 ^ 36 == stack))).length
  | .matrix => 8 ≤ (s.core core).mq.length
  | .scroll => 4 ≤ (s.core core).scrolls.length
  | .sfu => 8 ≤ (s.core core).sfu.length
  | .requests => 1024 ≤ s.requests core
  | .unit => false

/-- Whether what a group waits on still stands. -/
def State.stillBlocked (s : State) (k : Nat) (g : Group) (b : Block) : Bool :=
  let c := s.core g.id.core
  match b with
  | .empty rs => rs.any g.empty
  | .fill rs _ => rs.any (fun r => !c.cached k g.id.foot r)
  | .wake _ rs banks => rs.any (c.wakes k) || banks.any (fun b => (c.pstate b).wakes)
  | .rebuild => !(s.die (dieOf g.id.core)).rebuilds.isEmpty
  | .earlier => g.loadsPending || c.engineBusy k || c.hiveW.any (fun w => w.group == k)
  | .sticky n => s.stickyBusy k g n || g.stickyParked n
  | .acquire => g.acquirePending
  | .parked => g.parked || (match g.fetchWait with | some f => !f.failed | none => false)
  | .plane => !c.scrolls.isEmpty
  | .queue q => s.limited g.id.core q
  | .granted | .overran | .unheld _ => false
  | .clearing => c.plane.any (fun w => w.2.clr) || (match s.team g.id.team with | some t => t.accClr != 0 | none => false)
  | .tagAny m => match s.team g.id.team with | some t => t.ready &&& m == 0 | none => false
  | .tagAll m => match s.team g.id.team with | some t => t.ready &&& m != m | none => false
  | .slot n => match s.team g.id.team with
    | some _ => c.mq.any (fun e => e.team == g.id.team && e.slot ≤ n && n < e.slot + e.slots)
    | none => false
  | .barrier l => !s.mayDepart g l
  | .ring r st ph => match s.team g.id.team with
    | some t => t.ringHeld.getLsbD r && t.ringPhase r st != ph
    | none => false
  | .recv ep => match Tab.get c.eps ep with
    | some e => !e.servesAt (e.recvs.findIdx (· == k))
    | none => false
  | .send | .answer => g.offering && s.offerOpen k
  | .grant => c.acqWaits.any (fun w => w.group == k)
  | .served => match g.id.serves with
    | some x => (match s.group x with | some y => y.gstate == .ctxFault | none => false)
    | none => false
  | .awaits r => match g.id.serves with
    | some x => (match s.group x with | some y => y.empty r | none => false)
    | none => false
  | .drain => false

/-- Whether a group's next word could issue, as far as what it last waited on goes. -/
def State.readyGroup (s : State) (k : Nat) (g : Group) : Bool :=
  g.alive != 0 && match g.blocked with
  | none => true
  | some b => !s.stillBlocked k g b

/-- Whether the parked access of a group owes register `r` its value. -/
def Group.parkedFor (g : Group) (r : Reg) : Bool := g.log.valid && g.log.access.any (fun a => a.dest == some r)

/-- Long-latency dependences (spec/06 R124, R126, spec/07 R150, spec/12 R257, R266). -/
def Group.longWait (g : Group) : Bool :=
  match g.blocked with
  | some (.empty rs) => rs.any (fun r => g.empty r &&
      (g.accs.any (fun a => a.dest == some r) || g.parkedFor r || g.sched.stall.any (fun x => x.1 == r && 16 < x.2)))
  | some (.wake long _ _) => long
  | some (.sticky n) => g.stickyReply n || g.stickyParked n
  | some (.fill _ _) | some (.tagAny _) | some (.tagAll _) | some (.slot _) | some (.barrier _)
  | some (.ring _ _ _) | some (.recv _) | some .send | some .grant | some .parked | some .served | some (.awaits _) => true
  | _ => false

/-- Whether a group's next word waits only on a parked access or on a context page fault (spec/12 R257, spec/16 R349). -/
def Group.waitsParked (g : Group) : Bool :=
  match g.blocked with
  | some .parked | some .served => true
  | some (.empty rs) => (rs.filter g.empty).all (fun r => g.parkedFor r && !g.accs.any (fun a => a.dest == some r))
  | some (.sticky n) => g.stickyParked n && !g.stickyReply n
  | some .acquire => g.parkedAcquire && !g.accs.any (fun a => a.holds)
  | _ => false

/-- Whether a group's next word waits only on remote accesses behind ports in recovery (spec/16 R349). -/
def State.waitsRemote (s : State) (k : Nat) (g : Group) : Bool :=
  let only := fun (p : Access → Bool) => g.accs.any p && (g.accs.filter p).all s.behindPort
  match g.blocked with
  | some (.empty rs) => (rs.filter g.empty).all (fun r => only (fun a => a.dest == some r) && !g.parkedFor r)
  | some .acquire => only (fun a => a.holds) && !g.parkedAcquire
  | some .earlier =>
    let out := s.waitingStores k g.id.core
    (if g.accs.isEmpty then !out.isEmpty else only (fun _ => true)) && out.all (fun x => s.stalledPort x.pa) &&
      !(s.core g.id.core).engineBusy k && !(s.core g.id.core).hiveW.any (fun w => w.group == k)
  | some (.sticky 20) => only (fun _ => true) && !g.parked
  | _ => false

/-! ### Choosing groups -/

/-- Whether a group may still issue in this clock: it has neither issued nor tried to (spec/06 R122, R123). -/
def Core.fresh (c : Core) (k : Nat) : Bool := !c.issued.contains k && !c.tried.contains k

/-- Whether a group's team runs. -/
def State.teamRuns (s : State) (g : Group) : Bool :=
  match s.team g.id.team with
  | some t => t.status == .running
  | none => false

/-- Whether a group can take a turn: it is active and has a lane, its team runs, and its core is not held in reset (spec/24 R433). -/
def State.canIssue (s : State) (g : Group) : Bool :=
  g.gstate == .active && g.alive != 0 && s.teamRuns g && !(s.die (dieOf g.id.core)).coresReset

/-- The groups of the active set of a core that are ready and may still issue in this clock, with their ages and places counted
from the rotation's start. -/
def State.issuers (s : State) (core : Nat) : List (Nat × Nat × Nat) :=
  let c := s.core core
  ((List.range 8).filterMap (fun i => match c.active.getD i none with
    | some k => (match s.group k with
      | some g => if c.fresh k && s.canIssue g && s.readyGroup k g then some (g.sched.age, (i + 8 - c.rot) % 8, k) else none
      | none => none)
    | none => none))

/-- The first of a list by an order. -/
def firstBy (less : Nat × Group → Nat × Group → Bool) : List (Nat × Group) → Option (Nat × Group)
  | [] => none
  | x :: t =>
    match firstBy less t with
    | none => some x
    | some y => if less y x then some y else some x

/-- The groups of a core that are ready in a given residency state. -/
def State.readyIn (s : State) (core : Nat) (st : GState) : List (Nat × Group) :=
  s.groups.filter (fun x => x.2.id.core == core && x.2.gstate == st && s.teamRuns x.2 && s.readyGroup x.1 x.2)

def prioRank : Prio → Nat
  | .high => 0
  | .normal => 1
  | .low => 2

/-- The order of R125: due groups, then priority, then the longest ready. -/
def swapLess (a b : Nat × Group) : Bool :=
  let due := fun (x : Nat × Group) => 32 ≤ x.2.sched.passed
  if due a && due b then a.2.sched.ready < b.2.sched.ready
  else if due a || due b then due a
  else if prioRank a.2.sched.prio = prioRank b.2.sched.prio then a.2.sched.ready < b.2.sched.ready
  else prioRank a.2.sched.prio < prioRank b.2.sched.prio

def State.nextPending (s : State) (core : Nat) : Option (Nat × Group) := firstBy swapLess (s.readyIn core .pending)

/-- Pending groups that a swap passed over count it. -/
def Group.passOver (g : Group) : Group := { g with sched := { g.sched with passed := g.sched.passed + 1 } }

/-- The ready groups that were left pending by a swap each count it. -/
def State.passOver (s : State) (ks : List Nat) : State :=
  { s with groups := s.groups.map (fun (x : Nat × Group) => (x.1, if ks.contains x.1 then x.2.passOver else x.2)) }

/-- Pending group `k` takes position `i` of its core's active set. -/
def enterActive (s : State) (core i k : Nat) : State :=
  (s.modGroup k (fun g => { g with gstate := .active, sched := { g.sched with passed := 0 } })).modCore core (fun c =>
    { c with active := setPad none c.active i (some k) })

/-- The address at which a trap or a stop of the group returns: the bundle's first word. -/
def Group.bundlePc (g : Group) : Word :=
  match g.bundle with
  | some b => b.start
  | none => g.pc

/-- The group stands at the boundary before its bundle, or between two of its repeats (spec/04 R82, R85). -/
def Group.toBoundary (g : Group) : Group := { g with pc := g.bundlePc, bundle := none }

/-- A group that leaves the active set for the pending set at clock `clk`, at a boundary: no swap falls between words of a bundle
(spec/04 R82). -/
def Group.swappedOut (g : Group) (clk : Nat) : Group :=
  { g.toBoundary with gstate := .pending, sched := { g.sched with pend := clk } }

/-- The swap of R124: group `x` of position `i`, changed by `f`, is pending and group `k` takes its place; the other ready
pending groups have been passed over (R125). -/
def swapOut (s : State) (core i x k : Nat) (f : Group → Group) : State :=
  let others := ((s.readyIn core .pending).map (·.1)).filter (· != k)
  enterActive ((s.modGroup x (fun g => (f g).swappedOut (s.core core).clk)).passOver others) core i k

end Sys2Proof.Machine
end

