-- ==== Sys2Proof/Machine/Ops.lean ====
section
/-!
DEFINITION. The shared operations of the instructions: the passing of clocks, stores leaving a store buffer, ending a grid,
taking a trap (spec/21 R379 to R386), and issuing a word (spec/04 R81 to R88, spec/05 R97 to R104, spec/06 R121, R122).
-/

namespace Sys2Proof.Machine

/-! ### Fields of an instruction word -/

def opOf (w : W32) : Nat := bits w 31 26
def fnOf (w : W32) : Nat := bits w 25 22

/-- Majors of a lane slot (R121). -/
def laneSlotOp (op : Nat) : Bool :=
  (0x10 ≤ op && op ≤ 0x22) || (0x24 ≤ op && op ≤ 0x26) || op == 0x28 || op == 0x29 || op == 0x2D

/-- The issue slots a word takes: bit 0 scalar, bits 1 to 4 the lane slots, bit 5 matrix, bit 6 copy (R121). -/
def slotsOf (w : W32) (foot : Nat) : BitVec 7 :=
  let op := opOf w
  if laneSlotOp op then BitVec.ofNat 7 (2 * (2 ^ foot - 1))
  else if 0x34 ≤ op && op ≤ 0x36 then 0x20
  else if op == 0x30 || op == 0x32 then 0x40
  else 1

/-! ### Clocks -/

/-- Whether a group's clocks count towards its watchdog (spec/16 R349). -/
def State.counts (s : State) (k : Nat) (g : Group) : Bool :=
  (match g.gstate with | .active | .pending | .dormant => true | _ => false) &&
  !g.waitsParked && !s.waitsRemote k g

/-- One hive write takes effect (spec/07 R153). -/
def landHive (s : State) (w : HiveWrite) : State :=
  match s.team w.team with
  | none => s
  | some t =>
    let old := t.hive.getD w.reg 0
    match w.add with
    | none => s.setTeam w.team { t with hive := setPad 0 t.hive w.reg w.val }
    | some d =>
      (s.setTeam w.team { t with hive := setPad 0 t.hive w.reg (old + w.val) }).modGroup w.group (fun g => g.setS d old)

/-- One ring signal toggles its phase bit (spec/16 R340). -/
def landRing (s : State) (w : RingToggle) : State :=
  s.modTeam w.team (fun t => { t with phase := setBit t.phase w.bit (!t.phase.getLsbD w.bit) })

/-- Whether what lands at the end of clock `land` has landed when `d` clocks of the core, one at least, have passed. -/
def Core.landed (x : Core) (d land : Nat) : Bool := d != 0 && land < x.clk + d

/-- A core of which `d` clocks have passed: its slots are free if any has, and writes and signals that have landed are gone. -/
def Core.clocked (x : Core) (d : Nat) : Core :=
  { x with
    clk := x.clk + d
    acqRank := if d = 0 then x.acqRank else 0
    planeLate := if d = 0 then x.planeLate else false
    slots := if d = 0 then x.slots else 0
    issued := if d = 0 then x.issued else []
    tried := if d = 0 then x.tried else []
    hiveW := x.hiveW.filter (fun w => !x.landed d w.land)
    ringT := x.ringT.filter (fun w => !x.landed d w.land) }

/-- A group whose watchdog has counted `d` clocks. -/
def Group.counted (g : Group) (d : Nat) : Group :=
  g.take (.count 0x1168 d)

/-- The watchdogs of core `c` count `d` clocks. -/
def countAll (s : State) (c d : Nat) : State :=
  { s with groups := s.groups.map (fun x => (x.1, if x.2.id.core == c && s.counts x.1 x.2 then x.2.counted d else x.2)) }

/-- `d` clocks of core `c` pass: writes that land in them take effect, slots are free again, watchdogs count. -/
def elapse (s : State) (c d : Nat) : State :=
  let x := s.core c
  let s := s.setCore c (x.clocked d)
  let s := (x.hiveW.filter (fun w => x.landed d w.land)).foldl landHive s
  let s := (x.ringT.filter (fun w => x.landed d w.land)).foldl landRing s
  countAll s c d

/-- The clocks that pass on core `c` after a word of it: none while another group of it may issue in the same clock (spec/06 R123),
else any number. -/
def State.clocksAfter (s : State) (c : Nat) : Nat := if (s.issuers c).isEmpty then Config.stall s.fresh else 0

/-- These clocks pass. -/
def settleClock (s : State) (c : Nat) : State := (elapse s c (s.clocksAfter c)).tickFresh

/-! ### Stores leaving a store buffer (spec/15 R312, R319) -/

/-- The address of the access that a part belongs to; each side of a page boundary is an access (spec/12 R256). -/
def Part.accVa (p : Part) : Nat := if p.off ≤ p.va && (p.va - p.off) / 65536 == p.va / 65536 then p.va - p.off else p.va / 65536 * 65536

/-- The store of one part of an access. -/
def Part.store (p : Part) (k : Nat) (g : Group) (a : Access) : Store :=
  { pa := p.pa, bytes := leBytes p.n p.val, kind := p.kind, group := k, ord := a.ord, lane := p.lane, asid := g.id.asid
    va := p.accVa, gen := p.gen, pc := a.pc, insn := a.insn }

/-- The scope at which an SO access acts (R317). -/
def soScope (pa : Nat) : Scope :=
  match targetOf pa with
  | .heap _ => .device
  | _ => .system

/-- The scope of an access's release or acquire; group where it has none. -/
def Access.scopeOf (a : Access) : Scope := a.scope.getD .group

/-- A store is written at its home and its group's path in one step, or completes with poison. -/
def storeThrough (s : State) (c : Nat) (x : Store) : State :=
  match storePoison s x.pa x.bytes.length with
  | none => writePath s c x.pa x.bytes
  | some _ => storeHome (pushBytes s c x.pa x.bytes.length) x

/-- A store is written at the meeting point of a scope and at every narrower part, in one step. -/
def storeAt (s : State) (c : Nat) (sc : Scope) (x : Store) : State :=
  match sc with
  | .group | .team => enterCore s c x
  | .cluster | .die =>
    writeCore (enterDie (pushCore (fun y => y.meets x.pa x.bytes.length) s c) (dieOf c) x) c x.pa x.bytes
  | .device | .system => storeThrough s c x

/-- A store of group `k`, all of whose earlier stores have drained, leaves the store buffer: an SO store is written at its home as
a release (R317), a release store at its scope after what it releases (R319), a volatile store at its home (R325), a plain one
at the core view. -/
def leaveBuffer (s : State) (k c : Nat) (a : Access) (kind : PageKind) (x : Store) : State :=
  if kind = .so then storeThrough (pushPath s c k (soScope x.pa)) c x
  else if a.rel then
    let s := pushPath s c k a.scopeOf
    if a.vol then storeThrough s c x else storeAt s c a.scopeOf x
  else if a.vol then storeThrough s c x
  else enterCore s c x

/-- Whether a scope meets at the homes. -/
def meetsHome : Scope → Bool
  | .device | .system => true
  | _ => false

/-- Whether a store leaves the store buffer for its home: an SO store, a volatile one, a release that meets there. -/
def Access.leavesHome (a : Access) (kind : PageKind) : Bool := kind == .so || a.vol || (a.rel && meetsHome a.scopeOf)

/-- Whether a store leaves the store buffer in a step that does more than write it at the core view. -/
def Access.special (a : Access) (kind : PageKind) : Bool := a.leavesHome kind || (a.rel && a.scopeOf != .group)

/-- Whether it carries other stores out to the die view or beyond. -/
def Access.carries (a : Access) (kind : PageKind) : Bool := kind == .so || (a.rel && a.scopeOf != .group && a.scopeOf != .team)

/-- Whether a store that leaves the store buffer in such a step has to wait, all earlier ones having left it: for its port (spec/24
R425), for its group's requests to the host (spec/24 R422), or for a store that it would have to write outward first. -/
def State.homeHeld (s : State) (k c : Nat) (a : Access) (x : Store) : Bool :=
  let rel := x.kind == .so || (a.rel && meetsHome a.scopeOf)
  (a.leavesHome x.kind && (s.barred rel (fun y => rel && y.carried k) x || s.clogged c x.pa x.bytes.length)) ||
    (a.carries x.kind && s.heldBy c (fun y => y.group == k) rel (fun y => y.overlap x || y.carried k))

/-- The stores of group `k` that have left with it and wait in its store buffer. -/
def State.lateOf (s : State) (c k : Nat) : List Late := (s.core c).late.filter (fun y => y.store.group == k)

/-- Whether a store waits for an earlier one of its group that waits: both leave the store buffer in steps of their own, or touch a
common byte, or are plain stores to RC pages (R315). -/
def Late.blocks (y : Late) (a : Access) (x : Store) : Bool :=
  (y.acc.special y.store.kind && a.special x.kind) || y.store.overlap x ||
    (!y.acc.special y.store.kind && y.store.kind == .rc && x.kind == .rc && !a.special x.kind)

/-- One store of group `k` leaves the store buffer, or waits in it after the group is gone. -/
def drainPart (k : Nat) (g : Group) (a : Access) (s : State) (p : Part) : State :=
  let c := g.id.core
  let x := p.store k g a
  if (s.lateOf c k).any (fun y => y.blocks a x) || s.homeHeld k c a x then
    s.modCore c (fun y => { y with late := y.late ++ [⟨a, x⟩] })
  else leaveBuffer s k c a p.kind x

/-- Every store of group `k` that is older than access number `ord` leaves the store buffer, in program order. -/
def drainBefore (s : State) (k ord : Nat) : State :=
  match s.group k with
  | none => s
  | some g =>
    let out := g.accs.filter (fun a => a.isStore && a.ord < ord)
    let s := s.setGroup k { g with accs := g.accs.filter (fun a => !(a.isStore && a.ord < ord)) }
    out.foldl (fun s a => (a.parts.filter (fun p => !p.done)).foldl (drainPart k g a) s) s

/-- The first store of group `k` that waits in its store buffer after the group is gone leaves it, where it may. -/
def drainLate (s : State) (k : Nat) : State :=
  match s.cores.find? (fun c => c.2.late.any (fun y => y.store.group == k)) with
  | none => s
  | some (c, _) =>
    match s.lateOf c k with
    | [] => s
    | y :: _ =>
      if s.homeHeld k c y.acc y.store then s
      else leaveBuffer (s.modCore c (fun x => { x with late := x.late.erase y })) k c y.acc y.store.kind y.store

/-- Steps 2 and 3 of R319 for a release of group `k` at scope `sc`, as far as accesses older than number `ord` go. -/
def releaseBefore (s : State) (k ord : Nat) (sc : Scope) : State :=
  match s.group k with
  | none => s
  | some g =>
    match sc with
    | .group => s
    | sc => pushPath (drainBefore s k ord) g.id.core k sc

/-- Steps 2 and 3 of R319 for everything group `k` has issued. -/
def releaseStores (s : State) (k : Nat) (sc : Scope) : State :=
  match s.group k with
  | none => s
  | some g => releaseBefore s k g.ord sc

/-- Whether a release at scope `sc`, which writes the group's stores older than access number `ord`, would write a store that cannot
reach its home yet. -/
def State.pathStalled (s : State) (k : Nat) (g : Group) (ord : Nat) (sc : Scope) : Bool :=
  let c := g.id.core
  let out := (g.accs.filter (fun a => a.isStore && a.ord < ord)).flatMap (fun a =>
    (a.parts.filter (fun p => !p.done)).map (fun p => (a, p.store k g a)))
  let wide := meetsHome sc || out.any (fun q => q.1.leavesHome q.2.kind)
  sc != .group && (!(s.lateOf c k).isEmpty ||
    ((sc != .team || out.any (fun q => q.1.leavesHome q.2.kind || q.1.carries q.2.kind)) &&
      ((wide && out.any (fun q => s.barred true (Store.carried k) q.2)) ||
        s.heldBy c (fun y => y.group == k) wide (fun y => y.carried k || out.any (fun q => y.near q.2)) ||
        s.lenders.any (fun y => s.barred false (fun _ => false) y && out.any (fun q => y.near q.2)))))

/-- Whether step 1 of R319 is done for a release after the accesses older than number `ord`, and no store it must write is
held at a port. -/
def State.releaseReady (s : State) (k : Nat) (g : Group) (ord : Nat) (sc : Scope) : Bool :=
  !g.accs.any (fun a => !a.isStore && a.ord < ord) && !(s.core g.id.core).scrollOf k && !s.pathStalled k g ord sc

/-- Step 2 of R320 for group `k` at scope `sc`. -/
def acquireViews (s : State) (k : Nat) (sc : Scope) : State :=
  match s.group k with
  | none => s
  | some g => refreshPath s g.id.core sc

/-! ### Leaving the active set -/

/-- The offers of an endpoint when group `k` withdraws: an offer of its own that has paired stays, and is answered (spec/16
R347); a `trysend` that a rendezvous endpoint holds has paired. -/
def Endpoint.without (y : Endpoint) (k : Nat) : List Waiter :=
  (List.range y.offers.length).filterMap (fun i => (y.offers[i]?).bind (fun o =>
    if o.group != k || (o.try_ && y.kind == 1) then some o
    else if y.kind == 1 && i < y.recvs.length then some { o with try_ := true }
    else none))

/-- Whether a send of group `k` has paired with a receiver that has not yet taken its element. -/
def State.paired (s : State) (k : Nat) : Bool :=
  s.cores.any (fun c => c.2.eps.any (fun e => e.2.kind == 1 &&
    (e.2.offers.take e.2.recvs.length).any (fun o => o.group == k && !o.try_)))

/-- What a withdrawal leaves of a group's send: one that has paired has been performed, a `trysend` whose answer is on its way waits for
it, and another offers again. -/
def Group.unsent (g : Group) (paired answering : Bool) : Group :=
  if paired then { g with send := .answered 0 }
  else match g.send with
    | .answered _ => g
    | .asked d => if answering then g else { g.setEmpty (.s d) false with send := .none }
    | .none | .offered => { g with send := .none }

/-- Offers and waits of group `k` that have not paired are withdrawn; a `send` that has paired, or that has issued, has been performed
(spec/16 R347). -/
def withdraw (s : State) (k : Nat) : State :=
  let done := s.paired k
  let coming := s.answering k
  { s with
    offers := s.offers.filter (fun o => o.group != k || o.issued)
    cores := s.cores.map (fun (c, x) => (c, { x with
      eps := x.eps.map (fun (e, y) => (e, { y with offers := y.without k, recvs := y.recvs.filter (· != k) }))
      acqWaits := x.acqWaits.filter (fun w => w.group != k) }))
    groups := s.groups.map (fun (x : Nat × Group) => (x.1,
      if x.1 != k then x.2 else x.2.unsent done coming)) }

/-! ### Ending a grid (spec/21 R401) -/

/-- The team slots, endpoints and work of team `t` on its core are gone. -/
def clearTeam (s : State) (t : Nat) : State :=
  match s.team t with
  | none => s
  | some x =>
    let s := releaseAll s t
    let s := s.modCore x.core (fun c => { c with
      scrolls := c.scrolls.filter (fun y => y.team != t)
      copies := c.copies.filter (fun y => y.team != t)
      mq := c.mq.filter (fun y => y.team != t)
      eps := c.eps.filter (fun e => e.2.team != t)
      acqWaits := c.acqWaits.filter (fun w => w.team != t)
      rels := c.rels.filter (fun w => w.team != t)
      hiveW := c.hiveW.filter (fun w => w.team != t)
      ringT := c.ringT.filter (fun w => w.team != t) })
    redecide { s with teams := Tab.erase s.teams t } x.core

/-- Group `k` is gone: its stores drain, its other accesses are discarded, its rows and position are free. -/
def removeGroup (s : State) (k : Nat) : State :=
  match s.group k with
  | none => s
  | some g =>
    let s := drainBefore s k (g.ord + 1)
    let s := withdraw s k
    let s := leaveActive s g.id.core k
    let s := s.modCore g.id.core (fun c => { c.dropAll k g.regs.pin false with sfu := c.sfu.filter (fun e => e.group != k) })
    let s := s.modGrid g.id.grid (fun x => { x with past := x.past ++ [k] })
    { s with groups := Tab.erase s.groups k, signals := s.signals.filter (fun x =>
        match x.packet with
        | .answer g' _ => g' != k
        | .element g' _ => g' != k
        | _ => true) }

/-- A grid is aborted or ended with a status (R401); the completion and the event of KIND 4 follow at its end. -/
def endGrid (s : State) (gr status team : Nat) : State :=
  match s.grid gr with
  | none => s
  | some g =>
    if g.ended.isSome then s
    else
      let core := match s.teamKey gr team with
        | some t => (match s.team t with | some x => if x.status == .saved || x.status == .restarting then 0x3FF else x.core | none => 0x3FF)
        | none => 0x3FF
      let s := s.setGrid gr { g with ended := some status, endTeam := team, endCore := core }
      let s := (s.groups.filter (fun x => x.2.id.grid == gr)).foldl (fun s x => removeGroup s x.1) s
      let s := (s.teams.filter (fun x => x.2.grid == gr)).foldl (fun s x => clearTeam s x.1) s
      { s with
        barriers := s.barriers.filter (fun b => b.grid != gr)
        signals := s.signals.filter (fun x =>
          match x.packet with
          | .arrival g' _ _ _ _ => g' != gr
          | .release g' _ _ _ _ => g' != gr
          | _ => true) }

/-! ### The trap record (spec/21 R383, R384) -/

/-- PEND of the record: bits 24 to 28 for codes 15, 16, 18, 20, 21, bit 29 for code 17. -/
def pendBit (code : Nat) : Nat :=
  match code with
  | 15 => 24
  | 16 => 25
  | 18 => 26
  | 20 => 27
  | 21 => 28
  | _ => 29

def pendBits (l : List Deferred) : Nat := bitsOf (fun i => l.any (fun d => pendBit d.code == i)) 30

/-- The first dword of the record. -/
def Group.recHead (g : Group) : Nat :=
  g.trap.cause + g.rptdone % 64 * 2 ^ 8 + (if g.trap.deferred then 2 ^ 16 else 0) + pendBits g.pend

/-- The record's dwords with their offsets. -/
def Group.recDwords (g : Group) : List (Nat × Nat) :=
  [(0x00, g.recHead), (0x08, g.trap.retpc.toNat), (0x10, g.trap.faultpc.toNat), (0x18, g.trap.insn.toNat),
   (0x20, g.trap.info0.toNat), (0x28, g.trap.info1.toNat)] ++
  (List.range 12).map (fun i => (0x40 + 8 * i, g.trap.lanes.toNat / 2 ^ (64 * i) % 2 ^ 64)) ++
  [(0x200, if g.trap.region then 1 else 0), (0x208, g.trap.entry.toNat)]

/-- The record's address: bits 56:10 of TRAPREC. -/
def Group.recBase (g : Group) : Nat := bits g.sys.traprec 56 10 * 1024

/-- Writes a list of dwords at offsets from a base in the context of `g`. -/
def ctxStoreAt (s : State) (g : Group) (base : Nat) : List (Nat × Nat) → Except (Nat × Bool) State
  | [] => .ok s
  | (o, v) :: t =>
    match ctxStore s g (base + o) v with
    | .error e => .error e
    | .ok s => ctxStoreAt s g base t

/-- The record is written at TRAPREC; a failure is a context page fault (R384). -/
def writeRecord (s : State) (k : Nat) : State :=
  match s.group k with
  | none => s
  | some g =>
    match ctxStoreAt s g g.recBase g.recDwords with
    | .ok s => s
    | .error e => ctxFault s k (cfCause e.2 2) e.1 .record

/-! ### Taking a trap (R381, R385, R386, R401) -/

/-- A trap: code and information words of R379. -/
structure Trap where
  code : Nat
  info0 : Word := 0
  info1 : Word := 0
  lanes : Mask := 0
  deriving DecidableEq, Repr

/-- The repeats of the bundle that have completed (R85). -/
def Group.repeats (g : Group) : Nat := g.rptdone

/-- Group `k` takes a trap: its team's handler gets it, or its grid is aborted where TRAPEN is 0, where it is itself a handler,
and on a context-access fault.
`ret` is RETPC, `fault` FAULTPC, `w` the word. -/
def enterTrap (s : State) (k : Nat) (t : Trap) (deferred : Bool) (ret fault : Word) (w : W32) : State :=
  match s.group k with
  | none => s
  | some g =>
    let s := if t.code = 27 then noteUncorr s g.id.core (max 1 (popcount t.lanes)) else s
    let enabled := match s.grid g.id.grid with | some gr => gr.launch.trapen | none => false
    let index := match s.team g.id.team with | some x => x.index | none => 0
    if t.code = 26 || g.id.hndl || !enabled then endGrid s g.id.grid 16 index
    else
      let r : TrapRec := {
        cause := t.code, deferred := deferred, retpc := ret, faultpc := fault, insn := w, info0 := t.info0, info1 := t.info1
        lanes := t.lanes, region := g.region.isSome
        entry := match g.region with | some x => x.entry | none => 0 }
      let s := closeRegion s k
      let s := withdraw s k
      let s := s.modGroup k (fun g => { g with
        gstate := .handler
        before := .pending
        pc := ret
        bundle := none
        blocked := none
        fetchWait := match g.fetchWait with | some f => if f.failed then none else some f | none => none
        trap := r })
      let s := leaveActive s g.id.core k
      let s := s.modTeam g.id.team (fun x => { x with handlers := x.handlers ++ [k] })
      writeRecord s k

/-- A core in which a word of group `k` has taken the slots `m` in this clock (spec/06 R121). -/
def Core.slotted (x : Core) (m : BitVec 7) (k : Nat) : Core := { x with slots := x.slots ||| m, issued := x.issued ++ [k] }

/-- A precise trap at the word `w` that group `k` would issue (R82, R383): RETPC and FAULTPC are the bundle.  The word takes its
slot (spec/06 R122). -/
def takeTrap (s : State) (k : Nat) (w : W32) (t : Trap) : State :=
  match s.group k with
  | none => s
  | some g =>
    settleClock (enterTrap (s.modCore g.id.core (fun x => x.slotted (slotsOf w g.id.foot) k)) k t false g.bundlePc g.bundlePc w)
      g.id.core

/-! ### Legality of hints and prefix (spec/04 R84, R86, R87), privilege and role (R80, R29) -/

def repeatable (op : Nat) : Bool :=
  (1 ≤ op && op ≤ 7) || op == 0x0A || (0x10 ≤ op && op ≤ 0x22) || op == 0x26 || (0x28 ≤ op && op ≤ 0x2E)

/-- Whether bits 11:7 are a B or index field that a prefix may step. -/
def hasB (op fn : Nat) : Bool :=
  !(op == 4 || (op == 5 && fn < 3) || (op == 6 && fn != 0) || op == 0x14 || op == 0x1C || (op == 0x22 && fn == 3) ||
    ((op == 0x28 || op == 0x29 || op == 0x2A || op == 0x2D) && 8 ≤ fn))

/-- The largest number the D, A and B fields may reach: 7 where they name predicates. -/
def limD (op fn : Nat) : Nat :=
  if op == 0x0A || op == 0x15 || ((op == 0x18 || op == 0x1A || op == 0x1B) && 14 ≤ fn) then 7 else 31
def limA (op fn : Nat) : Nat :=
  if (op == 0x0A && fn != 6) || (op == 0x21 && (fn == 1 || fn == 11)) then 7 else 31
def limB (op : Nat) : Nat := if op == 0x0A then 7 else 31

/-- R84, for the word of the repeat now due, of which `left` repeats remain. -/
def rptOk (w : W32) (r : RptHint) (left : Nat) : Bool :=
  let op := opOf w
  let fn := fnOf w
  let last := (left - 1) * r.stride
  repeatable op && (!r.b || hasB op fn) &&
    (!r.d || bits w 21 17 + last ≤ limD op fn) && (!r.a || bits w 16 12 + last ≤ limA op fn) &&
    (!r.b || bits w 11 7 + last ≤ limB op)

/-- Whether a wide hint applies to the word (R86, R148 to R152, R159). -/
def wideOk (w : W32) : Bool := opOf w == 4 && !(fnOf w == 4 || fnOf w == 5 || fnOf w == 6 || fnOf w == 11)

/-- The word is a load, a store or an atomic of majors 0x28 to 0x2C. -/
def isLoadOp (w : W32) : Bool :=
  let op := opOf w
  op == 0x28 || (op == 0x2A && !w.getLsbD 24) || (op == 0x2B && fnOf w == 0)
def isStoreOp (w : W32) : Bool :=
  let op := opOf w
  op == 0x29 || (op == 0x2A && w.getLsbD 24) || (op == 0x2B && fnOf w == 1)

/-- R87, with R247, R253, R275 and R276 for the majors that take SCOPE, ORDER and CACHE. -/
def modOk (w : W32) (m : ModHint) : Bool :=
  let op := opOf w
  let plain := m.scope == .none && m.order == .byKind
  if plain && m.cache == .dflt then true
  else if op == 0x2D then plain
  else if op == 0x30 || op == 0x32 then
    m.order == .byKind && (m.scope == .none || m.scope == .at .device || m.scope == .at .system)
  else if 0x28 ≤ op && op ≤ 0x2E then
    (m.scope == .none || bits w 1 0 == 0) && (m.order == .byKind || m.scope != .none) &&
      (match m.order with
        | .byKind => true
        | .acquire => !isStoreOp w
        | .release => !isLoadOp w
        | .both => op == 0x2C)
  else false

/-- The words whose role check is not the group's own (R28). -/
def roleOk (op : Nat) (r : Role) : Bool :=
  if (0x10 ≤ op && op ≤ 0x22) || (0x24 ≤ op && op ≤ 0x26) || op == 0x2D then r == .vector
  else if 0x34 ≤ op && op ≤ 0x36 then r == .matrix
  else if op == 0x30 || op == 0x32 then r == .copy
  else true

def roleCode : Role → Nat
  | .vector => 0
  | .matrix => 1
  | .copy => 2

/-- The repeats that remain, the one now due among them. -/
def Group.repeatsLeft (g : Group) (r : RptHint) : Nat := r.n - g.rptdone

/-- `srd` and `swr`, whose bits 10:0 number a system register. -/
def namesSysReg (w : W32) : Bool := opOf w == 6 && (fnOf w == 1 || fnOf w == 2)

/-- What supervisor state permits (R80, spec/03 R65): the privileged function codes of 0x3D, numbers from 1024 of `srd`
and `swr`, and `swr` of WDLIMIT and TRAPREC. -/
def privileged (w : W32) : Bool :=
  (opOf w == 0x3D && 8 ≤ fnOf w && fnOf w ≤ 11) ||
    (namesSysReg w && (1024 ≤ bits w 10 0 || (fnOf w == 2 && (bits w 10 0 == 26 || bits w 10 0 == 28))))

/-- The checks of R29 that the decoder does not make: hints and prefix, privilege, role. -/
def wordTrap (w : W32) (g : Group) : Option Trap :=
  let legal := match g.bundle with
    | none => true
    | some b =>
      (b.wide.isNone || wideOk w) &&
      (match b.mod with | some m => modOk w m | none => true) &&
      (match b.rpt with | some r => rptOk w r (g.repeatsLeft r) | none => true)
  if !legal || (namesSysReg w && g.id.supv && 1038 < bits w 10 0) then some { code := 1 }
  else if privileged w && !g.id.supv then some { code := 2 }
  else if !roleOk (opOf w) g.id.role then some { code := 3, info0 := BitVec.ofNat 64 (roleCode g.id.role) }
  else none

/-! ### Registers of an instruction -/

/-- What an instruction does with registers: those it reads in the order of R380, those its marks free, those it writes,
whether an empty one traps, its effective mask where it is a lane instruction, whether it closes a region (R392). -/
structure Need where
  regs : List Reg := []
  frees : List Reg := []
  dests : List Reg := []
  et : Bool := false
  lane : Option Mask := none
  closes : Bool := false

/-- INFO0 of codes 5 and 6: register number, and file in bits 9:8. -/
def regInfo : Reg → Word
  | .s n => BitVec.ofNat 64 n
  | .v n => BitVec.ofNat 64 (n + 256)

/-- What the registers of an instruction hold it to. -/
inductive Hold where
  | go
  | trap (t : Trap)
  | wait (b : Block)
  | wake (rs : List Reg)
  | rebuild (r : Reg)
  | room (r : Reg)
  deriving DecidableEq, Repr

/-- A register that a `hadd` in flight will write (spec/07 R153). -/
def Core.hivePending (c : Core) (k : Nat) (r : Reg) : Bool :=
  match r with
  | .s n => c.hiveW.any (fun w => w.group == k && w.add == some n)
  | .v _ => false

/-- The lanes of a register that hold an uncorrectable word (spec/23 R411). -/
def State.badLanes (s : State) (k core : Nat) (r : Reg) : Mask :=
  match r with
  | .s _ => 0
  | .v _ => maskOf 768 (fun l => (s.regErrs k core r).any (fun e => e.marked && e.lane == l))

/-- The registers' part of R380 and R122: dead, empty, missing, unwoken, damaged, uncorrectable, then room for the destinations. -/
def regHold (s : State) (k : Nat) (g : Group) (n : Need) : Hold :=
  let c := s.core g.id.core
  match n.regs.find? (fun r => !g.live r) with
  | some r => .trap { code := 5, info0 := regInfo r }
  | none =>
  match n.regs.filter (fun r => g.empty r) with
  | r :: rs => if n.et then .trap { code := 6, info0 := regInfo r } else .wait (.empty (r :: rs))
  | [] =>
  match (n.regs ++ n.dests).find? (fun r => c.hivePending k r) with
  | some _ => .wait .earlier
  | none =>
  match n.regs.filter (fun r => !c.cached k g.id.foot r) with
  | r :: rs => .wait (.fill (r :: rs) (n.regs ++ n.dests))
  | [] =>
  match n.regs.filter (fun r => !c.woken k r) with
  | r :: rs => .wake (r :: rs)
  | [] =>
  match n.regs.find? (fun r => (s.regErrs k g.id.core r).any (fun e => !e.marked)) with
  | some r => .rebuild r
  | none =>
  match n.regs.find? (fun r => !(s.regErrs k g.id.core r).isEmpty) with
  | some r => .trap { code := 27, info0 := regInfo r, lanes := s.badLanes k g.id.core r }
  | none =>
  match n.dests.find? (fun r => s.writeHeld k g.id.core g.id.foot r (fun l => !renames g n.frees r && bit (n.lane.getD g.full) l)) with
  | some _ => .wait .rebuild
  | none =>
  match n.dests.find? (fun r => !c.room k g.id.foot (renames g n.frees r) r) with
  | some r => .room r
  | none => .go

/-! ### Issuing a word -/

/-- What an instruction's own checks answer, before it has any effect. -/
inductive Gate where
  | pass
  | trap (t : Trap)
  | trapIn (t : Trap) (s : State)
  | wait (b : Block) (s : State)

/-- The trap that a word reports of a register's trap and what its own checks answer: an uncorrectable operand comes after what is
not held (spec/21 R380). -/
def Trap.afterHeld (t : Trap) (g : Gate) : Trap :=
  match g with
  | .trap u => if t.code = 27 && u.code == 10 then u else t
  | _ => t

/-- What a release at scope `sc` waits for (spec/15 R319). -/
def relGate (k : Nat) (g : Group) (s : State) (sc : Scope) : Gate :=
  if s.releaseReady k g g.ord sc then .pass else .wait .earlier s

/-- What an instruction leaves: the state, the next pc where it jumps, a trap taken after it, and an effect of its own once the
group has gone on. -/
structure Done where
  s : State
  pc : Option Word := none
  after : Option Trap := none
  last : State → State := id

/-- A core on which group `k` could not issue in this clock. -/
def Core.tries (x : Core) (k : Nat) : Core := { x with tried := x.tried ++ [k] }

/-- Group `k` waits. -/
def stall (s : State) (c k : Nat) (b : Block) : State :=
  settleClock ((s.modGroup k (fun g => { g with blocked := some b })).modCore c (fun x => x.tries k)) c

/-- Group `k` finds no slot (R122, R123): younger groups may take others in the same clock; one that has had its turn in this clock
comes again in the next. -/
def skipSlot (s : State) (c k : Nat) : State :=
  if (s.core c).fresh k then settleClock (s.modCore c (fun x => x.tries k)) c else elapse s c 1

/-- Majors that wait while an access of the group is parked (spec/12 R257). -/
def waitsParked (w : W32) : Bool :=
  let op := opOf w
  let fn := fnOf w
  (0x28 ≤ op && op ≤ 0x2C) || op == 0x2E || op == 0x30 || op == 0x32 || (0x38 ≤ op && op ≤ 0x3B) ||
    (op == 9 && (fn == 3 || fn == 5)) || (op == 0x3D && (fn == 2 || fn == 3))

/-- Plane instructions and engine commands, which wait for an acquire (spec/15 R320). -/
def waitsAcquire (w : W32) : Bool :=
  let op := opOf w
  (0x24 ≤ op && op ≤ 0x26) || op == 0x2D || op == 0x30 || op == 0x32 || op == 0x34 || op == 0x35 ||
    (op == 0x36 && fnOf w == 0) || (op == 0x3C && (fnOf w == 5 || (fnOf w ≤ 2 && bits w 11 9 == 1)))

/-- Majors that count against the limit of outstanding memory requests (R122). -/
def requestsMemory (w : W32) : Bool := (0x28 ≤ opOf w && opOf w ≤ 0x2D)

/-- The plane instructions of a lane slot (spec/10 R219). -/
def planeSlotOp (op : Nat) : Bool := (0x24 ≤ op && op ≤ 0x26) || op == 0x2D

/-- What holds a word back whatever its operands: a parked access, an acquire, 1024 outstanding requests (R122), a full matrix
queue for any word of the matrix slot (spec/14 R302), a full special-function queue (spec/09 R201), or, for a plane instruction of a lane slot, a scalar-slot plane word of this clock, which counts as issued after it (spec/10 R219). -/
def State.heldBack (s : State) (w : W32) (g : Group) : Option Block :=
  if g.parked && waitsParked w then some .parked
  else if g.acquirePending && waitsAcquire w then some .acquire
  else if requestsMemory w && s.limited g.id.core .requests then some (.queue .requests)
  else if 0x34 ≤ opOf w && opOf w ≤ 0x36 && s.limited g.id.core .matrix then some (.queue .matrix)
  else if opOf w == 0x1E && s.limited g.id.core .sfu then some (.queue .sfu)
  else if planeSlotOp (opOf w) && (s.core g.id.core).planeLate then some (.queue .unit)
  else none

/-- Whether the slots of the word and the group's own issue are free in this clock (R121, R122). -/
def State.slotFree (s : State) (k : Nat) (g : Group) (w : W32) : Bool :=
  (s.core g.id.core).slots &&& slotsOf w g.id.foot == 0 && (s.core g.id.core).fresh k

/-- A group with the priority (0 none) of a scheduling hint (spec/04 R88). -/
def Group.hinted (g : Group) (prio : Nat) : Group :=
  let p : Prio := match prio with
    | 1 => .low
    | 2 => .normal
    | 3 => .high
    | _ => g.sched.prio
  { g with sched := { g.sched with prio := p } }

/-- A group whose last instruction writes `dests`: what is recorded of the results that it still owes is STALL `n` of its hint,
or nothing where it has none (spec/06 R126). -/
def Group.stalling (g : Group) (dests : List Reg) (n : Nat) : Group :=
  let rest := g.sched.stall.filter (fun x => g.empty x.1 && !dests.contains x.1)
  { g with sched := { g.sched with stall := rest ++ (if n = 0 then [] else (dests.filter g.empty).map (fun r => (r, n))) } }

/-- A group that has yielded: ready at once, and a demotion candidate (spec/06 R127). -/
def Group.yields (g : Group) (clk : Nat) : Group := { g with sched := { g.sched with yielded := true, ready := clk } }

/-- Group `k` yields: where a ready pending group exists, the two are swapped (spec/06 R127). -/
def yield (s : State) (k : Nat) : State :=
  match s.group k with
  | none => s
  | some g =>
    match s.nextPending g.id.core with
    | none => s
    | some (x, _) =>
      if g.gstate != .active then s
      else swapOut s g.id.core ((s.core g.id.core).active.findIdx (· == some k)) k x
        (fun g => g.yields (s.core g.id.core).clk)

/-- A group whose word has issued: nothing holds it back, and its watchdog starts again (spec/16 R349). -/
def Group.freshened (g : Group) (clk : Nat) : Group :=
  { g with blocked := none, inbar := 0, sys := { g.sys with wdcount := 0 }, sched := { g.sched with age := clk, yielded := false } }

/-- A group that leaves its bundle for address `pc`. -/
def Group.leaves (g : Group) (pc : Word) : Group := { g with rptdone := 0, bundle := none, pc := pc }

/-- The next word or the next repeat of group `k` becomes its next word (R83), at address `dest` where it jumps. -/
def advance (g : Group) (clk : Nat) (dest : Option Word) : Group :=
  let g := g.freshened clk
  match g.bundle with
  | some b =>
    match b.rpt with
    | some r =>
      if g.rptdone + 1 < r.n then { g with rptdone := g.rptdone + 1, bundle := some { b with begun := true } }
      else g.leaves (g.pc + 4)
    | none => g.leaves (dest.getD (g.pc + 4))
  | none => g.leaves (dest.getD (g.pc + 4))

/-- `yield` (spec/06 R127). -/
def isYield (w : W32) : Bool := opOf w == 9 && fnOf w == 4

/-- A core in which a word of group `k` has issued in this clock, on the slots `m`. -/
def Core.taken (x : Core) (m : BitVec 7) (k : Nat) : Core := { x.slotted m k with ras := { x.ras with replays := [] } }

/-- STALL of the scheduling hint of a bundle. -/
def stallOf (b : Option Bundle) : Nat :=
  match b with
  | some { sched := some (_, _, n), .. } => n.toNat
  | _ => 0

/-- The scheduling hint of the bundle in which group `k` has issued an instruction takes effect, at each repeat (spec/04 R82,
R88, spec/06 R126, R127). -/
def applySched (s : State) (k : Nat) (b : Option Bundle) (dests : List Reg) : State :=
  let s := s.modGroup k (fun g => g.stalling dests (stallOf b))
  match b with
  | some { sched := some (y, p, _), .. } =>
    let s := s.modGroup k (fun g => g.hinted p.toNat)
    if y then yield s k else s
  | _ => s

/-- Group `k`, which is `g`, takes its word's slots and goes on; its hints take effect.  `dests` are the registers that the
instruction writes. -/
def goOn (s : State) (k : Nat) (g : Group) (w : W32) (dest : Option Word) (dests : List Reg) : State :=
  let g' := advance g (s.core g.id.core).clk dest
  let s := applySched ((s.modCore g.id.core (fun x => x.taken (slotsOf w g.id.foot) k)).setGroup k g') k g.bundle dests
  if isYield w then yield s k else s

/-- The word has issued: its slots are taken, the group goes on, hints take effect, time passes. -/
def finish (s : State) (k : Nat) (w : W32) (dest : Option Word) (dests : List Reg) : State :=
  match s.group k with
  | none => s
  | some g => settleClock (goOn s k g w dest dests) g.id.core

/-- Registers are touched in an open region: their values at entry are no longer their own. -/
def noteTouches (s : State) (k : Nat) (rs : List Reg) : State :=
  s.modGroup k (fun g => rs.foldl Group.noteTouch g)

/-- Rows turn over for the registers an instruction freed and wrote; a region that keeps too much closes first. -/
def turnRows (s : State) (k : Nat) (g : Group) (frees dests : List Reg) : State :=
  let c := (s.core g.id.core).turnover k g frees dests
  if g.region.isSome && c.keepsTooMuch k then
    (closeRegion s k).modCore g.id.core (fun c => c.turnover k { g with region := none } frees dests)
  else noteTouches (s.setCore g.id.core c) k (frees ++ dests)

/-- Results still to come for registers that an instruction frees or writes in full are discarded (R104, R117, spec/09
R201). -/
def dropPending (s : State) (k core : Nat) (rs : List Reg) : State :=
  (s.modGroup k (fun g => rs.foldl Group.discard g)).modCore core (fun c =>
    { c with
      sfu := c.sfu.map (fun e =>
        match e.dest with
        | some n => if e.group = k ∧ rs.contains (.v n) then { e with dest := none } else e
        | none => e)
      hiveW := c.hiveW.map (fun w =>
        match w.add with
        | some n => if w.group = k ∧ rs.contains (.s n) then { w with add := some 0 } else w
        | none => w) })

/-- The group whose region, if one is open, the instruction closes (R392). -/
def Group.closedBy (g : Group) (n : Need) : Group := if n.closes then { g with region := none } else g

/-- What an instruction's own effect starts from: its region is closed where it closes it, and its marks have freed their
registers, once all sources are read (R72). -/
def startWord (s : State) (k core : Nat) (n : Need) : State :=
  (dropPending (if n.closes then closeRegion s k else s) k core (n.frees ++ n.dests)).modGroup k (fun g => g.freeAll n.frees)

/-- Rows turn over, the registers read are marked used, and errors end in those written. -/
def turnWord (s : State) (k : Nat) (g : Group) (n : Need) : State :=
  let old := s.core g.id.core
  let s := turnRows s k g n.frees n.dests
  let s := s.modCore g.id.core (fun c => n.regs.foldl (fun c r => c.touch k false r) c)
  n.dests.foldl (fun s r => mendRows s k g old r (bit (n.lane.getD g.full))) s

/-- The instruction is performed: the body acts, rows turn over, and the group goes on. -/
def perform (s : State) (k : Nat) (g : Group) (w : W32) (n : Need) (body : State → Done) : State :=
  let g := g.closedBy n
  let d := body (startWord s k g.id.core n)
  let s := finish (turnWord d.s k g n) k w d.pc n.dests
  match d.after with
  | none => d.last s
  | some t =>
    match s.group k with
    | none => s
    | some g' => enterTrap s k t false g'.pc g.bundlePc w

/-- Issuing word `w` of group `k`, whose registers `n` names, with the instruction's own checks and effect.  DESIGN CHOICE (log entry 93):
a word of another role's major takes the role trap of R29 though its effective mask is empty (R71). -/
def issueAt (s : State) (k : Nat) (g : Group) (w : W32) (n : Need) (gate : Unit → Gate) (body : State → Done) : State :=
  if !s.slotFree k g w then skipSlot s g.id.core k
  else match s.heldBack w g with
  | some b => stall s g.id.core k b
  | none =>
  match wordTrap w g with
  | some t => takeTrap s k w t
  | none =>
  if n.lane = some 0 then finish s k w none []
  else match regHold s k g n with
  | .trap t => takeTrap s k w (t.afterHeld (gate ()))
  | .wait b => stall s g.id.core k b
  | .wake rs => stall (s.modCore g.id.core (fun c => rs.foldl (fun c r => c.wakeReg k r) c)) g.id.core k
      (.wake (rs.any ((s.core g.id.core).wakesLong k)) rs [])
  | .rebuild r => stall ((s.regErrs k g.id.core r).foldl (fun s e => requestRebuild s e.site) s) g.id.core k .rebuild
  | .room r => (makeRoom s g.id.core k g.id.foot (renames g n.frees r) r (n.regs ++ n.dests)).tickFresh
  | .go =>
    match gate () with
    | .trap t => takeTrap s k w t
    | .trapIn t s' => takeTrap s' k w t
    | .wait b s' => stall s' g.id.core k b
    | .pass => perform s k g w n body

/-- An instruction of the issuing group. -/
def issue (w : W32) (need : Group → Need) (gate : Nat → Group → State → Gate) (body : Nat → Group → State → Done)
    (s : State) : Host.Outcome State Fault Refusal :=
  match s.cur with
  | none => .fault .noIssuer
  | some k =>
    match s.group k with
    | none => .fault .noIssuer
    | some g => .next (issueAt s k g w (need g) (fun _ => gate k g s) (body k g))

/-- No checks of its own. -/
def noGate (_ : Nat) (_ : Group) (_ : State) : Gate := .pass

/-- An effect on the issuing group alone. -/
def onGroup (f : Group → Group → Group) (k : Nat) (g : Group) (s : State) : Done := { s := s.modGroup k (f g) }

/-- A list with the items that a condition selects. -/
def pick {α : Type} (b : Bool) (a : α) : List α := if b then [a] else []

end Sys2Proof.Machine
end

