-- ==== Sys2Proof/Machine/Operands.lean ====
section
/-!
DEFINITION. Operand forms: the registers of each format with their marks (spec/04 R67 to R75), packed elements (spec/08
R164), and the shapes shared by scalar and lane instructions.
-/

namespace Sys2Proof.Machine

/-! ### Registers of a format -/

/-- The E bit or an ET hint (spec/04 R73, R87). -/
def Group.et (g : Group) (e : Bool) : Bool :=
  e || match g.bundle with
    | some b => (match b.mod with | some m => m.et | none => false)
    | none => false

def sr (n : BitVec 5) : Reg := .s n.toNat
def vr (n : BitVec 5) : Reg := .v n.toNat

/-- A mark on s0 frees nothing (R72). -/
def freed (srcs : List (Reg × Bool)) : List Reg :=
  ((srcs.filter (·.2)).map (·.1)).filter (fun r => r != .s 0)

/-- Whether a lane write under mask `m` leaves an alive lane of a live register unwritten, so that it reads it (R99). -/
def Group.partialV (g : Group) (d : Reg) (m : Mask) : Bool := g.live d && (g.full &&& g.alive &&& ~~~m != 0)

/-- Sources in the order of R380, a destination, whether it is read as an operand, the E bit. -/
def needS (g : Group) (srcs : List (Reg × Bool)) (dest : Option Reg) (reads e : Bool) : Need :=
  { regs := srcs.map (·.1) ++ (match dest with | some d => pick reads d | none => [])
    frees := freed srcs
    dests := (match dest with | some d => pick (d != .s 0) d | none => [])
    et := g.et e }

/-- The same for a lane instruction under predicate `q` that writes lane register `d`. -/
def needV (g : Group) (srcs : List (Reg × Bool)) (d : Reg) (reads e : Bool) (q : Nat) : Need :=
  { regs := srcs.map (·.1) ++ pick (reads || g.partialV d (g.eff q)) d
    frees := freed srcs
    dests := [d]
    et := g.et e
    lane := some (g.eff q) }

/-- The same for a lane instruction that writes a predicate or a scalar. -/
def needL (g : Group) (srcs : List (Reg × Bool)) (dest : List Reg) (e : Bool) (q : Nat) : Need :=
  { regs := srcs.map (·.1)
    frees := freed srcs
    dests := dest.filter (fun r => r != .s 0)
    et := g.et e
    lane := some (g.eff q) }

/-! ### Scalar results -/

/-- A `w`-bit result in `d`: a 32-bit result keeps bits 63:32 of a live destination (spec/07 R144). -/
def Group.putW (g : Group) (x : Bool) (d : Nat) (v : Nat) : Group :=
  g.setS d (BitVec.ofNat 64 (if x then v % 2 ^ 32 + (if g.live (.s d) then bits (g.sreg d) 63 32 * 2 ^ 32 else 0) else v))

def widthOf (x : Bool) : Nat := if x then 32 else 64

/-- The low bits of a scalar that an instruction of width `w` uses. -/
def Group.sw (g : Group) (x : Bool) (n : BitVec 5) : Nat := (g.sreg n.toNat).toNat % 2 ^ widthOf x

/-- Whether a 32-bit write reads its destination: it is live and not freed by the instruction's own marks. -/
def Group.keeps (g : Group) (x : Bool) (d : BitVec 5) (fr : List Reg) : Bool :=
  x && d != 0 && g.live (sr d) && !fr.contains (sr d)

/-- A scalar instruction of format A with two sources: `f w a b` is its result at width `w`. -/
def scalarBin (w : W32) (d a b : BitVec 5) (l m e x : Bool) (f : Nat → Nat → Nat → Nat) :=
  let srcs := [(sr a, l), (sr b, m)]
  issue w (fun g => needS g srcs (some (sr d)) (g.keeps x d (freed srcs)) e) noGate
    (onGroup (fun g g' => g'.putW x d.toNat (f (widthOf x) (g.sw x a) (g.sw x b))))

/-- A scalar instruction of format A with one source. -/
def scalarUn (w : W32) (d a : BitVec 5) (l e x : Bool) (f : Nat → Nat → Nat) :=
  let srcs := [(sr a, l)]
  issue w (fun g => needS g srcs (some (sr d)) (g.keeps x d (freed srcs)) e) noGate
    (onGroup (fun g g' => g'.putW x d.toNat (f (widthOf x) (g.sw x a))))

/-! ### Packed elements (R164) -/

/-- Element `e` of width `w`. -/
def elem (w : Nat) (x : Word) (e : Nat) : Nat := x.toNat / 2 ^ (w * e) % 2 ^ w

/-- `n` elements of width `w`; bits above them are zero. -/
def packN (w : Nat) (f : Nat → Nat) : Nat → Nat
  | 0 => 0
  | n + 1 => packN w f n + f n % 2 ^ w * 2 ^ (w * n)

def pack (w : Nat) (f : Nat → Nat) : Word := BitVec.ofNat 64 (packN w f (64 / w))

/-! ### Lane results -/

/-- Flags of every lane of a mask, ORed (spec/08 R180). -/
def orFlags (n : Nat) (m : Mask) (f : Nat → Fx) : Fx := (lanesOf n m).foldl (fun a l => a ||| f l) fxNone

/-- A lane instruction's results: `f` gives each lane's value and flags. -/
def laneOut (q : Nat) (d : BitVec 5) (f : Group → Nat → Word × Fx) (g g' : Group) : Group :=
  (g'.setV g d.toNat (g.eff q) (fun l => (f g l).1)).addFlags (orFlags g.lanes (g.eff q) (fun l => (f g l).2))

/-- A lane instruction with two lane sources that raises no flags. -/
def laneBin (w : W32) (d a b : BitVec 5) (q : BitVec 3) (l m e : Bool) (f : Word → Word → Word) :=
  issue w (fun g => needV g [(vr a, l), (vr b, m)] (vr d) false e q.toNat) noGate
    (onGroup (laneOut q.toNat d (fun g i => (f (g.vreg a.toNat i) (g.vreg b.toNat i), fxNone))))

/-- The same for one that reads its destination. -/
def laneAcc (w : W32) (d a b : BitVec 5) (q : BitVec 3) (l m e : Bool) (f : Word → Word → Word → Word) :=
  issue w (fun g => needV g [(vr a, l), (vr b, m)] (vr d) true e q.toNat) noGate
    (onGroup (laneOut q.toNat d (fun g i => (f (g.vreg a.toNat i) (g.vreg b.toNat i) (g.vreg d.toNat i), fxNone))))

/-- A lane instruction with one lane source. -/
def laneUn (w : W32) (d a : BitVec 5) (q : BitVec 3) (l e : Bool) (f : Word → Word) :=
  issue w (fun g => needV g [(vr a, l)] (vr d) false e q.toNat) noGate
    (onGroup (laneOut q.toNat d (fun g i => (f (g.vreg a.toNat i), fxNone))))

/-- A compare of two lane registers into a predicate: `f` gives each lane's bit and flags. -/
def laneCmp (w : W32) (d : BitVec 3) (a b : BitVec 5) (q : BitVec 3) (l m e : Bool) (f : Word → Word → Bool × Fx) :=
  issue w (fun g => needL g [(vr a, l), (vr b, m)] [] e q.toNat) noGate
    (onGroup (fun g g' =>
      (g'.setP d.toNat (g.eff q.toNat) (fun i => (f (g.vreg a.toNat i) (g.vreg b.toNat i)).1)).addFlags
        (orFlags g.lanes (g.eff q.toNat) (fun i => (f (g.vreg a.toNat i) (g.vreg b.toNat i)).2))))

/-! ### Instructions that round (spec/08 R168 to R174) -/

/-- The group with its generator stepped where the mode is RS (R173). -/
def Group.step (g : Group) (m : Rnd) : Group := { g with sys := { g.sys with lfsr := stepped m g.sys.lfsr } }

/-- The draw for element number `i` of an instruction that steps the generator. -/
def Group.draw (g : Group) (i : Nat) : Nat := Machine.draw (lfsrStep g.sys.lfsr) i

/-- Elements with flags: `f e` for `n` elements of width `w`. -/
def packF (w n : Nat) (f : Nat → Nat × Fx) : Word × Fx :=
  (BitVec.ofNat 64 (packN w (fun e => (f e).1) n), (List.range n).foldl (fun a e => a ||| (f e).2) fxNone)

/-- A lane instruction on elements of a float format that rounds in mode `rm g`: `f m r a b d` gives an element's code and
flags, `r` its draw. -/
def laneFlt (w : W32) (d : BitVec 5) (srcs : List (Reg × Bool)) (reads e : Bool) (q : BitVec 3) (rm : Group → Rnd)
    (f : Group → Rnd → Nat → Word × Fx) :=
  issue w (fun g => needV g srcs (vr d) reads e q.toNat) noGate
    (onGroup (fun g g' => (laneOut q.toNat d (fun g l => f g (rm g) l) g g').step (rm g)))

end Sys2Proof.Machine
end

