-- ==== Sys2Proof/Machine/Context.lean ====
section
/-!
DEFINITION. Contexts in memory (spec/05 R91 to R95): the header, the scalar and system block, write-back, activation,
register fills, the operand log's copy in the header (spec/12 R261), and the accesses made again after a context page
fault (spec/05 R106).
-/

namespace Sys2Proof.Machine

def gstateCode : GState → Nat
  | .active => 0
  | .pending => 1
  | .dormant => 2
  | .ctxFault => 3
  | .suspended => 4
  | .handler => 5

/-! ### Identity registers (spec/07 R151) -/

def Group.groupId (g : Group) : Nat :=
  g.id.num % 2 ^ 32 + roleCode g.id.role * 2 ^ 32 + (g.id.foot - 1) * 2 ^ 34 + (if g.id.arr then 2 ^ 36 else 0) +
    (if g.id.hndl then 2 ^ 37 else 0)

def State.teamId (s : State) (g : Group) : Nat :=
  match s.team g.id.team with
  | some t => t.index % 2 ^ 32 + t.slot % 8 * 2 ^ 32
  | none => 0

/-- The next outer declared level, or the grid. -/
def Launch.outer (l : Launch) (n : Nat) : Nat := ((List.range 8).find? (fun m => n < m && 3 ≤ m && l.present m)).getD 7

def State.levelId (s : State) (g : Group) (n : Nat) : Nat :=
  if n = 1 then g.id.num % 2 ^ 32
  else match s.grid g.id.grid, s.team g.id.team with
    | some gr, some t =>
      let l := gr.launch
      if n = 0 || n = 7 || !l.present n then 0
      else
        let i := l.unitOf t.index n % (l.teamsIn (l.outer n) / l.teamsIn n)
        let hw := if n = 2 then g.id.core
          else match (l.level n).domain with
            | 1 => clusterOf g.id.core
            | 2 => dieOf g.id.core
            | _ => 0
        i % 2 ^ 32 + hw % 2 ^ 16 * 2 ^ 32
    | _, _ => 0

/-! ### The header and the system block -/

/-- The operand log's named dwords with their offsets (spec/12 R261). -/
def OpLog.dwords (x : OpLog) : List (Nat × Nat) :=
  let b := fun (p : Bool) (n : Nat) => if p then 2 ^ n else 0
  [(0xB00, b x.valid 0 + b x.abandon 1 + b x.failed 2 + b x.sidx2dead 3 + x.cause % 8 * 2 ^ 4 + x.rpt % 64 * 2 ^ 8),
   (0xB08, x.bundlepc.toNat), (0xB10, x.insn.toNat + x.modhint.toNat * 2 ^ 32), (0xB18, x.faddr),
   (0xB20, x.base.toNat), (0xB28, x.sidx.toNat), (0xB30, x.sdata.toNat), (0xB38, x.sdata2.toNat)] ++
  (List.range 12).map (fun i => (0xB40 + 8 * i, x.done.toNat / 2 ^ (64 * i) % 2 ^ 64))

/-- The number that a list of offsets and dwords gives an offset; zero where it gives none. -/
def lookupDw (l : List (Nat × Nat)) (off : Nat) : Nat :=
  match l.find? (fun x => x.1 == off) with
  | some x => x.2
  | none => 0

/-- Dword `o` of the header (R92), for offsets 0x000 to 0x3F8 and 0x800 to 0xFF8; reserved bits are zero. -/
def Group.hdrDword (g : Group) (gs o : Nat) : Nat :=
  if o = 0x000 then gs + roleCode g.id.role * 2 ^ 3 + (g.id.foot - 1) * 2 ^ 5 + g.id.slot % 2 ^ 24 * 2 ^ 8
  else if o = 0x008 then (setBit g.regs.slive 0 true).toNat + g.regs.vlive.toNat * 2 ^ 32
  else if o = 0x010 then g.regs.sempty.toNat + g.regs.vempty.toNat * 2 ^ 32
  else if o = 0x018 then g.regs.pin.toNat
  else if o = 0x020 then g.cfcause
  else if o = 0x028 then g.cfaddr
  else if 0x800 ≤ o ∧ o < 0xAA0 then
    (g.pred ((o - 0x800) / 0x60 + 1)).toNat / 2 ^ (64 * ((o - 0x800) % 0x60 / 8)) % 2 ^ 64
  else if 0xB00 ≤ o then lookupDw g.log.dwords o
  else 0

/-- The offsets of the header's dwords but those of the trap record. -/
def hdrOffsets : List Nat := (List.range 128).map (8 * ·) ++ (List.range 256).map (fun i => 0x800 + 8 * i)

/-- The offsets of the trap record's dwords at its first place, 0x400 to 0x7F8. -/
def recOffsets : List Nat := (List.range 128).map (fun i => 0x400 + 8 * i)

/-- Dword `o` of the system block (R93), for offsets 0x1100 to 0x13F8. -/
def State.sysDword (s : State) (g : Group) (o : Nat) : Nat :=
  if o = 0x1100 then g.bundlePc.toNat
  else if o = 0x1108 then g.sys.mode.toNat
  else if o = 0x1110 then g.sys.fpx.toNat
  else if o = 0x1118 then g.groupId
  else if o = 0x1120 then s.teamId g
  else if o = 0x1128 then g.sys.rangeflag.toNat
  else if o = 0x1130 then g.sys.rangeaddr.toNat
  else if o = 0x1138 then g.sys.scrollpos.toNat
  else if o = 0x1140 then g.sys.remoteerr.toNat
  else if o = 0x1148 then g.sys.seed.toNat
  else if o = 0x1150 then g.sys.lfsr.toNat
  else if o = 0x1158 then g.sys.compand.toNat
  else if o = 0x1160 then g.sys.wdlimit.toNat
  else if o = 0x1168 then g.sys.wdcount.toNat
  else if o = 0x1170 then g.sys.fillercyc.toNat
  else if o = 0x1178 then g.sys.traprec.toNat
  else if 0x1180 ≤ o ∧ o < 0x11C0 then s.levelId g ((o - 0x1180) / 8)
  else 0

def sysOffsets : List Nat := (List.range 96).map (fun i => 0x1100 + 8 * i)

/-! ### Writing registers with reserved fields (spec/00 R7, spec/07 R151) -/

/-- MODE after a write of `v`: RND 5 to 7 is not written. -/
def modeAfter (old v : Word) : Word :=
  BitVec.ofNat 64 ((if bits v 2 0 ≤ 4 then bits v 2 0 else bits old 2 0) + bits v 11 4 * 2 ^ 4)

/-- REMOTEERR after a write of `v` (spec/12 R263): CAUSE 5 to 7 is not written. -/
def remoteAfter (old v : Word) : Word :=
  BitVec.ofNat 64 (bits v 56 0 + (if bits v 59 57 ≤ 4 then bits v 59 57 else bits old 59 57) * 2 ^ 57 +
    bits v 61 60 * 2 ^ 60 + bits v 63 63 * 2 ^ 63)

/-- A write of a field of the system block into the group. -/
def Group.setSys (g : Group) (o v : Nat) : Group :=
  let w : Word := BitVec.ofNat 64 v
  let y := g.sys
  if o = 0x1100 then { g with pc := BitVec.ofNat 64 (v / 4 * 4) }
  else if o = 0x1108 then { g with sys := { y with mode := modeAfter y.mode w } }
  else if o = 0x1110 then { g with sys := { y with fpx := w &&& 0x1F } }
  else if o = 0x1128 then { g with sys := { y with rangeflag := w &&& 0x1F } }
  else if o = 0x1130 then { g with sys := { y with rangeaddr := w &&& 0xFFFFFFFF007FFFFF } }
  else if o = 0x1138 then { g with sys := { y with scrollpos := w &&& 0x801F1F7F } }
  else if o = 0x1140 then { g with sys := { y with remoteerr := remoteAfter y.remoteerr w } }
  else if o = 0x1148 then { g with sys := { y with seed := w &&& 0xFFFFFFFF } }
  else if o = 0x1150 then { g with sys := { y with lfsr := BitVec.ofNat 32 v } }
  else if o = 0x1158 then { g with sys := { y with compand := w &&& 0x01FFFFFFFFFFFF00 } }
  else if o = 0x1160 then { g with sys := { y with wdlimit := w } }
  else if o = 0x1168 then { g with sys := { y with wdcount := w } }
  else if o = 0x1170 then { g with sys := { y with fillercyc := w } }
  else if o = 0x1178 then { g with sys := { y with traprec := w &&& 0x01FFFFFFFFFFFC00 } }
  else g

/-! ### Write-back (R112, R114, R119) -/

def allRegs : List Reg := (List.range 32).map Reg.s ++ (List.range 32).map Reg.v

/-- A register that is not cached is given its value in the context area. -/
def restoreReg (s : State) (k : Nat) (r : Reg) : State :=
  match s.group k with
  | none => s
  | some g =>
    if !g.live r || (s.core g.id.core).cached k g.id.foot r then s
    else match spillReg s k g r with
      | .ok s => s
      | .error e => ctxFault s k (cfCause e.2 2) e.1 (.restore r)

def logRow (g : Group) (j : Nat) (l : List Word) : List (Nat × Nat) :=
  (List.range l.length).map (fun i => (logRowOff g.id.foot j i, (l.getD i 0).toNat))

/-- Writes the header with a GSTATE code, the predicates, the log and its rows among it (spec/12 R260), and the system block. -/
def spillBlocks (s : State) (g : Group) (gs : Nat) : Except (Nat × Bool) State :=
  (ctxStoreAt s g g.id.base (hdrOffsets.map (fun o => (o, g.hdrDword gs o)))).bind (fun s =>
  (ctxStoreAt s g g.id.base (logRow g 0 g.log.row0 ++ logRow g 1 g.log.row1)).bind (fun s =>
  ctxStoreAt s g g.id.base (sysOffsets.map (fun o => (o, s.sysDword g o)))))

/-- Writes these and the trap record at TRAPREC, in which RPTDONE is recorded (R119). -/
def spillHeader (s : State) (g : Group) (gs : Nat) : Except (Nat × Bool) State :=
  (spillBlocks s g gs).bind (fun s => ctxStoreAt s g g.recBase g.recDwords)

/-- Write-back of the registers `rs` of group `k`, none of which is dirty any more, its header and the rest of its context (R114, R119, spec/21 R396): the state,
and whether it completed without a context page fault.  Memory holds the exact context where GSTATE says so (R95).  DESIGN CHOICE (log
entry 94): a write of the header, of a producer's value or of the log that does not translate takes CFCAUSE 2, as a spill does. -/
def writeBackOf (s : State) (k gs : Nat) (rs : List Reg) : State × Bool :=
  match s.group k with
  | none => (s, true)
  | some g =>
    match spillRegs s k g rs with
    | .error e => (ctxFault s k (cfCause e.2.2 2) e.2.1 (.spill e.1 (sectorAt g e.2.1)), false)
    | .ok s =>
      match spillHeader s g gs with
      | .error e => (ctxFault s k (cfCause e.2 2) e.1 .header, false)
      | .ok s => ((s.modCore g.id.core (fun c => rs.foldl (fun c r => c.clean k r) c)).modGroup k (fun g => { g with inMem := g.inMem || 2 ≤ gs, cfstored := (g.cfcause, g.cfaddr) }), true)

def writeBack (s : State) (k gs : Nat) : State × Bool := writeBackOf s k gs allRegs

/-- The header of a group that starts, with the value that each field has at reset (R92, R93, spec/12 R261, spec/21 R383), and its
first scalars; a failure is a header write-back's, and all of it is written again (R106). -/
def writeStart (s : State) (k : Nat) : State :=
  match s.group k with
  | none => s
  | some g =>
    let gs := if g.cameFrom = .dormant then 2 else 0
    let put := (ctxStoreAt s g g.id.base (recOffsets.map (fun o => (o, 0)))).bind (fun s =>
      (ctxStoreAt s g g.id.base (((List.range 32).filter (fun n => g.live (.s n))).map (fun n =>
        (scalarOff n, (g.sreg n).toNat)))).bind (fun s => spillHeader s g gs))
    match put with
    | .error e => ctxFault s k (cfCause e.2 2) e.1 .start
    | .ok s => s.modGroup k (fun g => { g with inMem := gs == 2 })

/-- The context that a retired group leaves: every register dead, none pinned (R95, spec/21 R398). -/
def Group.spent (g : Group) : Group := { g with regs := { g.regs with slive := 0, vlive := 0, sempty := 0, vempty := 0, pin := 0 } }

/-! ### Activation and resumption from memory (R115, R120) -/

/-- Reads dwords at offsets from the slot's base. -/
def readDwords (s : State) (g : Group) : List Nat → Except (Nat × Bool) (Tab Nat)
  | [] => .ok []
  | o :: t =>
    match ctxLoad s g (g.id.base + o) with
    | .error e => .error e
    | .ok v => (readDwords s g t).map (fun l => (o, v) :: l)

/-- The bits of a dword that software may change or that hold a field it must not, by its offset in the header or the system
block: the others are reserved (R92, R93, spec/12 R261, spec/21 R383). -/
def namedBits (o : Nat) : Nat :=
  if o = 0x000 then 0xFFFFFF7F
  else if o = 0x008 ∨ o = 0x010 then 2 ^ 64 - 1
  else if o = 0x018 then 0xFFFFFFFF
  else if o = 0x020 then 0xF
  else if o = 0x028 then 2 ^ 57 - 1
  else if o = 0x400 then 0x3F013FFF
  else if o = 0x418 then 0xFFFFFFFF
  else if o = 0x600 then 1
  else if 0x408 ≤ o ∧ o ≤ 0x428 ∨ 0x440 ≤ o ∧ o < 0x4A0 ∨ o = 0x608 then 2 ^ 64 - 1
  else if 0x800 ≤ o ∧ o < 0xAA0 then 2 ^ 64 - 1
  else if o = 0xB00 then 0x3F7F
  else if o = 0xB18 then 2 ^ 57 - 1
  else if 0xB08 ≤ o ∧ o < 0xBA0 then 2 ^ 64 - 1
  else if o = 0x1150 then 0xFFFFFFFF
  else if 0x1100 ≤ o ∧ o < 0x11C0 then 2 ^ 64 - 1
  else 0

/-- The bits of a dword that hold RO fields, GSTATE apart. -/
def fixedBits (o : Nat) : Nat :=
  if o = 0x000 then 0xFFFFFF78
  else if o = 0x010 ∨ o = 0x018 ∨ o = 0x020 ∨ o = 0x028 then namedBits o
  else if o = 0xB00 then 0x3F7D
  else if 0xB08 ≤ o ∧ o < 0xBA0 then namedBits o
  else if o = 0x1118 ∨ o = 0x1120 ∨ (0x1180 ≤ o ∧ o < 0x11C0) then namedBits o
  else 0

/-- The same for the trap record, where the slot holds it: all but RPTDONE and RETPC. -/
def fixedRecBits (o : Nat) : Nat := if o = 0x400 then 0x3F0100FF else if o = 0x408 then 0 else namedBits o

/-- What the device holds of a dword of the header or the system block; CFCAUSE and CFADDR as they were last written. -/
def State.ownDword (s : State) (g : Group) (o : Nat) : Nat :=
  if o = 0x020 then g.cfstored.1
  else if o = 0x028 then g.cfstored.2
  else if o < 0x1000 then g.hdrDword 0 o
  else s.sysDword g o

/-- Whether a header and system block read from memory are accepted (R120, spec/00 R7): no reserved bit is set, no RO field but
GSTATE has changed, SLIVE bit 0 is set, PC is aligned.  DEDUCED (log entry 75): SEMPTY and VEMPTY are accepted as the device
itself has them, since R105 keeps them set for a group whose producer is in flight. -/
def State.headerOk (s : State) (g : Group) (d : Tab Nat) : Bool :=
  let at_ := fun o => Tab.getD d o 0
  d.all (fun x => Nat.land x.2 (2 ^ 64 - 1 - namedBits x.1) == 0 &&
    Nat.land x.2 (fixedBits x.1) == Nat.land (if fixedBits x.1 = 0 then 0 else s.ownDword g x.1) (fixedBits x.1)) &&
  (g.recBase != g.id.base + 0x400 || recOffsets.all (fun o =>
    Nat.land (at_ o) (fixedRecBits o) == Nat.land (lookupDw g.recDwords (o - 0x400)) (fixedRecBits o))) &&
  (at_ 0x008).testBit 0 && at_ 0x1100 % 4 == 0

/-- Predicate `p` of a header. -/
def headerPred (d : Tab Nat) (p : Nat) : Mask :=
  BitVec.ofNat 768 (((List.range 12).map (fun i => Tab.getD d (0x800 + 0x60 * (p - 1) + 8 * i) 0 * 2 ^ (64 * i))).foldl (· + ·) 0)

/-- The group with every value of its context taken from memory: `head` is the first dword of its trap record. -/
def Group.fromMemory (g : Group) (d : Tab Nat) (scalars : List Nat) (head : Nat) : Group :=
  let at_ := fun o => Tab.getD d o 0
  let sl : BitVec 32 := BitVec.ofNat 32 (at_ 0x008)
  let vl : BitVec 32 := BitVec.ofNat 32 (at_ 0x008 / 2 ^ 32)
  let g := { g with regs := { g.regs with
    slive := sl
    vlive := vl
    s := tabulate 32 (fun n => if n ≠ 0 && sl.getLsbD n then BitVec.ofNat 64 (scalars.getD n 0) else 0)
    v := tabulate 32 (fun n => if vl.getLsbD n then g.regs.v.getD n [] else [])
    p := tabulate 7 (fun i => headerPred d (i + 1) &&& g.full) } }
  let g := sysOffsets.foldl (fun g o => g.setSys o (at_ o)) g
  { g with bundle := none, rptdone := head / 2 ^ 8 % 64, log := { g.log with abandon := (at_ 0xB00).testBit 1 } }

/-- The lanes of sector `x` of register `n` as memory holds them, where its row is cached and clean: memory is exact, and a
plain store to it is not lost (R95). -/
def freshSector (s : State) (k : Nat) (g : Group) (n x : Nat) : List Word :=
  let own := tabulate 192 (fun i => g.vreg n (192 * x + i))
  let c := s.core g.id.core
  if c.hasRow k n x && !c.dirtyIn k n x then
    match ctxLoadAll s g (g.id.base + laneOff n (192 * x)) 192 with
    | .ok l => l.map (BitVec.ofNat 64)
    | .error _ => own
  else own

/-- The live lane registers that are still cached take what memory holds. -/
def freshRows (s : State) (k : Nat) (g : Group) : Group :=
  ((List.range 32).filter (fun n => g.live (.v n) && (s.core g.id.core).rows.any (fun r => r.2.is k n))).foldl (fun g n =>
    g.putV n ((List.range g.id.foot).flatMap (freshSector s k g n))) g

/-- Reading the header and the scalar and system block of group `k`: none where the header is refused. -/
def readContext (s : State) (k : Nat) (g : Group) : Except (Nat × Bool) (Option State) :=
  match readDwords s g (hdrOffsets ++ recOffsets ++ sysOffsets) with
  | .error e => .error e
  | .ok d =>
    match ctxLoadAll s g (g.id.base + 0x1000) 32 with
    | .error e => .error e
    | .ok l =>
      match ctxLoad s g g.recBase with
      | .error e => .error e
      | .ok head =>
        if !s.headerOk g d then .ok none
        else
          let g' := freshRows s k (g.fromMemory d l head)
          let gone := allRegs.filter (fun r => match r with
            | .s _ => true
            | .v n => !g'.live r && !g.pinned n)
          .ok (some ((s.setGroup k g').modCore g.id.core (fun c => gone.foldl (fun c r => c.release k false r) c)))

/-- Activation reads the context (R115); a refusal is a context page fault with cause 3.  DESIGN CHOICE (log entry 94): the group is in
GSTATE 3, an event is posted, and no CFCAUSE is written into the header; a read of the header that fails takes cause 1. -/
def activateContext (s : State) (k : Nat) : State × Bool :=
  match s.group k with
  | none => (s, true)
  | some g =>
    match readContext s k g with
    | .error e => (ctxFault s k (cfCause e.2 1) e.1 .activate, false)
    | .ok none => (ctxFault s k 3 g.id.base .activate, false)
    | .ok (some s) => (s, true)

/-! ### The operand log in memory (spec/12 R261) -/

/-- The log and its log rows are written into the context area; a failure is a context page fault. -/
def writeLog (s : State) (k : Nat) : State :=
  match s.group k with
  | none => s
  | some g =>
    match ctxStoreAt s g g.id.base (g.log.dwords ++ logRow g 0 g.log.row0 ++ logRow g 1 g.log.row1) with
    | .ok s => s
    | .error e => ctxFault s k (cfCause e.2 2) e.1 .log

/-! ### Results for registers that are not cached (R105) -/

/-- The dword of a register, or of one lane of it. -/
def regOff : Reg → Nat → Nat
  | .s n, _ => scalarOff n
  | .v n, l => laneOff n l

/-- A producer's result is written into the context area; a failure holds it in the device. -/
def producerWrite (s : State) (k : Nat) (va : Nat) (v : Word) (clear : Option Reg) : State :=
  match s.group k with
  | none => s
  | some g =>
    match ctxStore s g va v.toNat with
    | .error e => ctxFault s k (cfCause e.2 2) e.1 (.write va v clear)
    | .ok s =>
      match clear with
      | none => s
      | some r => s.modGroup k (fun g => g.setEmpty r false)

/-- The flags of a result of group `k`: held with it where one of its writes, made since the group held `n` accesses, is held
(R105). -/
def resultFlags (s : State) (k n : Nat) (f : BitVec 5) : State :=
  s.modGroup k (fun g =>
    if n < g.held.length then { g with held := g.held ++ [.note (.flags f)] } else g.take (.flags f))

/-- The accesses that group `k` holds. -/
def State.heldOf (s : State) (k : Nat) : Nat :=
  match s.group k with
  | some g => g.held.length
  | none => 0

/-- The fields of the system block that a note concerns. -/
def Note.fields : Note → List Nat
  | .flags _ => [0x1110]
  | .count o _ | .put o _ => [o]
  | .range _ _ => [0x1128, 0x1130]
  | .remote _ _ => [0x1108, 0x1140]

/-- A poisoned completion that sets FLAG in the registers `y` has its trap where MODE.REMTRAP is 1 (spec/12 R264). -/
def Note.trap (n : Note) (y : SysRegs) : List Deferred :=
  match n with
  | .remote _ d => if !flag y.remoteerr 63 && flag y.mode 10 then [d] else []
  | _ => []

/-- The exact context of group `k` in memory takes a note: its fields have the values that memory holds, which software may have
stored (R95), and memory and the device take the outcome. A failure holds the note, but for a count of clocks. -/
def settleNote (s : State) (k : Nat) (n : Note) : State :=
  match s.group k with
  | none => s
  | some g =>
    let hold := fun (e : Nat × Bool) (cause : Nat) => match n with
      | .count 0x1168 _ => s
      | _ => ctxFault s k (cfCause e.2 cause) e.1 (.entered n)
    match n.fields.foldl (fun (r : Except (Nat × Bool) Group) o =>
        r.bind (fun g => (ctxLoad s g (g.id.base + o)).map (fun v => g.setSys o v))) (.ok g) with
    | .error e => hold e 1
    | .ok g1 =>
      let g2 := { g1 with sys := g1.sys.enter n, pend := g1.pend ++ n.trap g1.sys }
      match ctxStoreAt s g g.id.base (n.fields.map (fun o => (o, s.sysDword g2 o))) with
      | .error e => hold e 2
      | .ok s => s.modGroup k (fun g => { g with sys := g2.sys, pend := g2.pend })

/-- The fields that notes alone change while memory holds the exact context. -/
def notedFields : List Nat := [0x1110, 0x1128, 0x1130, 0x1138, 0x1140, 0x1168, 0x1170]

/-- The dwords of the context that the device keeps up to date in memory while memory holds it exactly, with their addresses:
all but GSTATE, CFCAUSE, CFADDR and what notes change. -/
def State.image (s : State) (g : Group) : List (Nat × Nat) :=
  ((hdrOffsets.filter (fun o => o != 0 && o != 0x020 && o != 0x028)).map (fun o => (g.id.base + o, g.hdrDword 0 o))) ++
    ((sysOffsets.filter (fun o => !notedFields.contains o)).map (fun o => (g.id.base + o, s.sysDword g o))) ++
    g.recDwords.map (fun x => (g.recBase + x.1, x.2))

/-- Changes of the context of a group whose exact context memory holds go to memory too. -/
def syncContext (old s : State) (k : Nat) : State :=
  match s.group k with
  | none => s
  | some g =>
    let s := match old.group k with
      | some g0 => if g0.inMem then
          (((old.image g0).zip (s.image g)).filter (fun (x : (Nat × Nat) × Nat × Nat) => x.1.2 != x.2.2)).foldl (fun s (x : (Nat × Nat) × Nat × Nat) =>
            producerWrite s k x.2.1 (BitVec.ofNat 64 x.2.2) none) s
        else s
      | none => s
    g.notes.foldl (fun s n => settleNote s k n) (s.modGroup k (fun g => { g with notes := [] }))

def syncContexts (old s : State) : State := (s.groups.filter (fun x => x.2.inMem)).foldl (fun s x => syncContext old s x.1) s

/-! ### The failed access is made again (R106, spec/21 R390) -/

/-- The group leaves GSTATE 3, unless an access it still holds fails again; its request that waits on a fill is decided again
(spec/06 R138). -/
def leaveFault (s : State) (k : Nat) : State :=
  match s.group k with
  | none => s
  | some g =>
    if !g.held.isEmpty then s
    else
      let clk := (s.core g.id.core).clk
      let s := s.setGroup k { g with gstate := g.before, sched := { g.sched with pend := clk, ready := clk } }
      if (s.core g.id.core).acqWaits.any (fun w => w.group == k) then redecide s g.id.core else s

/-- A resumed `grpres` (R120): the context is read, or the refusal is written. -/
def resumeGroup (s : State) (k : Nat) (h : Held) : State × Nat :=
  match s.group k with
  | none => (s, 1)
  | some g =>
    let refuse := fun (s : State) =>
      match ctxStoreAt s g g.id.base [(0x020, 3), (0x028, g.id.base)] with
      | .error e => (ctxFault s k (cfCause e.2 2) e.1 .refused, 3)
      | .ok s => (s.modGroup k (fun g => { g with
          gstate := .suspended, inMem := true, cfcause := 3, cfaddr := g.id.base, cfstored := (3, g.id.base) }), 2)
    match h with
    | .refused => refuse s
    | _ =>
      match readContext s k g with
      | .error e => (ctxFault s k (cfCause e.2 1) e.1 .resume, 3)
      | .ok none => refuse s
      | .ok (some s) => (s.modGroup k (fun g => { g with
          gstate := .dormant, sched := { g.sched with ready := (s.core g.id.core).clk } }), 0)

end Sys2Proof.Machine
end

