-- ==== Sys2Proof/Machine/Queues.lean ====
section
/-!
DEFINITION. Queue descriptors and queue errors (spec/03 R44 to R47), the ring entries that `enq` appends (R62), and a
device-side access that belongs to no core.
-/

namespace Sys2Proof.Machine

/-- The core number under which command processors translate: no core, so nothing is cached for it. -/
def noCore : Nat := 576

/-! ### Accesses by virtual address that the device makes at the homes -/

/-- Reads `n` bytes at a virtual address of an address space, split at a page boundary: none on a translation failure or
an uncorrectable error. -/
def State.vread (s : State) (asid va n : Nat) (w : Want) : Option Nat :=
  let m := firstPart va n
  match xlat s noCore asid va w false with
  | .error _ => none
  | .ok p =>
    match readHome s p.pa m with
    | none => none
    | some lo =>
      if m = n then some lo
      else match xlat s noCore asid (va + m) w false with
        | .error _ => none
        | .ok q => (readHome s q.pa (n - m)).map (fun hi => lo + hi * 2 ^ (8 * m))

/-- Writes bytes at a virtual address, all or none. -/
def State.vwrite (s : State) (asid va : Nat) (bs : List Byte) : Option State :=
  let m := firstPart va bs.length
  let ok := fun (pa n : Nat) => (storePoison s pa n).isNone
  match xlat s noCore asid va .write false with
  | .error _ => none
  | .ok p =>
    if !ok p.pa m then none
    else if m = bs.length then some (writeHome s p.pa bs)
    else match xlat s noCore asid (va + m) .write false with
      | .error _ => none
      | .ok q => if ok q.pa (bs.length - m) then some (writeHome (writeHome s p.pa (bs.take m)) q.pa (bs.drop m)) else none

/-! ### Queue descriptors (R44 to R46) -/

/-- The dwords of a queue descriptor. -/
structure Desc where
  ringbase : Nat
  ctl : Nat
  cplbase : Nat
  head : Nat
  tail : Nat
  cplnext : Nat
  cplhead : Nat
  rest : Nat
  deriving DecidableEq, Repr

def Desc.ringlog (d : Desc) : Nat := nbits d.ctl 4 0
def Desc.prio (d : Desc) : Nat := nbits d.ctl 9 8
def Desc.enable (d : Desc) : Bool := d.ctl.testBit 16
def Desc.devenq (d : Desc) : Bool := d.ctl.testBit 17
def Desc.supv (d : Desc) : Bool := d.ctl.testBit 18
def Desc.asid (d : Desc) : Nat := nbits d.ctl 47 32

/-- The address of queue `q`'s descriptor.  DESIGN CHOICE (log entry 83): QTABLE as it stands, for completions and polls of entries
taken before it changed too. -/
def descAddr (s : State) (q : Nat) : Nat := nbits s.front.qtable.toNat 51 16 * 65536 + 64 * q

/-- The descriptor of queue `q`, or none where its read fails. -/
def readDesc (s : State) (q : Nat) : Option Desc :=
  let a := descAddr s q
  if !inHeap a 64 then none
  else match readHome s a 8, readHome s (a + 8) 8, readHome s (a + 16) 8, readHome s (a + 24) 8, readHome s (a + 32) 8,
      readHome s (a + 40) 8, readHome s (a + 48) 8, readHome s (a + 56) 8 with
    | some d0, some d1, some d2, some d3, some d4, some d5, some d6, some d7 => some ⟨d0, d1, d2, d3, d4, d5, d6, d7⟩
    | _, _, _, _, _, _, _, _ => none

/-- Whether a descriptor keeps R7 and the ranges of R46. -/
def Desc.ok (d : Desc) : Bool :=
  nbits d.ringbase 5 0 == 0 && nbits d.ringbase 63 57 == 0 && 4 ≤ d.ringlog && d.ringlog ≤ 16 &&
    nbits d.ctl 7 5 == 0 && nbits d.ctl 15 10 == 0 && nbits d.ctl 31 19 == 0 && nbits d.ctl 63 48 == 0 &&
    nbits d.cplbase 3 0 == 0 && nbits d.cplbase 63 57 == 0 && nbits d.head 63 32 == 0 && nbits d.tail 63 32 == 0 &&
    nbits d.cplnext 63 32 == 0 && nbits d.cplhead 63 32 == 0 && d.rest == 0

def Desc.size (d : Desc) : Nat := 2 ^ d.ringlog

/-- The distance from index `a` to index `b`, modulo 2^32. -/
def ahead (a b : Nat) : Nat := (b % 2 ^ 32 + 2 ^ 32 - a % 2 ^ 32) % 2 ^ 32

/-- Writes one dword of a queue's descriptor. -/
def writeDesc (s : State) (q off v : Nat) : State := writeHome s (descAddr s q + off) (leBytes 8 v)

def setQerr (s : State) (q : Nat) : State := { s with front := { s.front with qerr := setBit s.front.qerr q true } }

def State.queue (s : State) (q : Nat) : Queue := Tab.getD s.front.queues q {}
def State.setQueue (s : State) (q : Nat) (x : Queue) : State :=
  { s with front := { s.front with queues := Tab.set s.front.queues q x } }

/-! ### Enqueue from the device (R62) -/

/-- Appends a launch entry: the status and the state. -/
def enqueue (s : State) (q : Nat) (rec : Nat) (supv : Bool) : State × Nat :=
  if 4095 < q then (s, 2)
  else match readDesc s q with
    | none => (setQerr s q, 3)
    | some d =>
      if d.size ≤ ahead d.head d.tail then (s, 1)
      else if !d.enable || !d.devenq || (d.supv && !supv) then (s, 2)
      else if !d.ok then (setQerr s q, 3)
      else
        let entry := leBytes 8 1 ++ leBytes 8 rec ++ leBytes 8 0 ++ leBytes 8 rec ++ leBytes 32 0
        match s.vwrite d.asid (d.ringbase + 64 * (d.tail % d.size)) entry with
        | none => (setQerr s q, 3)
        | some s =>
          let tail := (d.tail + 1) % 2 ^ 32
          let s := writeDesc s q 0x20 tail
          (s.setQueue q { s.queue q with tail := BitVec.ofNat 32 tail }, 0)

end Sys2Proof.Machine
end

