-- ==== Sys2Proof/Machine/Control.lean ====
section
/-!
DEFINITION. Moves, hive registers, branches, calls and group control: majors 0x06, 0x08 and 0x09 but for the system
registers (spec/07 R150 to R162), and the hints and the prefix of a bundle (spec/04 R82 to R88).
-/

namespace Sys2Proof.Machine

/-! ### Branches and calls (R158, R159) -/

/-- The target of a branch at `pc`: PC + 4 OFF17. -/
def branchTo (pc : Word) (o : BitVec 17) : Word := pc + BitVec.ofInt 64 (4 * sval 17 o.toNat)

/-- A branch on a condition of the group. -/
def branch (w : W32) (o : BitVec 17) (srcs : List (Reg × Bool)) (taken : Group → Bool) :=
  issue w (fun g => needS g srcs none false false) noGate
    (fun _ g s => { s := s, pc := if taken g then some (branchTo g.pc o) else none })

/-- The alive lanes in which a predicate is true. -/
def Group.holds (g : Group) (q : BitVec 3) : Mask := g.pred q.toNat &&& g.alive &&& g.full

/-- A call target whose bits 1:0 are not zero takes the instruction-fetch fault of R66. -/
def targetGate (a : BitVec 5) (_ : Nat) (g : Group) (_ : State) : Gate :=
  let t := g.sreg a.toNat
  if bits t 1 0 ≠ 0 then .trap { code := 4, info0 := t } else .pass

/-! ### Hive registers (R152, R153) -/

/-- The position of group `k` in its core's active set. -/
def Core.position (c : Core) (k : Nat) : Nat := c.active.findIdx (fun a => a == some k)

/-- Hive writes in flight, in the order in which they take effect: by clock, then by position, then by program order. -/
def putHive (w : HiveWrite) : List HiveWrite → List HiveWrite
  | [] => [w]
  | x :: t => if w.land < x.land || (w.land == x.land && w.pos < x.pos) then w :: x :: t else x :: putHive w t

/-- A hive write of the group, landing at the end of clock `now + after`. -/
def hiveWrite (k : Nat) (g : Group) (s : State) (after : Nat) (h : BitVec 4) (add : Option Nat) (v : Word) : State :=
  s.modCore g.id.core (fun c =>
    { c with hiveW := putHive ⟨c.clk + after, c.position k, g.id.team, k, h.toNat, add, v⟩ c.hiveW })

/-- The hive registers of the group's team. -/
def State.hive (s : State) (g : Group) (h : BitVec 4) : Word :=
  match s.team g.id.team with
  | some t => t.hive.getD h.toNat 0
  | none => 0

/-! ### Words of a bundle (spec/04 R82 to R88) -/

/-- What a wait has come to, which the group's word is still to take: a bundle that starts again keeps it. -/
def Block.outcome : Block → Bool
  | .granted | .overran | .unheld _ => true
  | _ => false

/-- A hint or prefix word joins the group's bundle; a second one of its kind is illegal. -/
def bundleWord (w : W32) (second : Bundle → Bool) (join : Bundle → Bundle) (s : State) :
    Host.Outcome State Fault Refusal :=
  match s.cur with
  | none => .fault .noIssuer
  | some k =>
    match s.group k with
    | none => .fault .noIssuer
    | some g =>
      let b := g.bundle.getD { start := g.pc }
      let c := g.id.core
      if !s.slotFree k g w then .next (skipSlot s c k)
      else if second b then .next (takeTrap s k w { code := 1 })
      else
        let s := s.modCore c (fun x => { x with slots := x.slots ||| slotsOf w g.id.foot, issued := x.issued ++ [k] })
        let s := s.setGroup k { g with
          bundle := some (join b)
          pc := g.pc + 4
          blocked := g.blocked.filter Block.outcome
          sys := { g.sys with wdcount := 0 }
          sched := { g.sched with age := (s.core c).clk, yielded := false } }
        .next (settleClock s c)

/-! ### The instructions -/

/-- R150: D := A. -/
def execMov (d a : BitVec 5) (l e : Bool) : State → Host.Outcome State Fault Refusal :=
  issue (encMov d a l e) (fun g => needS g [(sr a, l)] (some (sr d)) false e) noGate
    (onGroup (fun g g' => g'.setS d.toNat (g.sreg a.toNat)))

/-- R152, R153: the value at the start of the clock. -/
def execHrd (d : BitVec 5) (h : BitVec 4) : State → Host.Outcome State Fault Refusal :=
  issue (encHrd d h) (fun g => needS g [] (some (sr d)) false false) noGate
    (fun k g s => { s := s.modGroup k (fun g' => g'.setS d.toNat (s.hive g h)) })

/-- R152, R153: writes at the end of the next clock; it closes a region (R154). -/
def execHwr (a : BitVec 5) (l : Bool) (h : BitVec 4) : State → Host.Outcome State Fault Refusal :=
  issue (encHwr a l h) (fun g => { needS g [(sr a, l)] none false false with closes := true }) noGate
    (fun k g s => { s := hiveWrite k g s 1 h none (g.sreg a.toNat) })

/-- R152, R153: reads and adds at the end of the clock after the next; the old value is in D afterwards. -/
def execHadd (d a : BitVec 5) (l : Bool) (h : BitVec 4) : State → Host.Outcome State Fault Refusal :=
  issue (encHadd d a l h) (fun g => { needS g [(sr a, l)] (some (sr d)) false false with closes := true }) noGate
    (fun k g s => { s := (hiveWrite k g s 2 h (some d.toNat) (g.sreg a.toNat)).modGroup k (fun g' => g'.setS d.toNat 0) })

/-- R158: always taken. -/
def execBr (o : BitVec 17) : State → Host.Outcome State Fault Refusal :=
  branch (encBr o) o [] (fun _ => true)

/-- R158: taken where sn = 0. -/
def execBz (r : BitVec 5) (o : BitVec 17) : State → Host.Outcome State Fault Refusal :=
  branch (encBz r o) o [(sr r, false)] (fun g => g.sreg r.toNat == 0)

/-- R158: taken where sn ≠ 0. -/
def execBnz (r : BitVec 5) (o : BitVec 17) : State → Host.Outcome State Fault Refusal :=
  branch (encBnz r o) o [(sr r, false)] (fun g => g.sreg r.toNat != 0)

/-- R158: taken where sn < 0. -/
def execBlt (r : BitVec 5) (o : BitVec 17) : State → Host.Outcome State Fault Refusal :=
  branch (encBlt r o) o [(sr r, false)] (fun g => (g.sreg r.toNat).toInt < 0)

/-- R158: taken where sn ≥ 0. -/
def execBge (r : BitVec 5) (o : BitVec 17) : State → Host.Outcome State Fault Refusal :=
  branch (encBge r o) o [(sr r, false)] (fun g => 0 ≤ (g.sreg r.toNat).toInt)

/-- R158: some alive lane has the predicate. -/
def execBany (r : PReg) (o : BitVec 17) : State → Host.Outcome State Fault Refusal :=
  branch (encBany r o) o [] (fun g => g.holds r != 0)

/-- R158: every alive lane has the predicate. -/
def execBall (r : PReg) (o : BitVec 17) : State → Host.Outcome State Fault Refusal :=
  branch (encBall r o) o [] (fun g => g.holds r == g.alive &&& g.full)

/-- R158: no alive lane has the predicate. -/
def execBnone (r : PReg) (o : BitVec 17) : State → Host.Outcome State Fault Refusal :=
  branch (encBnone r o) o [] (fun g => g.holds r == 0)

/-- R159: D := PC + 4, and PC + 4 OFF17. -/
def execCall (d : BitVec 5) (o : BitVec 17) : State → Host.Outcome State Fault Refusal :=
  issue (encCall d o) (fun g => needS g [] (some (sr d)) false false) noGate
    (fun k g s => { s := s.modGroup k (fun g' => g'.setS d.toNat (g.pc + 4)), pc := some (branchTo g.pc o) })

/-- R159: D := PC + 4, and the address in A. -/
def execCallr (d a : BitVec 5) (l e : Bool) : State → Host.Outcome State Fault Refusal :=
  issue (encCallr d a l e) (fun g => needS g [(sr a, l)] (some (sr d)) false e) (targetGate a)
    (fun k g s => { s := s.modGroup k (fun g' => g'.setS d.toNat (g.pc + 4)), pc := some (g.sreg a.toNat) })

/-- R159: the address in A. -/
def execRet (a : BitVec 5) (l e : Bool) : State → Host.Outcome State Fault Refusal :=
  issue (encRet a l e) (fun g => needS g [(sr a, l)] none false e) (targetGate a)
    (fun _ g s => { s := s, pc := some (g.sreg a.toNat) })

/-- Every lane of a group has exited: values that arrive for it from now on are discarded (spec/21 R398). -/
def discardAll (s : State) (k core : Nat) (g : Group) : State := if g.alive &&& g.full = 0 then dropPending s k core allRegs else s

/-- R160: the lanes of the effective mask are no longer alive; it closes a region (spec/21 R392). -/
def execExit (q : BitVec 3) : State → Host.Outcome State Fault Refusal :=
  issue (encExit q) (fun g => { lane := some (g.eff q.toNat), closes := true }) noGate
    (fun k g s =>
      let left := g.alive &&& ~~~(g.eff q.toNat)
      { s := discardAll (s.modGroup k (fun g' => { g' with alive := left })) k g.id.core { g with alive := left } })

/-- R127: the group leaves the active set when a ready pending group exists. -/
def execYield : State → Host.Outcome State Fault Refusal :=
  issue encYield (fun _ => {}) noGate (fun _ _ s => { s := s })

/-- R161, spec/03 R62: a release at device scope, then the append; D receives the status. -/
def execEnq (d a b : BitVec 5) (l m e : Bool) : State → Host.Outcome State Fault Refusal :=
  issue (encEnq d a b l m e) (fun g => { needS g [(sr a, l), (sr b, m)] (some (sr d)) false e with closes := true })
    (fun k g s => relGate k g s .device)
    (fun k g s =>
      let r := enqueue (releaseStores s k .device) (g.sreg a.toNat).toNat (g.sreg b.toNat).toNat g.id.supv
      { s := r.1.modGroup k (fun g' => g'.setS d.toNat (BitVec.ofNat 64 r.2)) })

/-- R162: a software trap, taken after the instruction. -/
def execTrap (i : BitVec 11) : State → Host.Outcome State Fault Refusal :=
  issue (encTrap i) (fun _ => {}) noGate (fun _ _ s => { s := s, after := some { code := 14, info0 := BitVec.ofNat 64 i.toNat } })

/-- R83: the prefix of a bundle; COUNT 0 means 64. -/
def execRpt (n : BitVec 6) (d a b : Bool) (s : BitVec 2) : State → Host.Outcome State Fault Refusal :=
  bundleWord (encRpt n d a b s) (fun x => x.rpt.isSome) (fun x =>
    { x with rpt := some { n := if n = 0 then 64 else n.toNat, d := d, a := a, b := b, stride := 2 ^ s.toNat } })

/-- R86: 24 more bits of an immediate. -/
def execWide (p : BitVec 24) : State → Host.Outcome State Fault Refusal :=
  bundleWord (encWide p) (fun x => x.wide.isSome) (fun x => { x with wide := some p })

/-- R87: scope, order, cache and ET of a bundle. -/
def execMod (s : ModScope) (o : ModOrder) (c : ModCache) (t : Bool) : State → Host.Outcome State Fault Refusal :=
  bundleWord (encMod s o c t) (fun x => x.mod.isSome) (fun x =>
    { x with mod := some { scope := s, order := o, cache := c, et := t, word := (encMod s o c t) } })

/-- R88: a scheduling hint. -/
def execSched (y : Bool) (p : BitVec 2) (s : BitVec 16) : State → Host.Outcome State Fault Refusal :=
  bundleWord (encSched y p s) (fun x => x.sched.isSome) (fun x => { x with sched := some (y, p, s) })

end Sys2Proof.Machine
end

