-- ==== Sys2Proof/Machine/Scalar.lean ====
section
/-!
DEFINITION. Scalar integer instructions: majors 0x01 to 0x05 (spec/07 R144 to R149).
-/

namespace Sys2Proof.Machine

/-! ### Results at width `w` (R145 to R147); operands are below `2^w` -/

def shiftRightI (w a b : Nat) : Nat := wrap w (sval w a / 2 ^ (b % w))
def rotLeft (w a b : Nat) : Nat := (a * 2 ^ (b % w) + a / 2 ^ (w - b % w)) % 2 ^ w
def rotRight (w a b : Nat) : Nat := rotLeft w a (w - b % w)
def mulHighI (w a b : Nat) : Nat := wrap w (sval w a * sval w b / 2 ^ w)
def minI (w a b : Nat) : Nat := if sval w a ≤ sval w b then a else b
def maxI (w a b : Nat) : Nat := if sval w a ≤ sval w b then b else a

/-- Clamped to the signed range of width `w`. -/
def clampI (w : Nat) (i : Int) : Nat :=
  wrap w (if i < -(2 ^ (w - 1)) then -(2 ^ (w - 1)) else if 2 ^ (w - 1) - 1 < i then 2 ^ (w - 1) - 1 else i)

/-- R146. -/
def quotI (w a b : Nat) : Nat :=
  if b = 0 then 2 ^ w - 1
  else if sval w a = -(2 ^ (w - 1)) ∧ sval w b = -1 then a
  else wrap w (Int.tdiv (sval w a) (sval w b))
def remI (w a b : Nat) : Nat :=
  if b = 0 then a
  else if sval w a = -(2 ^ (w - 1)) ∧ sval w b = -1 then 0
  else wrap w (Int.tmod (sval w a) (sval w b))
def quotN (w a b : Nat) : Nat := if b = 0 then 2 ^ w - 1 else a / b
def remN (_w a b : Nat) : Nat := if b = 0 then a else a % b

def leadZeros (w a : Nat) : Nat := if a = 0 then w else w - 1 - Nat.log2 a
def trailZeros (w a : Nat) : Nat := ((List.range w).find? (fun i => a.testBit i)).getD w
def ones (w a : Nat) : Nat := ((List.range w).filter (fun i => a.testBit i)).length
def revBits (w a : Nat) : Nat := bitsOf (fun i => a.testBit (w - 1 - i)) w
def revBytes (w a : Nat) : Nat := packN 8 (fun i => a / 2 ^ (w - 8 - 8 * i) % 256) (w / 8)
def absI (w a : Nat) : Nat := wrap w (sval w a).natAbs

def ofBool (b : Bool) : Nat := if b then 1 else 0

/-! ### Format IS (R148) -/

/-- The immediate of format IS: 36 bits where a wide hint precedes, with bit 11 from LA (spec/04 R86). -/
def Group.immIS (g : Group) (i : BitVec 11) (l : Bool) : Word :=
  match (match g.bundle with | some b => b.wide | none => none) with
  | some p => sext64 36 (p.toNat * 2 ^ 12 + (if l then 2 ^ 11 else 0) + i.toNat)
  | none => sext64 11 i.toNat

/-- With a wide hint LA is part of the immediate and no mark (spec/04 R86). -/
def Group.markIS (g : Group) (l : Bool) : Bool :=
  l && (match g.bundle with | some b => b.wide.isNone | none => true)

/-- An instruction of format IS: `f a i` is its 64-bit result. -/
def scalarImm (w : W32) (d a : BitVec 5) (l : Bool) (i : BitVec 11) (f : Nat → Word → Nat) :=
  issue w (fun g => needS g [(sr a, g.markIS l)] (some (sr d)) false false) noGate
    (onGroup (fun g g' => g'.setS d.toNat (BitVec.ofNat 64 (f (g.sreg a.toNat).toNat (g.immIS i l)))))

/-- A bit-field extract. -/
def bitField (w : W32) (d a : BitVec 5) (l : Bool) (f : Nat → Word) :=
  issue w (fun g => needS g [(sr a, l)] (some (sr d)) false false) noGate
    (onGroup (fun g g' => g'.setS d.toNat (f (g.sreg a.toNat).toNat)))

/-! ### The instructions -/

/-- R145: a + b. -/
def execAdd (d a b : BitVec 5) (l m e x : Bool) : State → Host.Outcome State Fault Refusal :=
  scalarBin (encAdd d a b l m e x) d a b l m e x (fun _ a b => a + b)

/-- R145: a - b. -/
def execSub (d a b : BitVec 5) (l m e x : Bool) : State → Host.Outcome State Fault Refusal :=
  scalarBin (encSub d a b l m e x) d a b l m e x (fun w a b => wrap w (a - b : Int))

/-- R145. -/
def execAnd (d a b : BitVec 5) (l m e x : Bool) : State → Host.Outcome State Fault Refusal :=
  scalarBin (encAnd d a b l m e x) d a b l m e x (fun _ a b => Nat.land a b)

/-- R145. -/
def execOr (d a b : BitVec 5) (l m e x : Bool) : State → Host.Outcome State Fault Refusal :=
  scalarBin (encOr d a b l m e x) d a b l m e x (fun _ a b => Nat.lor a b)

/-- R145. -/
def execXor (d a b : BitVec 5) (l m e x : Bool) : State → Host.Outcome State Fault Refusal :=
  scalarBin (encXor d a b l m e x) d a b l m e x (fun _ a b => Nat.xor a b)

/-- R145: a and not b. -/
def execAndn (d a b : BitVec 5) (l m e x : Bool) : State → Host.Outcome State Fault Refusal :=
  scalarBin (encAndn d a b l m e x) d a b l m e x (fun w a b => Nat.land a (2 ^ w - 1 - b))

/-- R145. -/
def execShl (d a b : BitVec 5) (l m e x : Bool) : State → Host.Outcome State Fault Refusal :=
  scalarBin (encShl d a b l m e x) d a b l m e x (fun w a b => a * 2 ^ (b % w))

/-- R145: fills with the sign bit. -/
def execShrI (d a b : BitVec 5) (l m e x : Bool) : State → Host.Outcome State Fault Refusal :=
  scalarBin (encShrI d a b l m e x) d a b l m e x shiftRightI

/-- R145: fills with zeros. -/
def execShrN (d a b : BitVec 5) (l m e x : Bool) : State → Host.Outcome State Fault Refusal :=
  scalarBin (encShrN d a b l m e x) d a b l m e x (fun w a b => a / 2 ^ (b % w))

/-- R145. -/
def execRotl (d a b : BitVec 5) (l m e x : Bool) : State → Host.Outcome State Fault Refusal :=
  scalarBin (encRotl d a b l m e x) d a b l m e x rotLeft

/-- R145. -/
def execRotr (d a b : BitVec 5) (l m e x : Bool) : State → Host.Outcome State Fault Refusal :=
  scalarBin (encRotr d a b l m e x) d a b l m e x rotRight

/-- R145: low bits of the product. -/
def execMul (d a b : BitVec 5) (l m e x : Bool) : State → Host.Outcome State Fault Refusal :=
  scalarBin (encMul d a b l m e x) d a b l m e x (fun _ a b => a * b)

/-- R145: high bits of the signed product. -/
def execMulhI (d a b : BitVec 5) (l m e x : Bool) : State → Host.Outcome State Fault Refusal :=
  scalarBin (encMulhI d a b l m e x) d a b l m e x mulHighI

/-- R145: high bits of the unsigned product. -/
def execMulhN (d a b : BitVec 5) (l m e x : Bool) : State → Host.Outcome State Fault Refusal :=
  scalarBin (encMulhN d a b l m e x) d a b l m e x (fun w a b => a * b / 2 ^ w)

/-- R145. -/
def execMinI (d a b : BitVec 5) (l m e x : Bool) : State → Host.Outcome State Fault Refusal :=
  scalarBin (encMinI d a b l m e x) d a b l m e x minI

/-- R145. -/
def execMinN (d a b : BitVec 5) (l m e x : Bool) : State → Host.Outcome State Fault Refusal :=
  scalarBin (encMinN d a b l m e x) d a b l m e x (fun _ a b => min a b)

/-- R145. -/
def execMaxI (d a b : BitVec 5) (l m e x : Bool) : State → Host.Outcome State Fault Refusal :=
  scalarBin (encMaxI d a b l m e x) d a b l m e x maxI

/-- R145. -/
def execMaxN (d a b : BitVec 5) (l m e x : Bool) : State → Host.Outcome State Fault Refusal :=
  scalarBin (encMaxN d a b l m e x) d a b l m e x (fun _ a b => max a b)

/-- R146. -/
def execDivI (d a b : BitVec 5) (l m e x : Bool) : State → Host.Outcome State Fault Refusal :=
  scalarBin (encDivI d a b l m e x) d a b l m e x quotI

/-- R146. -/
def execDivN (d a b : BitVec 5) (l m e x : Bool) : State → Host.Outcome State Fault Refusal :=
  scalarBin (encDivN d a b l m e x) d a b l m e x quotN

/-- R146. -/
def execRemI (d a b : BitVec 5) (l m e x : Bool) : State → Host.Outcome State Fault Refusal :=
  scalarBin (encRemI d a b l m e x) d a b l m e x remI

/-- R146. -/
def execRemN (d a b : BitVec 5) (l m e x : Bool) : State → Host.Outcome State Fault Refusal :=
  scalarBin (encRemN d a b l m e x) d a b l m e x remN

/-- R145. -/
def execClz (d a : BitVec 5) (l e x : Bool) : State → Host.Outcome State Fault Refusal :=
  scalarUn (encClz d a l e x) d a l e x leadZeros

/-- R145. -/
def execCtz (d a : BitVec 5) (l e x : Bool) : State → Host.Outcome State Fault Refusal :=
  scalarUn (encCtz d a l e x) d a l e x trailZeros

/-- R145. -/
def execPopc (d a : BitVec 5) (l e x : Bool) : State → Host.Outcome State Fault Refusal :=
  scalarUn (encPopc d a l e x) d a l e x ones

/-- R145. -/
def execBrev (d a : BitVec 5) (l e x : Bool) : State → Host.Outcome State Fault Refusal :=
  scalarUn (encBrev d a l e x) d a l e x revBits

/-- R145. -/
def execBswap (d a : BitVec 5) (l e x : Bool) : State → Host.Outcome State Fault Refusal :=
  scalarUn (encBswap d a l e x) d a l e x revBytes

/-- R145. -/
def execAbs (d a : BitVec 5) (l e x : Bool) : State → Host.Outcome State Fault Refusal :=
  scalarUn (encAbs d a l e x) d a l e x absI

/-- R145: saturating. -/
def execAddsI (d a b : BitVec 5) (l m e x : Bool) : State → Host.Outcome State Fault Refusal :=
  scalarBin (encAddsI d a b l m e x) d a b l m e x (fun w a b => clampI w (sval w a + sval w b))

/-- R145: saturating. -/
def execSubsI (d a b : BitVec 5) (l m e x : Bool) : State → Host.Outcome State Fault Refusal :=
  scalarBin (encSubsI d a b l m e x) d a b l m e x (fun w a b => clampI w (sval w a - sval w b))

/-- R147. -/
def execSeq (d a b : BitVec 5) (l m e x : Bool) : State → Host.Outcome State Fault Refusal :=
  scalarBin (encSeq d a b l m e x) d a b l m e x (fun _ a b => ofBool (a == b))

/-- R147. -/
def execSne (d a b : BitVec 5) (l m e x : Bool) : State → Host.Outcome State Fault Refusal :=
  scalarBin (encSne d a b l m e x) d a b l m e x (fun _ a b => ofBool (a != b))

/-- R147. -/
def execSltI (d a b : BitVec 5) (l m e x : Bool) : State → Host.Outcome State Fault Refusal :=
  scalarBin (encSltI d a b l m e x) d a b l m e x (fun w a b => ofBool (sval w a < sval w b))

/-- R147. -/
def execSltN (d a b : BitVec 5) (l m e x : Bool) : State → Host.Outcome State Fault Refusal :=
  scalarBin (encSltN d a b l m e x) d a b l m e x (fun _ a b => ofBool (a < b))

/-- R147. -/
def execSleI (d a b : BitVec 5) (l m e x : Bool) : State → Host.Outcome State Fault Refusal :=
  scalarBin (encSleI d a b l m e x) d a b l m e x (fun w a b => ofBool (sval w a ≤ sval w b))

/-- R147. -/
def execSleN (d a b : BitVec 5) (l m e x : Bool) : State → Host.Outcome State Fault Refusal :=
  scalarBin (encSleN d a b l m e x) d a b l m e x (fun _ a b => ofBool (a ≤ b))

/-- R147: D is read in every case. -/
def execCmovnz (d a b : BitVec 5) (l m e x : Bool) : State → Host.Outcome State Fault Refusal :=
  issue (encCmovnz d a b l m e x) (fun g => needS g [(sr a, l), (sr b, m)] (some (sr d)) true e) noGate
    (onGroup (fun g g' => if g.sw x b = 0 then g'.setS d.toNat (g.sreg d.toNat) else g'.putW x d.toNat (g.sw x a)))

/-- R147: D is read in every case. -/
def execCmovz (d a b : BitVec 5) (l m e x : Bool) : State → Host.Outcome State Fault Refusal :=
  issue (encCmovz d a b l m e x) (fun g => needS g [(sr a, l), (sr b, m)] (some (sr d)) true e) noGate
    (onGroup (fun g g' => if g.sw x b = 0 then g'.putW x d.toNat (g.sw x a) else g'.setS d.toNat (g.sreg d.toNat)))

/-- R148. -/
def execAddi (d a : BitVec 5) (l : Bool) (i : BitVec 11) : State → Host.Outcome State Fault Refusal :=
  scalarImm (encAddi d a l i) d a l i (fun a i => a + i.toNat)

/-- R148. -/
def execAndi (d a : BitVec 5) (l : Bool) (i : BitVec 11) : State → Host.Outcome State Fault Refusal :=
  scalarImm (encAndi d a l i) d a l i (fun a i => Nat.land a i.toNat)

/-- R148. -/
def execOri (d a : BitVec 5) (l : Bool) (i : BitVec 11) : State → Host.Outcome State Fault Refusal :=
  scalarImm (encOri d a l i) d a l i (fun a i => Nat.lor a i.toNat)

/-- R148. -/
def execXori (d a : BitVec 5) (l : Bool) (i : BitVec 11) : State → Host.Outcome State Fault Refusal :=
  scalarImm (encXori d a l i) d a l i (fun a i => Nat.xor a i.toNat)

/-- R148. -/
def execShli (d a : BitVec 5) (l : Bool) (i : BitVec 11) : State → Host.Outcome State Fault Refusal :=
  scalarImm (encShli d a l i) d a l i (fun a i => a * 2 ^ (i.toNat % 64))

/-- R148. -/
def execShriI (d a : BitVec 5) (l : Bool) (i : BitVec 11) : State → Host.Outcome State Fault Refusal :=
  scalarImm (encShriI d a l i) d a l i (fun a i => shiftRightI 64 a i.toNat)

/-- R148. -/
def execShriN (d a : BitVec 5) (l : Bool) (i : BitVec 11) : State → Host.Outcome State Fault Refusal :=
  scalarImm (encShriN d a l i) d a l i (fun a i => a / 2 ^ (i.toNat % 64))

/-- R148. -/
def execSltiI (d a : BitVec 5) (l : Bool) (i : BitVec 11) : State → Host.Outcome State Fault Refusal :=
  scalarImm (encSltiI d a l i) d a l i (fun a i => ofBool (sval 64 a < sval 64 i.toNat))

/-- R148: i taken as 64 bits, unsigned. -/
def execSltiN (d a : BitVec 5) (l : Bool) (i : BitVec 11) : State → Host.Outcome State Fault Refusal :=
  scalarImm (encSltiN d a l i) d a l i (fun a i => ofBool (a < i.toNat))

/-- R148. -/
def execSeqi (d a : BitVec 5) (l : Bool) (i : BitVec 11) : State → Host.Outcome State Fault Refusal :=
  scalarImm (encSeqi d a l i) d a l i (fun a i => ofBool (a == i.toNat))

/-- R148. -/
def execMuli (d a : BitVec 5) (l : Bool) (i : BitVec 11) : State → Host.Outcome State Fault Refusal :=
  scalarImm (encMuli d a l i) d a l i (fun a i => a * i.toNat)

/-- R148. -/
def execRotli (d a : BitVec 5) (l : Bool) (i : BitVec 11) : State → Host.Outcome State Fault Refusal :=
  scalarImm (encRotli d a l i) d a l i (fun a i => rotLeft 64 a i.toNat)

/-- R149: pos is p, len is n + 1. -/
def execBfxI (d a : BitVec 5) (l : Bool) (n : BitVec 5) (p : BitVec 6) : State → Host.Outcome State Fault Refusal :=
  bitField (encBfxI d a l n p) d a l (fun x => sext64 (n.toNat + 1) (x / 2 ^ p.toNat))

/-- R149. -/
def execBfxN (d a : BitVec 5) (l : Bool) (n : BitVec 5) (p : BitVec 6) : State → Host.Outcome State Fault Refusal :=
  bitField (encBfxN d a l n p) d a l (fun x => zext64 (n.toNat + 1) (x / 2 ^ p.toNat))

/-- R149: reads D. -/
def execBfi (d a : BitVec 5) (l : Bool) (n : BitVec 5) (p : BitVec 6) : State → Host.Outcome State Fault Refusal :=
  issue (encBfi d a l n p) (fun g => needS g [(sr a, l)] (some (sr d)) true false) noGate
    (onGroup (fun g g' =>
      let v := (g.sreg d.toNat).toNat
      let f := (g.sreg a.toNat).toNat % 2 ^ (n.toNat + 1)
      let k := p.toNat + n.toNat + 1
      g'.setS d.toNat (BitVec.ofNat 64 (v / 2 ^ k * 2 ^ k + f * 2 ^ p.toNat + v % 2 ^ p.toNat))))

/-- R149. -/
def execLea2 (d a b : BitVec 5) (l m e x : Bool) : State → Host.Outcome State Fault Refusal :=
  scalarBin (encLea2 d a b l m e x) d a b l m e x (fun _ a b => a + b * 2)

/-- R149. -/
def execLea4 (d a b : BitVec 5) (l m e x : Bool) : State → Host.Outcome State Fault Refusal :=
  scalarBin (encLea4 d a b l m e x) d a b l m e x (fun _ a b => a + b * 4)

/-- R149. -/
def execLea8 (d a b : BitVec 5) (l m e x : Bool) : State → Host.Outcome State Fault Refusal :=
  scalarBin (encLea8 d a b l m e x) d a b l m e x (fun _ a b => a + b * 8)

/-- R149. -/
def execLea16 (d a b : BitVec 5) (l m e x : Bool) : State → Host.Outcome State Fault Refusal :=
  scalarBin (encLea16 d a b l m e x) d a b l m e x (fun _ a b => a + b * 16)

end Sys2Proof.Machine
end

