-- ==== Sys2Proof/Machine/Lane.lean ====
section
/-!
DEFINITION. Lane integer instructions: majors 0x10 to 0x17 but for the f32 forms (spec/09 R187 to R192).
-/

namespace Sys2Proof.Machine

/-- An element-wise operation on elements of width `w`. -/
def elemwise (w : Nat) (f : Nat → Nat → Nat) (a b : Word) : Word := pack w (fun e => f (elem w a e) (elem w b e))
def elemwise1 (w : Nat) (f : Nat → Nat) (a : Word) : Word := pack w (fun e => f (elem w a e))

/-- An exact signed result, clamped where `x`, else modulo `2^w` (R188). -/
def satI (x : Bool) (w : Nat) (i : Int) : Nat := if x then clampI w i else wrap w i

/-- A shift left that saturates to the bound of the sign (R188). -/
def shlSat (x : Bool) (w a b : Nat) : Nat := satI x w (sval w a * 2 ^ (b % w))

def absDiffI (w a b : Nat) : Nat := wrap w (sval w a - sval w b).natAbs
def absDiffN (a b : Nat) : Nat := if a ≤ b then b - a else a - b
def avgI (w a b : Nat) : Nat := wrap w ((sval w a + sval w b + 1) / 2)

/-- A compare of element 0 (R190). -/
def cmp0 (w : Nat) (x : Bool) (fi : Int → Int → Bool) (a b : Word) : Bool × Fx :=
  (if x then fi (elem w a 0 : Int) (elem w b 0 : Int) else fi (sval w (elem w a 0)) (sval w (elem w b 0)), fxNone)

/-- The value of an element, signed or not. -/
def ival (sg : Bool) (w v : Nat) : Int := if sg then sval w v else v

/-- A clamped or wrapped accumulator of 32 bits (R191). -/
def accOut (sg x : Bool) (i : Int) : Nat :=
  if !x then wrap 32 i
  else if sg then clampI 32 i
  else if i < 0 then 0 else if 2 ^ 32 - 1 < i then 2 ^ 32 - 1 else i.toNat

/-- A dot product of `n` elements of width `w` into each of two 32-bit accumulators (R191). -/
def dot (sg : Bool) (w n : Nat) (x : Bool) (a b d : Word) : Word :=
  pack 32 (fun e => accOut sg x (((List.range n).map (fun j =>
    ival sg w (elem w a (n * e + j)) * ival sg w (elem w b (n * e + j)))).foldl (· + ·) (ival sg 32 (elem 32 d e))))

/-- A multiply-add on signed elements of width `w` (R191). -/
def mad (w : Nat) (x : Bool) (a b d : Word) : Word :=
  pack w (fun e => satI x w (sval w (elem w d e) + sval w (elem w a e) * sval w (elem w b e)))

/-- Add and choose (R192). -/
def addPick (w : Nat) (x : Bool) (f : Nat → Nat → Nat → Nat) (a b d : Word) : Word :=
  pack w (fun e => f w (elem w d e) (satI x w (sval w (elem w a e) + sval w (elem w b e))))

/-- A lane instruction of format IV on elements of width `w`. -/
def laneImm (c : W32) (d a : BitVec 5) (q : BitVec 3) (l : Bool) (f : Word → Word) := laneUn c d a q l false f

/-- R187, R188. -/
def execVadd (w : Wid3) (d a b : BitVec 5) (q : BitVec 3) (l m e x : Bool) : State → Host.Outcome State Fault Refusal :=
  laneBin (encVadd w d a b q l m e x) d a b q l m e (elemwise w.bits (fun a b => satI x w.bits (sval w.bits a + sval w.bits b)))

/-- R187, R188. -/
def execVsub (w : Wid3) (d a b : BitVec 5) (q : BitVec 3) (l m e x : Bool) : State → Host.Outcome State Fault Refusal :=
  laneBin (encVsub w d a b q l m e x) d a b q l m e (elemwise w.bits (fun a b => satI x w.bits (sval w.bits a - sval w.bits b)))

/-- R187, R188. -/
def execVmul (w : Wid3) (d a b : BitVec 5) (q : BitVec 3) (l m e x : Bool) : State → Host.Outcome State Fault Refusal :=
  laneBin (encVmul w d a b q l m e x) d a b q l m e (elemwise w.bits (fun a b => satI x w.bits (sval w.bits a * sval w.bits b)))

/-- R187. -/
def execVminI (w : Wid3) (d a b : BitVec 5) (q : BitVec 3) (l m e : Bool) : State → Host.Outcome State Fault Refusal :=
  laneBin (encVminI w d a b q l m e) d a b q l m e (elemwise w.bits (minI w.bits))

/-- R187. -/
def execVminN (w : Wid3) (d a b : BitVec 5) (q : BitVec 3) (l m e : Bool) : State → Host.Outcome State Fault Refusal :=
  laneBin (encVminN w d a b q l m e) d a b q l m e (elemwise w.bits min)

/-- R187. -/
def execVmaxI (w : Wid3) (d a b : BitVec 5) (q : BitVec 3) (l m e : Bool) : State → Host.Outcome State Fault Refusal :=
  laneBin (encVmaxI w d a b q l m e) d a b q l m e (elemwise w.bits (maxI w.bits))

/-- R187. -/
def execVmaxN (w : Wid3) (d a b : BitVec 5) (q : BitVec 3) (l m e : Bool) : State → Host.Outcome State Fault Refusal :=
  laneBin (encVmaxN w d a b q l m e) d a b q l m e (elemwise w.bits max)

/-- R187. -/
def execVabsdI (w : Wid3) (d a b : BitVec 5) (q : BitVec 3) (l m e : Bool) : State → Host.Outcome State Fault Refusal :=
  laneBin (encVabsdI w d a b q l m e) d a b q l m e (elemwise w.bits (absDiffI w.bits))

/-- R187. -/
def execVabsdN (w : Wid3) (d a b : BitVec 5) (q : BitVec 3) (l m e : Bool) : State → Host.Outcome State Fault Refusal :=
  laneBin (encVabsdN w d a b q l m e) d a b q l m e (elemwise w.bits absDiffN)

/-- R187. -/
def execVavgI (w : Wid3) (d a b : BitVec 5) (q : BitVec 3) (l m e : Bool) : State → Host.Outcome State Fault Refusal :=
  laneBin (encVavgI w d a b q l m e) d a b q l m e (elemwise w.bits (avgI w.bits))

/-- R187. -/
def execVavgN (w : Wid3) (d a b : BitVec 5) (q : BitVec 3) (l m e : Bool) : State → Host.Outcome State Fault Refusal :=
  laneBin (encVavgN w d a b q l m e) d a b q l m e (elemwise w.bits (fun a b => (a + b + 1) / 2))

/-- R187, R188. -/
def execVshl (w : Wid3) (d a b : BitVec 5) (q : BitVec 3) (l m e x : Bool) : State → Host.Outcome State Fault Refusal :=
  laneBin (encVshl w d a b q l m e x) d a b q l m e (elemwise w.bits (shlSat x w.bits))

/-- R187. -/
def execVshrI (w : Wid3) (d a b : BitVec 5) (q : BitVec 3) (l m e : Bool) : State → Host.Outcome State Fault Refusal :=
  laneBin (encVshrI w d a b q l m e) d a b q l m e (elemwise w.bits (shiftRightI w.bits))

/-- R187. -/
def execVshrN (w : Wid3) (d a b : BitVec 5) (q : BitVec 3) (l m e : Bool) : State → Host.Outcome State Fault Refusal :=
  laneBin (encVshrN w d a b q l m e) d a b q l m e (elemwise w.bits (fun a b => a / 2 ^ (b % w.bits)))

/-- R187, R188. -/
def execVneg (w : Wid3) (d a : BitVec 5) (q : BitVec 3) (l e x : Bool) : State → Host.Outcome State Fault Refusal :=
  laneUn (encVneg w d a q l e x) d a q l e (elemwise1 w.bits (fun a => satI x w.bits (-sval w.bits a)))

/-- R187, R188. -/
def execVabs (w : Wid3) (d a : BitVec 5) (q : BitVec 3) (l e x : Bool) : State → Host.Outcome State Fault Refusal :=
  laneUn (encVabs w d a q l e x) d a q l e (elemwise1 w.bits (fun a => satI x w.bits (sval w.bits a).natAbs))

/-- R187, R188. -/
def execVaddI64 (d a b : BitVec 5) (q : BitVec 3) (l m e x : Bool) : State → Host.Outcome State Fault Refusal :=
  laneBin (encVaddI64 d a b q l m e x) d a b q l m e (elemwise 64 (fun a b => satI x 64 (sval 64 a + sval 64 b)))

/-- R187, R188. -/
def execVsubI64 (d a b : BitVec 5) (q : BitVec 3) (l m e x : Bool) : State → Host.Outcome State Fault Refusal :=
  laneBin (encVsubI64 d a b q l m e x) d a b q l m e (elemwise 64 (fun a b => satI x 64 (sval 64 a - sval 64 b)))

/-- R187, R188. -/
def execVmulI64 (d a b : BitVec 5) (q : BitVec 3) (l m e x : Bool) : State → Host.Outcome State Fault Refusal :=
  laneBin (encVmulI64 d a b q l m e x) d a b q l m e (elemwise 64 (fun a b => satI x 64 (sval 64 a * sval 64 b)))

/-- R187. -/
def execVminI64 (d a b : BitVec 5) (q : BitVec 3) (l m e : Bool) : State → Host.Outcome State Fault Refusal :=
  laneBin (encVminI64 d a b q l m e) d a b q l m e (elemwise 64 (minI 64))

/-- R187. -/
def execVminN64 (d a b : BitVec 5) (q : BitVec 3) (l m e : Bool) : State → Host.Outcome State Fault Refusal :=
  laneBin (encVminN64 d a b q l m e) d a b q l m e (elemwise 64 min)

/-- R187. -/
def execVmaxI64 (d a b : BitVec 5) (q : BitVec 3) (l m e : Bool) : State → Host.Outcome State Fault Refusal :=
  laneBin (encVmaxI64 d a b q l m e) d a b q l m e (elemwise 64 (maxI 64))

/-- R187. -/
def execVmaxN64 (d a b : BitVec 5) (q : BitVec 3) (l m e : Bool) : State → Host.Outcome State Fault Refusal :=
  laneBin (encVmaxN64 d a b q l m e) d a b q l m e (elemwise 64 max)

/-- R187, R188. -/
def execVshlI64 (d a b : BitVec 5) (q : BitVec 3) (l m e x : Bool) : State → Host.Outcome State Fault Refusal :=
  laneBin (encVshlI64 d a b q l m e x) d a b q l m e (elemwise 64 (shlSat x 64))

/-- R187. -/
def execVshrI64 (d a b : BitVec 5) (q : BitVec 3) (l m e : Bool) : State → Host.Outcome State Fault Refusal :=
  laneBin (encVshrI64 d a b q l m e) d a b q l m e (elemwise 64 (shiftRightI 64))

/-- R187. -/
def execVshrN64 (d a b : BitVec 5) (q : BitVec 3) (l m e : Bool) : State → Host.Outcome State Fault Refusal :=
  laneBin (encVshrN64 d a b q l m e) d a b q l m e (elemwise 64 (fun a b => a / 2 ^ (b % 64)))

/-- R187. -/
def execVand (d a b : BitVec 5) (q : BitVec 3) (l m e : Bool) : State → Host.Outcome State Fault Refusal :=
  laneBin (encVand d a b q l m e) d a b q l m e (fun a b => a &&& b)

/-- R187. -/
def execVor (d a b : BitVec 5) (q : BitVec 3) (l m e : Bool) : State → Host.Outcome State Fault Refusal :=
  laneBin (encVor d a b q l m e) d a b q l m e (fun a b => a ||| b)

/-- R187. -/
def execVxor (d a b : BitVec 5) (q : BitVec 3) (l m e : Bool) : State → Host.Outcome State Fault Refusal :=
  laneBin (encVxor d a b q l m e) d a b q l m e (fun a b => a ^^^ b)

/-- R187. -/
def execVandn (d a b : BitVec 5) (q : BitVec 3) (l m e : Bool) : State → Host.Outcome State Fault Refusal :=
  laneBin (encVandn d a b q l m e) d a b q l m e (fun a b => a &&& ~~~b)

/-- R187. -/
def execVnot (d a : BitVec 5) (q : BitVec 3) (l e : Bool) : State → Host.Outcome State Fault Refusal :=
  laneUn (encVnot d a q l e) d a q l e (fun a => ~~~a)

/-- R187. -/
def execVpopc (d a : BitVec 5) (q : BitVec 3) (l e : Bool) : State → Host.Outcome State Fault Refusal :=
  laneUn (encVpopc d a q l e) d a q l e (fun a => BitVec.ofNat 64 (ones 64 a.toNat))

/-- R189. -/
def execVaddi (w : Wid4) (d a : BitVec 5) (q : BitVec 3) (l : Bool) (i : BitVec 8) :
    State → Host.Outcome State Fault Refusal :=
  laneImm (encVaddi w d a q l i) d a q l (elemwise1 w.bits (fun a => wrap w.bits (sval w.bits a + sval 8 i.toNat)))

/-- R189. -/
def execVshli (w : Wid4) (d a : BitVec 5) (q : BitVec 3) (l : Bool) (i : BitVec 8) :
    State → Host.Outcome State Fault Refusal :=
  laneImm (encVshli w d a q l i) d a q l (elemwise1 w.bits (fun a => a * 2 ^ i.toNat))

/-- R189. -/
def execVshriI (w : Wid4) (d a : BitVec 5) (q : BitVec 3) (l : Bool) (i : BitVec 8) :
    State → Host.Outcome State Fault Refusal :=
  laneImm (encVshriI w d a q l i) d a q l (elemwise1 w.bits (fun a => wrap w.bits (sval w.bits a / 2 ^ i.toNat)))

/-- R189. -/
def execVshriN (w : Wid4) (d a : BitVec 5) (q : BitVec 3) (l : Bool) (i : BitVec 8) :
    State → Host.Outcome State Fault Refusal :=
  laneImm (encVshriN w d a q l i) d a q l (elemwise1 w.bits (fun a => a / 2 ^ i.toNat))

/-- R190. -/
def execVceq (w : Wid4) (d : PReg) (a b : BitVec 5) (q : BitVec 3) (l m e x : Bool) :
    State → Host.Outcome State Fault Refusal :=
  laneCmp (encVceq w d a b q l m e x) d a b q l m e (cmp0 w.bits x (fun a b => a == b))

/-- R190. -/
def execVcne (w : Wid4) (d : PReg) (a b : BitVec 5) (q : BitVec 3) (l m e x : Bool) :
    State → Host.Outcome State Fault Refusal :=
  laneCmp (encVcne w d a b q l m e x) d a b q l m e (cmp0 w.bits x (fun a b => a != b))

/-- R190. -/
def execVclt (w : Wid4) (d : PReg) (a b : BitVec 5) (q : BitVec 3) (l m e x : Bool) :
    State → Host.Outcome State Fault Refusal :=
  laneCmp (encVclt w d a b q l m e x) d a b q l m e (cmp0 w.bits x (fun a b => a < b))

/-- R190. -/
def execVcle (w : Wid4) (d : PReg) (a b : BitVec 5) (q : BitVec 3) (l m e x : Bool) :
    State → Host.Outcome State Fault Refusal :=
  laneCmp (encVcle w d a b q l m e x) d a b q l m e (cmp0 w.bits x (fun a b => a ≤ b))

/-- R191. -/
def execVdot4I8 (d a b : BitVec 5) (q : BitVec 3) (l m e x : Bool) : State → Host.Outcome State Fault Refusal :=
  laneAcc (encVdot4I8 d a b q l m e x) d a b q l m e (dot true 8 4 x)

/-- R191. -/
def execVdot4N8 (d a b : BitVec 5) (q : BitVec 3) (l m e x : Bool) : State → Host.Outcome State Fault Refusal :=
  laneAcc (encVdot4N8 d a b q l m e x) d a b q l m e (dot false 8 4 x)

/-- R191. -/
def execVdot2I16 (d a b : BitVec 5) (q : BitVec 3) (l m e x : Bool) : State → Host.Outcome State Fault Refusal :=
  laneAcc (encVdot2I16 d a b q l m e x) d a b q l m e (dot true 16 2 x)

/-- R191. -/
def execVdot2N16 (d a b : BitVec 5) (q : BitVec 3) (l m e x : Bool) : State → Host.Outcome State Fault Refusal :=
  laneAcc (encVdot2N16 d a b q l m e x) d a b q l m e (dot false 16 2 x)

/-- R191. -/
def execVmadI16 (d a b : BitVec 5) (q : BitVec 3) (l m e x : Bool) : State → Host.Outcome State Fault Refusal :=
  laneAcc (encVmadI16 d a b q l m e x) d a b q l m e (mad 16 x)

/-- R191. -/
def execVmadI32 (d a b : BitVec 5) (q : BitVec 3) (l m e x : Bool) : State → Host.Outcome State Fault Refusal :=
  laneAcc (encVmadI32 d a b q l m e x) d a b q l m e (mad 32 x)

/-- R191. -/
def execVmadI64 (d a b : BitVec 5) (q : BitVec 3) (l m e x : Bool) : State → Host.Outcome State Fault Refusal :=
  laneAcc (encVmadI64 d a b q l m e x) d a b q l m e (mad 64 x)

/-- R192. -/
def execVaddminI16 (d a b : BitVec 5) (q : BitVec 3) (l m e x : Bool) : State → Host.Outcome State Fault Refusal :=
  laneAcc (encVaddminI16 d a b q l m e x) d a b q l m e (addPick 16 x minI)

/-- R192. -/
def execVaddmaxI16 (d a b : BitVec 5) (q : BitVec 3) (l m e x : Bool) : State → Host.Outcome State Fault Refusal :=
  laneAcc (encVaddmaxI16 d a b q l m e x) d a b q l m e (addPick 16 x maxI)

/-- R192. -/
def execVaddminI32 (d a b : BitVec 5) (q : BitVec 3) (l m e x : Bool) : State → Host.Outcome State Fault Refusal :=
  laneAcc (encVaddminI32 d a b q l m e x) d a b q l m e (addPick 32 x minI)

/-- R192. -/
def execVaddmaxI32 (d a b : BitVec 5) (q : BitVec 3) (l m e x : Bool) : State → Host.Outcome State Fault Refusal :=
  laneAcc (encVaddmaxI32 d a b q l m e x) d a b q l m e (addPick 32 x maxI)

/-- R192: each bit of D chooses A where it is 1, B where it is 0. -/
def execVsel (d a b : BitVec 5) (q : BitVec 3) (l m e : Bool) : State → Host.Outcome State Fault Refusal :=
  laneAcc (encVsel d a b q l m e) d a b q l m e (fun a b d => (d &&& a) ||| (~~~d &&& b))

end Sys2Proof.Machine
end

