-- ==== Sys2Proof/Machine/LaneFloat.lean ====
section
/-!
DEFINITION. Floating arithmetic: scalar major 0x07 (spec/07 R155), lane majors 0x18 to 0x1B and the f32 forms of 0x17
(spec/09 R192 to R195), complex arithmetic and butterflies, major 0x1F (R202, R203).
-/

namespace Sys2Proof.Machine

/-! ### Scalar f32 (R155) -/

/-- Bits 31:0 of a scalar. -/
def Group.f32 (g : Group) (n : BitVec 5) : Nat := (g.sreg n.toNat).toNat % 2 ^ 32

/-- A scalar float instruction: `f g m r` gives the 64-bit result and flags in mode `m` with draw `r`. -/
def scalarFlt (w : W32) (r : Rm) (d : BitVec 5) (srcs : List (Reg × Bool)) (reads e : Bool)
    (f : Group → Rnd → Nat → Nat × Fx) :=
  issue w (fun g => needS g srcs (some (sr d)) reads e) noGate
    (onGroup (fun g g' =>
      let y := f g (g.rnd r) (g.draw 0)
      ((g'.setS d.toNat (BitVec.ofNat 64 y.1)).addFlags y.2).step (g.rnd r)))

/-! ### Minimum, maximum and compares (R195) -/

/-- The order of two floats with -0 below +0. -/
def Fmt.below (f : Fmt) (a b : Nat) : Bool :=
  let x := f.decode a
  let y := f.decode b
  x.lt y || (x.isZero && y.isZero && x.isNeg && !y.isNeg)

def Fmt.min (f : Fmt) (a b : Nat) : Nat × Fx :=
  (if (f.decode a).isNan then (if (f.decode b).isNan then f.nanCode else b)
    else if (f.decode b).isNan then a
    else if f.below b a then b else a, f.sig [a, b])

def Fmt.max (f : Fmt) (a b : Nat) : Nat × Fx :=
  (if (f.decode a).isNan then (if (f.decode b).isNan then f.nanCode else b)
    else if (f.decode b).isNan then a
    else if f.below a b then b else a, f.sig [a, b])

/-- `vfclt` and `vfcle`: 0 and invalid where either operand is NaN. -/
def Fmt.cmpN (f : Fmt) (op : Num → Num → Bool) (a b : Nat) : Bool × Fx :=
  (op (f.decode a) (f.decode b), if (f.decode a).isNan || (f.decode b).isNan then fxInvalid else fxNone)

/-- `vfceq`: invalid only on a signalling NaN. -/
def Fmt.cmpEq (f : Fmt) (a b : Nat) : Bool × Fx := ((f.decode a).eq (f.decode b), f.sig [a, b])

/-! ### Lane shapes -/

def halfFmt : Half → Fmt
  | .bf16 => .bf16
  | .f16 => .f16

/-- Elements of a format: `g m r a b d` at each element, whose draw is for element number `8l + e` (R174). -/
def fltElems (f : Fmt) (d a b : BitVec 5) (op : Rnd → Nat → Nat → Nat → Nat → Nat × Fx) (g : Group) (m : Rnd) (l : Nat) :
    Word × Fx :=
  packF f.width (64 / f.width) (fun e => op m (g.draw (8 * l + e)) (elem f.width (g.vreg a.toNat l) e)
    (elem f.width (g.vreg b.toNat l) e) (elem f.width (g.vreg d.toNat l) e))

/-- An arithmetic lane instruction on two sources. -/
def fltBin (f : Fmt) (w : W32) (r : Rm) (d a b : BitVec 5) (q : BitVec 3) (l m e reads : Bool)
    (op : Rnd → Nat → Nat → Nat → Nat → Nat × Fx) :=
  laneFlt w d [(vr a, l), (vr b, m)] reads e q (fun g => g.rnd r) (fltElems f d a b op)

/-- An exact element-wise operation that may raise flags. -/
def fltExact (f : Fmt) (w : W32) (d a b : BitVec 5) (q : BitVec 3) (l m e : Bool) (op : Nat → Nat → Nat × Fx) :=
  issue w (fun g => needV g [(vr a, l), (vr b, m)] (vr d) false e q.toNat) noGate
    (onGroup (laneOut q.toNat d (fun g i => packF f.width (64 / f.width) (fun k =>
      op (elem f.width (g.vreg a.toNat i) k) (elem f.width (g.vreg b.toNat i) k)))))

/-- A compare of element 0. -/
def fltCmp (f : Fmt) (w : W32) (d : BitVec 3) (a b : BitVec 5) (q : BitVec 3) (l m e : Bool) (op : Nat → Nat → Bool × Fx) :=
  laneCmp w d a b q l m e (fun x y => op (elem f.width x 0) (elem f.width y 0))

/-- Two products of bf16 and an f32 addend, summed exactly and rounded once (R194). -/
def fmaWide (neg : Bool) (m : Rnd) (r : Nat) (a b : Word) (e d : Nat) : Nat × Fx :=
  let p := fun j => Num.mul (Fmt.bf16.decode (elem 16 a j)) (Fmt.bf16.decode (elem 16 b j))
  let sgn := fun (x : Num) => if neg then x.neg else x
  let p0 := p (2 * e)
  let p1 := p (2 * e + 1)
  let s := Num.add m (sgn p0.1) (sgn p1.1)
  let t := Num.add m s.1 (Fmt.f32.decode d)
  let y := Fmt.f32.round t.1 m r false
  (y.1, y.2 ||| p0.2 ||| p1.2 ||| s.2 ||| t.2 ||| Fmt.bf16.sig [elem 16 a (2 * e), elem 16 a (2 * e + 1),
    elem 16 b (2 * e), elem 16 b (2 * e + 1)] ||| Fmt.f32.sig [d])

/-- Sum, then minimum or maximum with D (R192): both raise their flags. -/
def addPickF (pick : Nat → Nat → Nat × Fx) (m : Rnd) (r a b d : Nat) : Nat × Fx :=
  let s := Fmt.f32.add m r a b
  let y := pick d s.1
  (y.1, y.2 ||| s.2)

/-! ### Complex (R202, R203) -/

/-- One part of a complex product: `x * y + u * v`, the second product negated where `neg`, rounded once. -/
def twoProducts (f : Fmt) (neg : Bool) (m : Rnd) (r x y u v : Nat) : Nat × Fx :=
  let p := Num.mul (f.decode x) (f.decode y)
  let q := Num.mul (f.decode u) (f.decode v)
  let s := Num.add m p.1 (if neg then q.1.neg else q.1)
  let z := f.round s.1 m r false
  (z.1, z.2 ||| p.2 ||| q.2 ||| s.2 ||| f.sig [x, y, u, v])

/-- A complex product, conjugating B where `conj`: parts alternate real, imaginary. -/
def cmul (f : Fmt) (conj : Bool) (a b : BitVec 5) (g : Group) (m : Rnd) (l : Nat) : Word × Fx :=
  packF f.width (64 / f.width) (fun e =>
    let w := f.width
    let k := e / 2 * 2
    let ar := elem w (g.vreg a.toNat l) k
    let ai := elem w (g.vreg a.toNat l) (k + 1)
    let br := elem w (g.vreg b.toNat l) k
    let bi := elem w (g.vreg b.toNat l) (k + 1)
    let r := g.draw (8 * l + e)
    if e % 2 = 0 then twoProducts f (!conj) m r ar br ai bi
    else if conj then twoProducts f true m r ai br ar bi
    else twoProducts f false m r ar bi ai br)

/-- A cross-lane read: zero in an exited lane and beyond the footprint (R204). -/
def Group.cross (g : Group) (n l : Nat) : Word := if l < g.lanes && bit g.alive l then g.vreg n l else 0

/-- The partner's value of a butterfly (R203). -/
def Group.partner (g : Group) (a : BitVec 5) (j l : Nat) : Word := if 10 ≤ j then 0 else g.cross a.toNat (Nat.xor l (2 ^ j))

def bfly (f : Fmt) (a b : BitVec 5) (g : Group) (m : Rnd) (l : Nat) : Word × Fx :=
  let j := (g.sreg b.toNat).toNat
  packF f.width (64 / f.width) (fun e =>
    let v := elem f.width (g.vreg a.toNat l) e
    let u := elem f.width (g.partner a j l) e
    let r := g.draw (8 * l + e)
    if j < 10 && l.testBit j then f.sub m r u v else f.add m r v u)

/-- R155. -/
def execFadd (r : Rm) (d a b : BitVec 5) (l m e : Bool) : State → Host.Outcome State Fault Refusal :=
  scalarFlt (encFadd r d a b l m e) r d [(sr a, l), (sr b, m)] false e (fun g k r => Fmt.f32.add k r (g.f32 a) (g.f32 b))

/-- R155. -/
def execFsub (r : Rm) (d a b : BitVec 5) (l m e : Bool) : State → Host.Outcome State Fault Refusal :=
  scalarFlt (encFsub r d a b l m e) r d [(sr a, l), (sr b, m)] false e (fun g k r => Fmt.f32.sub k r (g.f32 a) (g.f32 b))

/-- R155. -/
def execFmul (r : Rm) (d a b : BitVec 5) (l m e : Bool) : State → Host.Outcome State Fault Refusal :=
  scalarFlt (encFmul r d a b l m e) r d [(sr a, l), (sr b, m)] false e (fun g k r => Fmt.f32.mul k r (g.f32 a) (g.f32 b))

/-- R155. -/
def execFdiv (r : Rm) (d a b : BitVec 5) (l m e : Bool) : State → Host.Outcome State Fault Refusal :=
  scalarFlt (encFdiv r d a b l m e) r d [(sr a, l), (sr b, m)] false e (fun g k r => Fmt.f32.div k r (g.f32 a) (g.f32 b))

/-- R155: reads D. -/
def execFfma (r : Rm) (d a b : BitVec 5) (l m e : Bool) : State → Host.Outcome State Fault Refusal :=
  scalarFlt (encFfma r d a b l m e) r d [(sr a, l), (sr b, m)] true e (fun g k r => Fmt.f32.fma k r (g.f32 a) (g.f32 b) (g.f32 d) false false)

/-- R155. -/
def execFsqrt (r : Rm) (d a : BitVec 5) (l e : Bool) : State → Host.Outcome State Fault Refusal :=
  scalarFlt (encFsqrt r d a l e) r d [(sr a, l)] false e (fun g k r => Fmt.f32.sqrt k r (g.f32 a))

/-- R155: the signed integer A to f32. -/
def execFcvtF32I64 (r : Rm) (d a : BitVec 5) (l e : Bool) : State → Host.Outcome State Fault Refusal :=
  scalarFlt (encFcvtF32I64 r d a l e) r d [(sr a, l)] false e (fun g k r => Fmt.f32.round (Num.ofInt (sval 64 (g.sreg a.toNat).toNat)) k r false)

/-- R155: f32 to the 64-bit integer. -/
def execFcvtI64F32 (r : Rm) (d a : BitVec 5) (l e : Bool) : State → Host.Outcome State Fault Refusal :=
  scalarFlt (encFcvtI64F32 r d a l e) r d [(sr a, l)] false e (fun g k r => roundInt 64 true (Fmt.f32.decode (g.f32 a)) k r)

/-- R192: the sum rounds in MODE.RND. -/
def execVaddminF32 (d a b : BitVec 5) (q : BitVec 3) (l m e : Bool) : State → Host.Outcome State Fault Refusal :=
  fltBin .f32 (encVaddminF32 d a b q l m e) .mode d a b q l m e true (fun k r a b d => addPickF Fmt.f32.min k r a b d)

/-- R192. -/
def execVaddmaxF32 (d a b : BitVec 5) (q : BitVec 3) (l m e : Bool) : State → Host.Outcome State Fault Refusal :=
  fltBin .f32 (encVaddmaxF32 d a b q l m e) .mode d a b q l m e true (fun k r a b d => addPickF Fmt.f32.max k r a b d)

/-- R193. -/
def execVaddF32 (r : Rm) (d a b : BitVec 5) (q : BitVec 3) (l m e : Bool) : State → Host.Outcome State Fault Refusal :=
  fltBin .f32 (encVaddF32 r d a b q l m e) r d a b q l m e false (fun k r a b _ => Fmt.f32.add k r a b)

/-- R193. -/
def execVsubF32 (r : Rm) (d a b : BitVec 5) (q : BitVec 3) (l m e : Bool) : State → Host.Outcome State Fault Refusal :=
  fltBin .f32 (encVsubF32 r d a b q l m e) r d a b q l m e false (fun k r a b _ => Fmt.f32.sub k r a b)

/-- R193. -/
def execVmulF32 (r : Rm) (d a b : BitVec 5) (q : BitVec 3) (l m e : Bool) : State → Host.Outcome State Fault Refusal :=
  fltBin .f32 (encVmulF32 r d a b q l m e) r d a b q l m e false (fun k r a b _ => Fmt.f32.mul k r a b)

/-- R193. -/
def execVdivF32 (r : Rm) (d a b : BitVec 5) (q : BitVec 3) (l m e : Bool) : State → Host.Outcome State Fault Refusal :=
  fltBin .f32 (encVdivF32 r d a b q l m e) r d a b q l m e false (fun k r a b _ => Fmt.f32.div k r a b)

/-- R193. -/
def execVsqrtF32 (r : Rm) (d a : BitVec 5) (q : BitVec 3) (l e : Bool) : State → Host.Outcome State Fault Refusal :=
  laneFlt (encVsqrtF32 r d a q l e) d [(vr a, l)] false e q (fun g => g.rnd r) (fltElems .f32 d a a (fun k r a _ _ => Fmt.f32.sqrt k r a))

/-- R195. -/
def execVminF32 (d a b : BitVec 5) (q : BitVec 3) (l m e : Bool) : State → Host.Outcome State Fault Refusal :=
  fltExact .f32 (encVminF32 d a b q l m e) d a b q l m e Fmt.f32.min

/-- R195. -/
def execVmaxF32 (d a b : BitVec 5) (q : BitVec 3) (l m e : Bool) : State → Host.Outcome State Fault Refusal :=
  fltExact .f32 (encVmaxF32 d a b q l m e) d a b q l m e Fmt.f32.max

/-- R195. -/
def execVfcltF32 (d : PReg) (a b : BitVec 5) (q : BitVec 3) (l m e : Bool) : State → Host.Outcome State Fault Refusal :=
  fltCmp .f32 (encVfcltF32 d a b q l m e) d a b q l m e (Fmt.f32.cmpN Num.lt)

/-- R195. -/
def execVfcleF32 (d : PReg) (a b : BitVec 5) (q : BitVec 3) (l m e : Bool) : State → Host.Outcome State Fault Refusal :=
  fltCmp .f32 (encVfcleF32 d a b q l m e) d a b q l m e (Fmt.f32.cmpN Num.le)

/-- R195. -/
def execVfceqF32 (d : PReg) (a b : BitVec 5) (q : BitVec 3) (l m e : Bool) : State → Host.Outcome State Fault Refusal :=
  fltCmp .f32 (encVfceqF32 d a b q l m e) d a b q l m e Fmt.f32.cmpEq

/-- R194: X negates the product. -/
def execVfmaF32 (r : Rm) (d a b : BitVec 5) (q : BitVec 3) (l m e x : Bool) :
    State → Host.Outcome State Fault Refusal :=
  fltBin .f32 (encVfmaF32 r d a b q l m e x) r d a b q l m e true (fun k r a b d => Fmt.f32.fma k r a b d x false)

/-- R194. -/
def execVfmsF32 (r : Rm) (d a b : BitVec 5) (q : BitVec 3) (l m e x : Bool) :
    State → Host.Outcome State Fault Refusal :=
  fltBin .f32 (encVfmsF32 r d a b q l m e x) r d a b q l m e true (fun k r a b d => Fmt.f32.fma k r a b d x true)

/-- R194. -/
def execVfmaw (r : Rm) (d a b : BitVec 5) (q : BitVec 3) (l m e x : Bool) : State → Host.Outcome State Fault Refusal :=
  laneFlt (encVfmaw r d a b q l m e x) d [(vr a, l), (vr b, m)] true e q (fun g => g.rnd r) (fun g k l =>
    packF 32 2 (fun e => fmaWide x k (g.draw (8 * l + e)) (g.vreg a.toNat l) (g.vreg b.toNat l) e
      (elem 32 (g.vreg d.toNat l) e)))

/-- R193. -/
def execVaddHalf (t : Half) (r : Rm) (d a b : BitVec 5) (q : BitVec 3) (l m e : Bool) :
    State → Host.Outcome State Fault Refusal :=
  fltBin (halfFmt t) (encVaddHalf t r d a b q l m e) r d a b q l m e false (fun k r a b _ => (halfFmt t).add k r a b)

/-- R193. -/
def execVsubHalf (t : Half) (r : Rm) (d a b : BitVec 5) (q : BitVec 3) (l m e : Bool) :
    State → Host.Outcome State Fault Refusal :=
  fltBin (halfFmt t) (encVsubHalf t r d a b q l m e) r d a b q l m e false (fun k r a b _ => (halfFmt t).sub k r a b)

/-- R193. -/
def execVmulHalf (t : Half) (r : Rm) (d a b : BitVec 5) (q : BitVec 3) (l m e : Bool) :
    State → Host.Outcome State Fault Refusal :=
  fltBin (halfFmt t) (encVmulHalf t r d a b q l m e) r d a b q l m e false (fun k r a b _ => (halfFmt t).mul k r a b)

/-- R193: reads D. -/
def execVfmaHalf (t : Half) (r : Rm) (d a b : BitVec 5) (q : BitVec 3) (l m e : Bool) :
    State → Host.Outcome State Fault Refusal :=
  fltBin (halfFmt t) (encVfmaHalf t r d a b q l m e) r d a b q l m e true (fun k r a b d => (halfFmt t).fma k r a b d false false)

/-- R193: reads D. -/
def execVfnmaHalf (t : Half) (r : Rm) (d a b : BitVec 5) (q : BitVec 3) (l m e : Bool) :
    State → Host.Outcome State Fault Refusal :=
  fltBin (halfFmt t) (encVfnmaHalf t r d a b q l m e) r d a b q l m e true (fun k r a b d => (halfFmt t).fma k r a b d true false)

/-- R195. -/
def execVminHalf (t : Half) (d a b : BitVec 5) (q : BitVec 3) (l m e : Bool) :
    State → Host.Outcome State Fault Refusal :=
  fltExact (halfFmt t) (encVminHalf t d a b q l m e) d a b q l m e (halfFmt t).min

/-- R195. -/
def execVmaxHalf (t : Half) (d a b : BitVec 5) (q : BitVec 3) (l m e : Bool) :
    State → Host.Outcome State Fault Refusal :=
  fltExact (halfFmt t) (encVmaxHalf t d a b q l m e) d a b q l m e (halfFmt t).max

/-- R195. -/
def execVfcltHalf (t : Half) (d : PReg) (a b : BitVec 5) (q : BitVec 3) (l m e : Bool) :
    State → Host.Outcome State Fault Refusal :=
  fltCmp (halfFmt t) (encVfcltHalf t d a b q l m e) d a b q l m e ((halfFmt t).cmpN Num.lt)

/-- R195. -/
def execVfcleHalf (t : Half) (d : PReg) (a b : BitVec 5) (q : BitVec 3) (l m e : Bool) :
    State → Host.Outcome State Fault Refusal :=
  fltCmp (halfFmt t) (encVfcleHalf t d a b q l m e) d a b q l m e ((halfFmt t).cmpN Num.le)

/-- R195. -/
def execVfceqHalf (t : Half) (d : PReg) (a b : BitVec 5) (q : BitVec 3) (l m e : Bool) :
    State → Host.Outcome State Fault Refusal :=
  fltCmp (halfFmt t) (encVfceqHalf t d a b q l m e) d a b q l m e (halfFmt t).cmpEq

/-- R202. -/
def execVcmulF32 (d a b : BitVec 5) (q : BitVec 3) (l m e : Bool) : State → Host.Outcome State Fault Refusal :=
  laneFlt (encVcmulF32 d a b q l m e) d [(vr a, l), (vr b, m)] false e q Group.modeRnd (cmul .f32 false a b)

/-- R202. -/
def execVcmulcF32 (d a b : BitVec 5) (q : BitVec 3) (l m e : Bool) : State → Host.Outcome State Fault Refusal :=
  laneFlt (encVcmulcF32 d a b q l m e) d [(vr a, l), (vr b, m)] false e q Group.modeRnd (cmul .f32 true a b)

/-- R202. -/
def execVcmulBf16 (d a b : BitVec 5) (q : BitVec 3) (l m e : Bool) : State → Host.Outcome State Fault Refusal :=
  laneFlt (encVcmulBf16 d a b q l m e) d [(vr a, l), (vr b, m)] false e q Group.modeRnd (cmul .bf16 false a b)

/-- R203: B names a scalar. -/
def execVbflyF32 (d a b : BitVec 5) (q : BitVec 3) (l m e : Bool) : State → Host.Outcome State Fault Refusal :=
  laneFlt (encVbflyF32 d a b q l m e) d [(vr a, l), (sr b, m)] false e q Group.modeRnd (bfly .f32 a b)

/-- R203. -/
def execVbflyBf16 (d a b : BitVec 5) (q : BitVec 3) (l m e : Bool) : State → Host.Outcome State Fault Refusal :=
  laneFlt (encVbflyBf16 d a b q l m e) d [(vr a, l), (sr b, m)] false e q Group.modeRnd (bfly .bf16 a b)

end Sys2Proof.Machine
end

