-- ==== Sys2Proof/Machine/Cross.lean ====
section
/-!
DEFINITION. Cross-lane reads, matches, votes, reductions, scans and lane moves: majors 0x20 to 0x22 (spec/09 R204 to
R209), and predicate instructions, major 0x0A (spec/07 R163).
-/

namespace Sys2Proof.Machine

/-! ### Predicates (R163) -/

/-- A predicate instruction: `f g l` is the bit of each written lane. -/
def predOp (w : W32) (d : BitVec 3) (srcs : List (Reg × Bool)) (e : Bool) (q : BitVec 3) (f : Group → Nat → Bool) :=
  issue w (fun g => needL g srcs [] e q.toNat) noGate (onGroup (fun g g' => g'.setP d.toNat (g.eff q.toNat) (f g)))

def Group.pbit (g : Group) (p : BitVec 3) (l : Nat) : Bool := bit (g.pred p.toNat) l

/-- The lowest lane of the effective mask with `p` true. -/
def Group.firstLane (g : Group) (q p : BitVec 3) : Option Nat :=
  (lanesOf g.lanes (g.eff q.toNat &&& g.pred p.toNat)).head?

/-! ### Cross-lane reads (R204, R205) -/

/-- A lane instruction on lanes of A and a scalar B. -/
def laneMove (w : W32) (d : BitVec 5) (srcs : List (Reg × Bool)) (e : Bool) (q : BitVec 3) (f : Group → Nat → Word) :=
  issue w (fun g => needV g srcs (vr d) false e q.toNat) noGate (onGroup (laneOut q.toNat d (fun g l => (f g l, fxNone))))

/-- Byte selection within a lane. -/
def subSel (a b : Word) : Word :=
  pack 8 (fun m => if b.getLsbD (8 * m + 7) then 0 else elem 8 a (bits b (8 * m + 2) (8 * m)))

/-! ### Match (R206) -/

/-- Whether two keys match by value class. -/
def keysMatch (k : KeyTy) (a b : Word) : Bool :=
  let flt := fun (f : Fmt) =>
    let x := elem f.width a 0
    let y := elem f.width b 0
    x == y || ((f.decode x).isZero && (f.decode y).isZero) || ((f.decode x).isNan && (f.decode y).isNan)
  match k with
  | .i64 => a == b
  | .i32 => elem 32 a 0 == elem 32 b 0
  | .f32 => flt .f32
  | .bf16 => flt .bf16
  | .f16 => flt .f16

/-- The mask of the lanes of row `y` that satisfy `p`. -/
def rowMask (y : Nat) (p : Nat → Bool) : Word := BitVec.ofNat 64 (bitsOf (fun x => p (32 * y + x)) 32)

/-! ### Reductions and scans (R183, R208) -/

/-- One level of a tree: neighbours are combined, an unpaired last value passes up.  Items carry their lowest lane. -/
def pairUp {α : Type} (f : Nat → α → α → α) : List (Nat × α) → List (Nat × α)
  | a :: b :: t => (a.1, f a.1 a.2 b.2) :: pairUp f t
  | l => l

/-- The levels of a tree from level `h`: `f h l0 u v` combines at a node of level `h` whose lowest lane is `l0`. -/
def treeUp {α : Type} (f : Nat → Nat → α → α → α) : Nat → Nat → List (Nat × α) → List (Nat × α)
  | 0, _, l => l
  | n + 1, h, l => treeUp f n (h + 1) (pairUp (f h) l)

/-- The reduction tree of R183: five levels over x in each row, five over y. -/
def reduceTree {α : Type} (rows : Nat) (f : Nat → Nat → α → α → α) (v : Nat → α) (z : α) : α :=
  let perRow := (List.range rows).flatMap (fun y => treeUp f 5 0 ((List.range 32).map (fun x => (32 * y + x, v (32 * y + x)))))
  ((treeUp f 5 5 perRow).headD (0, z)).2

/-- A reduction of a lane register into scalar `d`. -/
def reduceOp (w : W32) (d a : BitVec 5) (l e : Bool) (q : BitVec 3) (rnds : Bool) (f : Group → Nat × Fx) :=
  issue w (fun g => needL g [(vr a, l)] [sr d] e q.toNat) noGate
    (onGroup (fun g g' =>
      let y := f g
      let r := (g'.setS d.toNat (BitVec.ofNat 64 y.1)).addFlags y.2
      if rnds then r.step g.modeRnd else r))

/-- The values of the lanes of the effective mask, and `z` in the others. -/
def Group.masked (g : Group) (q : BitVec 3) (a : BitVec 5) (w z : Nat) (l : Nat) : Nat :=
  if bit (g.eff q.toNat) l then elem w (g.vreg a.toNat l) 0 else z

/-- A reduction that lanes outside the mask leave alone: a minimum or a maximum. -/
def Group.foldMask (g : Group) (q : BitVec 3) (a : BitVec 5) (w : Nat) (f : Nat → Nat → Nat × Fx) : Nat × Fx :=
  match (lanesOf g.lanes (g.eff q.toNat)).map (fun l => elem w (g.vreg a.toNat l) 0) with
  | [] => (0, fxNone)
  | x :: t => t.foldl (fun s y => ((f s.1 y).1, s.2 ||| (f s.1 y).2)) (x, fxNone)

/-- The optional values of two subtrees of a minimum or a maximum: one outside the mask contributes nothing. -/
def joinOpt (f : Nat → Nat → Nat × Fx) (u v : Option Nat × Fx) : Option Nat × Fx :=
  match u.1, v.1 with
  | some a, some b => (some (f a b).1, u.2 ||| v.2 ||| (f a b).2)
  | some a, none => (some a, u.2 ||| v.2)
  | none, b => (b, u.2 ||| v.2)

/-- A minimum or maximum over the tree. -/
def Group.treeMask (g : Group) (q : BitVec 3) (a : BitVec 5) (w : Nat) (f : Nat → Nat → Nat × Fx) : Nat × Fx :=
  let r := reduceTree (6 * g.id.foot) (fun _ _ u v => joinOpt f u v)
    (fun l => (if bit (g.eff q.toNat) l then some (elem w (g.vreg a.toNat l) 0) else none, fxNone)) (none, fxNone)
  match r.1 with
  | none => (0, r.2)
  | some v => (v, r.2)

/-- A minimum or maximum over the tree in f32; that of one lane is that lane's value (R166). -/
def Group.treeF32 (g : Group) (q : BitVec 3) (a : BitVec 5) (f : Nat → Nat → Nat × Fx) : Nat × Fx :=
  let r := g.treeMask q a 32 f
  let y := Fmt.f32.passed r.1
  (y.1, r.2 ||| y.2)

/-- The sum of the tree in f32 (R208): the addition at a node of level `h` draws with element number `16 l0 + h`. -/
def Group.treeSum (g : Group) (q : BitVec 3) (a : BitVec 5) : Nat × Fx :=
  reduceTree (6 * g.id.foot) (fun h l0 u v =>
      let s := Fmt.f32.add g.modeRnd (g.draw (16 * l0 + h)) u.1 v.1
      (s.1, u.2 ||| v.2 ||| s.2))
    (fun l => (g.masked q a 32 0 l, fxNone)) (0, fxNone)

/-- A scan's running values: lane `l` receives the combination of every lane of the mask up to it, the first its own by `c`. -/
def scanList (c : Nat → Nat × Fx) (f : Nat → Nat → Nat → Nat × Fx) (v : Nat → Nat) :
    List Nat → Option Nat → List (Nat × (Nat × Fx))
  | [], _ => []
  | l :: t, none => (l, c (v l)) :: scanList c f v t (some (c (v l)).1)
  | l :: t, some s => (l, f l s (v l)) :: scanList c f v t (some (f l s (v l)).1)

/-- A scan of a lane register into lane register `d`. -/
def scanOp (w : W32) (d a : BitVec 5) (l e : Bool) (q : BitVec 3) (wd : Nat) (rnds : Bool)
    (f : Group → Nat → Nat → Nat → Nat × Fx) :=
  -- in the rounded sum a lane outside the mask contributes +0 to the chain (R183)
  issue w (fun g => needV g [(vr a, l)] (vr d) false e q.toNat) noGate
    (onGroup (fun g g' =>
      let r := scanList (if rnds then Fmt.f32.passed else fun v => (v, fxNone)) (f g) (g.masked q a wd 0)
        (if rnds then List.range g.lanes else lanesOf g.lanes (g.eff q.toNat)) none
      let y := (g'.setV g d.toNat (g.eff q.toNat) (fun i => BitVec.ofNat 64 ((Tab.getD r i (0, fxNone)).1))).addFlags
        (r.foldl (fun a x => a ||| x.2.2) fxNone)
      if rnds then y.step g.modeRnd else y))

/-- R163. -/
def execPand (d a b : PReg) (q : BitVec 3) : State → Host.Outcome State Fault Refusal :=
  predOp (encPand d a b q) d [] false q (fun g l => g.pbit a l && g.pbit b l)

/-- R163. -/
def execPor (d a b : PReg) (q : BitVec 3) : State → Host.Outcome State Fault Refusal :=
  predOp (encPor d a b q) d [] false q (fun g l => g.pbit a l || g.pbit b l)

/-- R163. -/
def execPxor (d a b : PReg) (q : BitVec 3) : State → Host.Outcome State Fault Refusal :=
  predOp (encPxor d a b q) d [] false q (fun g l => g.pbit a l != g.pbit b l)

/-- R163. -/
def execPandn (d a b : PReg) (q : BitVec 3) : State → Host.Outcome State Fault Refusal :=
  predOp (encPandn d a b q) d [] false q (fun g l => g.pbit a l && !g.pbit b l)

/-- R163. -/
def execPnot (d a : PReg) (q : BitVec 3) : State → Host.Outcome State Fault Refusal :=
  predOp (encPnot d a q) d [] false q (fun g l => !g.pbit a l)

/-- R163. -/
def execPmov (d a : PReg) (q : BitVec 3) : State → Host.Outcome State Fault Refusal :=
  predOp (encPmov d a q) d [] false q (fun g l => g.pbit a l)

/-- R163: A names a scalar. -/
def execPset (d : PReg) (a : BitVec 5) (q : BitVec 3) (l e : Bool) : State → Host.Outcome State Fault Refusal :=
  predOp (encPset d a q l e) d [(sr a, l)] e q (fun g _ => g.sreg a.toNat != 0)

/-- R163. -/
def execPfirst (d a : PReg) (q : BitVec 3) : State → Host.Outcome State Fault Refusal :=
  predOp (encPfirst d a q) d [] false q (fun g l => g.firstLane q a == some l)

/-- R205. -/
def execVlread (d a b : BitVec 5) (q : BitVec 3) (l m e : Bool) : State → Host.Outcome State Fault Refusal :=
  laneMove (encVlread d a b q l m e) d [(vr a, l), (vr b, m)] e q (fun g i => g.cross a.toNat (bits (g.vreg b.toNat i) 9 0))

/-- R205. -/
def execVshlx (d a b : BitVec 5) (q : BitVec 3) (l m e : Bool) : State → Host.Outcome State Fault Refusal :=
  laneMove (encVshlx d a b q l m e) d [(vr a, l), (sr b, m)] e q (fun g i =>
    let k := (g.sreg b.toNat).toNat
    if 31 < i % 32 + k then 0 else g.cross a.toNat (i + k))

/-- R205. -/
def execVshrx (d a b : BitVec 5) (q : BitVec 3) (l m e : Bool) : State → Host.Outcome State Fault Refusal :=
  laneMove (encVshrx d a b q l m e) d [(vr a, l), (sr b, m)] e q (fun g i =>
    let k := (g.sreg b.toNat).toNat
    if i % 32 < k then 0 else g.cross a.toNat (i - k))

/-- R205. -/
def execVshly (d a b : BitVec 5) (q : BitVec 3) (l m e : Bool) : State → Host.Outcome State Fault Refusal :=
  laneMove (encVshly d a b q l m e) d [(vr a, l), (sr b, m)] e q (fun g i => g.cross a.toNat (i + 32 * (g.sreg b.toNat).toNat))

/-- R205. -/
def execVshry (d a b : BitVec 5) (q : BitVec 3) (l m e : Bool) : State → Host.Outcome State Fault Refusal :=
  laneMove (encVshry d a b q l m e) d [(vr a, l), (sr b, m)] e q (fun g i =>
    let k := (g.sreg b.toNat).toNat
    if i / 32 < k then 0 else g.cross a.toNat (i - 32 * k))

/-- R205. -/
def execVsubsel (d a b : BitVec 5) (q : BitVec 3) (l m e : Bool) : State → Host.Outcome State Fault Refusal :=
  laneMove (encVsubsel d a b q l m e) d [(vr a, l), (vr b, m)] e q (fun g i => subSel (g.vreg a.toNat i) (g.vreg b.toNat i))

/-- R205. -/
def execVrotx (d a b : BitVec 5) (q : BitVec 3) (l m e : Bool) : State → Host.Outcome State Fault Refusal :=
  laneMove (encVrotx d a b q l m e) d [(vr a, l), (sr b, m)] e q (fun g i => g.cross a.toNat (i / 32 * 32 + (i + (g.sreg b.toNat).toNat) % 32))

/-- R206. -/
def execVmatch (d a : BitVec 5) (k : KeyTy) (q : BitVec 3) (l e : Bool) : State → Host.Outcome State Fault Refusal :=
  laneMove (encVmatch d a k q l e) d [(vr a, l)] e q (fun g i => rowMask (i / 32) (fun j =>
    bit (g.eff q.toNat) j && keysMatch k (g.vreg a.toNat i) (g.vreg a.toNat j)))

/-- R207. -/
def execVballot (d : BitVec 5) (a : PReg) (q : BitVec 3) : State → Host.Outcome State Fault Refusal :=
  laneMove (encVballot d a q) d [] false q (fun g i => rowMask (i / 32) (fun j => bit (g.eff q.toNat) j && g.pbit a j))

/-- R208. -/
def execVredaddI64 (d a : BitVec 5) (q : BitVec 3) (l e : Bool) : State → Host.Outcome State Fault Refusal :=
  reduceOp (encVredaddI64 d a q l e) d a l e q false (fun g => (reduceTree (6 * g.id.foot) (fun _ _ u v => (u + v) % 2 ^ 64) (g.masked q a 64 0) 0, fxNone))

/-- R208. -/
def execVredaddF32 (d a : BitVec 5) (q : BitVec 3) (l e : Bool) : State → Host.Outcome State Fault Refusal :=
  reduceOp (encVredaddF32 d a q l e) d a l e q true (fun g => g.treeSum q a)

/-- R208. -/
def execVredminI64 (d a : BitVec 5) (q : BitVec 3) (l e : Bool) : State → Host.Outcome State Fault Refusal :=
  reduceOp (encVredminI64 d a q l e) d a l e q false (fun g => g.foldMask q a 64 (fun x y => (minI 64 x y, fxNone)))

/-- R208. -/
def execVredmaxI64 (d a : BitVec 5) (q : BitVec 3) (l e : Bool) : State → Host.Outcome State Fault Refusal :=
  reduceOp (encVredmaxI64 d a q l e) d a l e q false (fun g => g.foldMask q a 64 (fun x y => (maxI 64 x y, fxNone)))

/-- R208. -/
def execVredminF32 (d a : BitVec 5) (q : BitVec 3) (l e : Bool) : State → Host.Outcome State Fault Refusal :=
  reduceOp (encVredminF32 d a q l e) d a l e q false (fun g => g.treeF32 q a Fmt.f32.min)

/-- R208. -/
def execVredmaxF32 (d a : BitVec 5) (q : BitVec 3) (l e : Bool) : State → Host.Outcome State Fault Refusal :=
  reduceOp (encVredmaxF32 d a q l e) d a l e q false (fun g => g.treeF32 q a Fmt.f32.max)

/-- R208. -/
def execVscanaddI64 (d a : BitVec 5) (q : BitVec 3) (l e : Bool) : State → Host.Outcome State Fault Refusal :=
  scanOp (encVscanaddI64 d a q l e) d a l e q 64 false (fun _ _ s v => ((s + v) % 2 ^ 64, fxNone))

/-- R208: the addition of lane l draws with element number 8l. -/
def execVscanaddF32 (d a : BitVec 5) (q : BitVec 3) (l e : Bool) : State → Host.Outcome State Fault Refusal :=
  scanOp (encVscanaddF32 d a q l e) d a l e q 32 true (fun g i s v => Fmt.f32.add g.modeRnd (g.draw (8 * i)) s v)

/-- R208. -/
def execVscanmaxI64 (d a : BitVec 5) (q : BitVec 3) (l e : Bool) : State → Host.Outcome State Fault Refusal :=
  scanOp (encVscanmaxI64 d a q l e) d a l e q 64 false (fun _ _ s v => (maxI 64 s v, fxNone))

/-- R207. -/
def execVpcount (d : BitVec 5) (a : PReg) (q : BitVec 3) : State → Host.Outcome State Fault Refusal :=
  issue (encVpcount d a q) (fun g => needL g [] [sr d] false q.toNat) noGate
    (onGroup (fun g g' => g'.setS d.toNat (BitVec.ofNat 64 (lanesOf g.lanes (g.eff q.toNat &&& g.pred a.toNat)).length)))

/-- R209. -/
def execVmov (d a : BitVec 5) (q : BitVec 3) (l e : Bool) : State → Host.Outcome State Fault Refusal :=
  laneMove (encVmov d a q l e) d [(vr a, l)] e q (fun g i => g.vreg a.toNat i)

/-- R209: A names a scalar. -/
def execVbcast (d a : BitVec 5) (q : BitVec 3) (l e : Bool) : State → Host.Outcome State Fault Refusal :=
  laneMove (encVbcast d a q l e) d [(sr a, l)] e q (fun g _ => g.sreg a.toNat)

/-- R209: D and B name scalars. -/
def execVextr (d a b : BitVec 5) (l m e : Bool) : State → Host.Outcome State Fault Refusal :=
  issue (encVextr d a b l m e) (fun g => needS g [(vr a, l), (sr b, m)] (some (sr d)) false e) noGate
    (onGroup (fun g g' => g'.setS d.toNat (g.cross a.toNat (g.sreg b.toNat).toNat)))

/-- R209. -/
def execVmovi (d : BitVec 5) (q : BitVec 3) (i : BitVec 8) : State → Host.Outcome State Fault Refusal :=
  laneMove (encVmovi d q i) d [] false q (fun _ _ => sext64 8 i.toNat)

end Sys2Proof.Machine
end

