-- ==== Sys2Proof/Machine/Special.lean ====
section
/-!
DEFINITION. The functions of the special-function unit (spec/09 R200), computed to far more places than f32 holds, so that
the two f32 values that bracket a value can be told.  Numbers are fixed-point integers with 512 fractional bits.
-/

namespace Sys2Proof.Machine.Special

/-- 1, pi, the natural logarithm of 2, and 2 over the square root of pi, with 512 fractional bits. -/
def one : Int := 2 ^ 512
def piFx : Int := 0x3243f6a8885a308d313198a2e03707344a4093822299f31d0082efa98ec4e6c89452821e638d01377be5466cf34e90c6cc0ac29b7c97c50dd3f84d5b5b5470917
def ln2Fx : Int := 0xb17217f7d1cf79abc9e3b39803f2f6af40f343267298b62d8a0d175b8baafa2be7b876206debac98559552fb4afa1b10ed2eae35c138214427573b291169b825
def erfScale : Int := 0x120dd750429b6d11ae3a914fed7fd8688281341d7587cea2e7342b06199cc416180eb39f0b24e1e2281806c12d98f35d77a3e9ddc91c394f0e9eedf0efffd84a2

def fmul (a b : Int) : Int := a * b / one
def fdiv (a b : Int) : Int := a * one / b

/-- `m * 2^e` in fixed point. -/
def toFx (neg : Bool) (m : Nat) (e : Int) : Int :=
  let k := e + 512
  let v : Int := if 0 ≤ k then m * 2 ^ k.toNat else m / 2 ^ (-k).toNat
  if neg then -v else v

/-- A number from fixed point, scaled by a power of two; it is never exact. -/
def ofFx (v e : Int) : Num := .fin (v < 0) v.natAbs (e - 512) true

/-! ### Series -/

/-- `1 + r (1 + r/2 (1 + r/3 (...)))`. -/
def expTerms (r : Int) : Nat → Int → Int
  | 0, h => h
  | k + 1, h => expTerms r k (one + fmul r h / (k + 1))

/-- `e^r` for `r` below 1 in magnitude. -/
def expSmall (r : Int) : Int := expTerms r 100 one

/-- `1 + q/3 + q^2/5 + ...`. -/
def atanhTerms (q : Int) : Nat → Int → Int
  | 0, h => h
  | k + 1, h => atanhTerms q k (one / (2 * k + 1) + fmul q h)

/-- The natural logarithm of a number from 1 to 2. -/
def lnSmall (m : Int) : Int :=
  let z := fdiv (m - one) (m + one)
  2 * fmul z (atanhTerms (fmul z z) 170 0)

/-- `1 - q/(2 3) + q^2/(2 3 4 5) - ...`, the quotient of the sine by its argument. -/
def sinTerms (q : Int) : Nat → Int → Int
  | 0, h => h
  | k + 1, h => sinTerms q k (one - fmul q h / ((2 * k + 2) * (2 * k + 3)))
def sinc (r : Int) : Int := sinTerms (fmul r r) 60 one

def cosTerms (q : Int) : Nat → Int → Int
  | 0, h => h
  | k + 1, h => cosTerms q k (one - fmul q h / ((2 * k + 1) * (2 * k + 2)))
def cosSmall (r : Int) : Int := cosTerms (fmul r r) 60 one

/-- `1 - q/3 + q^2/(2! 5) - q^3/(3! 7) + ...`. -/
def erfTerms (q : Int) : Nat → Int → Int
  | 0, h => h
  | k + 1, h => erfTerms q k (one / (2 * k + 1) - fmul q h / (k + 1))

/-! ### The functions, for arguments that are finite and not zero -/

/-- `e^x` as a fixed-point number and a power of two. -/
def expPair (x : Int) : Int × Int :=
  let n := x / ln2Fx
  (expSmall (x - n * ln2Fx), n)

/-- Numbers just below 1, and below every f32 value but 0. -/
def justBelowOne (neg : Bool) : Num := .fin neg (2 ^ 64 - 1) (-64) true
def tiny : Num := .fin false 1 (-300) true

/-- Whether a magnitude is at least `2^k`. -/
def atLeast (m : Nat) (e k : Int) : Bool := k ≤ ilog m e

def exp2 (neg : Bool) (m : Nat) (e : Int) : Num :=
  if atLeast m e 8 then (if neg then tiny else .fin false 1 300 true)
  else
    let x := toFx neg m e
    let n := x / one
    let f := x - n * one
    if f = 0 then .fin false 1 n false else ofFx (expSmall (fmul f ln2Fx)) n

def log2 (m : Nat) (e : Int) : Num :=
  let k := Nat.log2 m
  let l := fdiv (lnSmall (toFx false m (-(k : Int)))) ln2Fx
  if l = 0 then Num.ofInt (e + k) else ofFx (l + (e + k) * one) 0

/-- Sine or cosine: the argument is taken to within a quarter turn of a multiple of half a pi. -/
def sin (neg : Bool) (m : Nat) (e : Int) : Num :=
  if !atLeast m e (-1) then .fin neg (m * (sinc (toFx false m e)).toNat) (e - 512) true
  else
    let x := toFx neg m e
    let h := piFx / 2
    let k := (2 * x + h) / (2 * h)
    let r := x - k * piFx / 2
    let s := fmul r (sinc r)
    let c := cosSmall r
    ofFx (match (k % 4).toNat with
      | 0 => s
      | 1 => c
      | 2 => -s
      | _ => -c) 0

def cos (neg : Bool) (m : Nat) (e : Int) : Num :=
  let x := toFx neg m e
  let h := piFx / 2
  let k := (2 * x + h) / (2 * h)
  let r := x - k * piFx / 2
  let s := fmul r (sinc r)
  let c := cosSmall r
  ofFx (match (k % 4).toNat with
    | 0 => c
    | 1 => -s
    | 2 => -c
    | _ => s) 0

def tanh (neg : Bool) (m : Nat) (e : Int) : Num :=
  if atLeast m e 4 then justBelowOne neg
  else
    let p := expPair (2 * toFx false m e)
    let t := p.1 * 2 ^ p.2.toNat
    let v := fdiv (t - one) (t + one)
    ofFx (if neg then -v else v) 0

def sigm (neg : Bool) (m : Nat) (e : Int) : Num :=
  if atLeast m e 8 then (if neg then tiny else justBelowOne false)
  else
    let p := expPair (toFx true m e)
    let t := p.1 / 2 ^ (-p.2).toNat
    ofFx (if neg then fdiv t (one + t) else fdiv one (one + t)) 0

def erf (neg : Bool) (m : Nat) (e : Int) : Num :=
  if atLeast m e 3 then justBelowOne neg
  else
    let x := toFx false m e
    .fin neg (m * (fmul erfScale (erfTerms (fmul x x) 400 0)).toNat) (e - 512) true

end Sys2Proof.Machine.Special
end

