-- ==== Sys2Proof/Machine/Convert.lean ====
section
/-!
DEFINITION. Conversions, packing with block scale and companding, and the special-function unit: majors 0x1C to 0x1E
(spec/08 R176 to R179, spec/09 R196 to R201).
-/

namespace Sys2Proof.Machine

/-! ### What a group sees of a byte (spec/15 R315) -/

/-- The value of the group's youngest store to a byte that is still in its store buffer. -/
def Group.forwarded (g : Group) (pa : Nat) : Option Byte :=
  g.accs.foldl (fun o a => if a.isStore then
    a.parts.foldl (fun o p => if !p.done && p.pa ≤ pa && pa < p.pa + p.n then some (BitVec.ofNat 8 (p.val / 2 ^ (8 * (pa - p.pa)))) else o) o
    else o) none

def groupByte (s : State) (g : Group) (pa : Nat) : Byte := (g.forwarded pa).getD (coreByte s g.id.core pa)

/-! ### Companding (R178, R179) -/

structure CEntry where
  b : Num
  o : Num
  e : Int
  deriving DecidableEq, Repr

/-- The table: entries, whether every one is usable. -/
structure CTable where
  entries : List CEntry
  ok : Bool
  deriving DecidableEq, Repr

/-- An entry from its two dwords. -/
def centry (lo hi : Nat) : CEntry :=
  ⟨Fmt.f32.decode (lo % 2 ^ 32), Fmt.f32.decode (lo / 2 ^ 32), sval 8 hi⟩

/-- Finite, not negative; the exponent from -24 to 24.  DEDUCED (log entry 79): −0 is not negative, as a number. -/
def CEntry.ok (c : CEntry) : Bool :=
  let fine := fun (x : Num) => match x with
    | .fin neg m _ _ => !neg || m == 0
    | _ => false
  fine c.b && fine c.o && -24 ≤ c.e && c.e ≤ 24

def ctableOf (dws : List Nat) : CTable :=
  let es := (List.range 16).map (fun k => centry (dws.getD (2 * k) 0) (dws.getD (2 * k + 1) 0))
  ⟨es, es.all CEntry.ok⟩

/-- Reserved bits of the table are zero. -/
def ctableClean (dws : List Nat) : Bool := (List.range 16).all (fun k => dws.getD (2 * k + 1) 0 / 2 ^ 8 == 0)

/-- The largest `k` whose breakpoint is at most `t`, or 0. -/
def segment (key : CEntry → Num) (t : CTable) (x : Num) : CEntry :=
  let below := t.entries.filter (fun c => (key c).le x)
  below.getLastD (t.entries.headD ⟨.zero false, .zero false, 0⟩)

/-- `sign(x) * (p + (t - q) * 2^e)`, exact. -/
def bend (x p t q : Num) (e : Int) : Num :=
  let d := (Num.add .rne t q.neg).1
  let d := match d with
    | .fin n m k b => Num.fin n m (k + e) b
    | y => y
  let v := (Num.add .rne p d).1
  if v.isZero then .zero x.isNeg else if x.isNeg then v.neg else v

/-- `c(x)`: NaN and invalid where the table is not usable (R178, R179). -/
def CTable.comp (t : CTable) (x : Num) : Num × Fx :=
  if !t.ok then (.nan, fxInvalid)
  else match x with
    | .fin _ _ _ _ =>
      let c := segment CEntry.b t x.abs
      (bend x c.o x.abs c.b c.e, fxNone)
    | x => (x, fxNone)

/-- `cinv(y)` as an f32 code. -/
def CTable.inv (t : CTable) (y : Num) : Nat × Fx :=
  if !t.ok then (Fmt.f32.nanCode, fxInvalid)
  else match y with
    | .nan => (Fmt.f32.nanCode, fxNone)
    | .inf n => (Fmt.f32.signed n 0x7F800000, fxNone)
    | y =>
      let c := segment CEntry.o t y.abs
      Fmt.f32.round (bend y c.b y.abs c.o (-c.e)) .rne 0 false

/-- The address of the companding table: bits 56:8 of COMPAND. -/
def Group.ctableVa (g : Group) : Nat := bits g.sys.compand 56 8 * 256

/-- What a table read comes to: the dwords, a trap of the instruction, or a wait. -/
inductive TableRead where
  | dwords (l : List Nat)
  | trap (t : Trap)
  | wait (b : Block)

/-- What holds the read of the bytes at `pa` back, as it holds a plain load of the group (spec/15 R314, R317, R320): an acquire, an
earlier access to those bytes that is not forwarded, and on an SO page every earlier SO access. -/
def Group.tableHeld (g : Group) (pa : Nat) (so : Bool) : Option Block :=
  let on := fun (p : Access → Part → Bool) => g.accs.any (fun a => a.parts.any (fun q => !q.done && p a q))
  if g.acquirePending then some .acquire
  else if on (fun a q => q.pa < pa + 256 && pa < q.pa + q.n && (!a.isStore || a.vol || so)) || (so && on (fun _ q => q.kind == .so)) then
    some .earlier
  else none

/-- Whether a byte of the table would come from its home. -/
def State.tableHome (s : State) (g : Group) (a : Nat) : Bool :=
  (g.forwarded a).isNone && (Tab.get (s.core g.id.core).view.diff a).isNone && (Tab.get (s.die (dieOf g.id.core)).view.diff a).isNone

/-- The read of the companding table, a plain load at team scope (R178): the 32 dwords as the group sees them, those of an SO page
at the home.  Its bytes are refreshed on the group's path, so that each entry is read as its old or its new 16 bytes.  DESIGN CHOICE
(log entry 79): that, and the precise fault of the read is code 16, with the table's address and the cause, 5
where the table's data are poisoned. -/
def ctableRead (s : State) (g : Group) : TableRead :=
  let va := g.ctableVa
  match xlat s g.id.core g.id.asid va .read (!g.id.supv) with
  | .error c => .trap { code := 16, info0 := BitVec.ofNat 64 va, info1 := BitVec.ofNat 64 c }
  | .ok p =>
    let so := p.kind == .so
    match g.tableHeld p.pa so with
    | some b => .wait b
    | none =>
      if !(s.badLines g.id.core p.pa 256).isEmpty then .wait .rebuild
      else
      let s := refreshBytes s g.id.core p.pa 256
      let poisoned := match poisonAt s p.pa 256 with
        | some .data => so || (List.range 256).any (fun i => s.tableHome g (p.pa + i) && (poisonAt s (p.pa + i) 1).isSome)
        | some _ => true
        | none => false
      if poisoned then .trap { code := 16, info0 := BitVec.ofNat 64 va, info1 := 5 }
      else
        let ds := (List.range 32).map (fun i => readLe (if so then homeByte s else groupByte s g) (p.pa + 8 * i) 8)
        if ctableClean ds then .dwords ds else .trap { code := 1 }

/-- The rebuilds that the table's read waits for are requested (spec/23 R410). -/
def tableMend (s : State) (g : Group) : State :=
  match xlat s g.id.core g.id.asid g.ctableVa .read (!g.id.supv) with
  | .ok p => mendLines s g.id.core p.pa 256
  | .error _ => s

def tableGate (x : Bool) (_ : Nat) (g : Group) (s : State) : Gate :=
  if !x then .pass
  else match ctableRead s g with
    | .dwords _ => .pass
    | .trap t => .trap t
    | .wait b => .wait b (if b = .rebuild then tableMend s g else s)

/-- The dwords of the table that an instruction with companding uses. -/
def tableDws (x : Bool) (s : State) (g : Group) : Option (List Nat) :=
  if !x then none
  else match ctableRead s g with
    | .dwords ds => some ds
    | _ => none

/-- The table an instruction with companding uses. -/
def tableOf (x : Bool) (s : State) (g : Group) : Option CTable := (tableDws x s g).map ctableOf

/-- What the table read leaves: its translation is kept, and what it returned has been seen; on an SO
page it acquires (spec/15 R317). -/
def tableDone (x : Bool) (s : State) (k : Nat) (g : Group) : State :=
  if !x then s
  else match xlat s g.id.core g.id.asid g.ctableVa .read (!g.id.supv) with
    | .error _ => s
    | .ok p =>
      let c := g.id.core
      let s := refreshBytes (noteXlat s c g.id.asid g.ctableVa) c p.pa 256
      if p.kind = .so then acquireViews s k (soScope p.pa) else notePath k c p.pa 256 true s

def compand (t : Option CTable) (x : Num) : Num × Fx :=
  match t with
  | some t => t.comp x
  | none => (x, fxNone)

/-! ### Block-scaled e2m1 (R176, R177) -/

/-- A number times a power of two. -/
def Num.scale (x : Num) (k : Int) : Num :=
  match x with
  | .fin n m e b => .fin n m (e + k) b
  | y => y

/-- `decode(code, X, V)`. -/
def blockDecode (code x v : Nat) : Num :=
  if x == 0xFF then .nan
  else (if code == 8 then Fmt.e4m3.decode v else Fmt.e2m1.decode code).scale ((x : Int) - 127)

/-- The magnitudes a number of one sign may round to, rising, with their codes: the ordinary values, and the special value
where it differs from them all and has that sign. -/
def blockCands (neg : Bool) (v : Num) : List (Num × Nat) :=
  let ord := (List.range 8).map (fun c => (Fmt.e2m1.decode c, if neg && c != 0 then c + 8 else c))
  if v.isNan || v.isNeg != neg || ord.any (fun o => o.1.eq v.abs) then ord
  else (ord.filter (fun o => o.1.lt v.abs)) ++ [(v.abs, 8)] ++ (ord.filter (fun o => v.abs.lt o.1))

/-- Neighbours of a magnitude among rising candidates: the last that is not above it (the first is zero), and the next. -/
def neighbours (y : Num) : List (Num × Nat) → Option ((Num × Nat) × Option (Num × Nat))
  | [] => none
  | a :: t =>
    match neighbours y t with
    | some r => if (r.1.1).le y then some r else some (a, some r.1)
    | none => some (a, none)

/-- Whether a magnitude between two candidates rounds to the upper one. -/
def fracUp (m : Rnd) (neg : Bool) (y lo hi : Num) (tieUp : Bool) (r : Nat) : Bool :=
  match y, lo, hi with
  | .fin _ a e _, .fin _ b f _, .fin _ c k _ =>
    let q := min e (min f k)
    let num := Num.units false a e q - Num.units false b f q
    let den := Num.units false c k q - Num.units false b f q
    match m with
    | .rne => den < 2 * num || (den == 2 * num && tieUp)
    | .rz => false
    | .ru => !neg
    | .rd => neg
    | .rs => (r : Int) < num * 65536 / den
  | _, _, _ => false

/-- `round-over-C(y, rm)`: the code and the flags. -/
def roundOver (y v : Num) (m : Rnd) (r : Nat) : Nat × Fx :=
  if y.isZero then (0, fxNone)
  else
    let neg := y.isNeg
    match neighbours y.abs (blockCands neg v) with
    | none => (0, fxNone)
    | some (lo, none) => (lo.2, if lo.1.eq y.abs then fxNone else fxInexact)
    | some (lo, some hi) =>
      if lo.1.eq y.abs then (lo.2, fxNone)
      else
        let c := if fracUp m neg y.abs lo.1 hi.1 (lo.2 % 2 == 1 && hi.2 % 2 == 0) r then hi.2 else lo.2
        (c, fxInexact ||| (if c == 0 then fxUnderflow else fxNone))

/-- An encoded block: codes, X, V, flags. -/
structure Block16 where
  codes : List Nat
  x : Nat
  v : Nat
  fx : Fx
  deriving DecidableEq, Repr

def maxAbs : List Num → Num
  | [] => .zero false
  | a :: t => if (maxAbs t).lt a.abs then a.abs else maxAbs t

/-- `encode(x, rm)` of R177; `dc n` and `dv n` are the draws for the code and for V of element `n`. -/
def blockEncode (xs : List Num) (m : Rnd) (dc dv : Nat → Nat) : Block16 :=
  let zeros := xs.map (fun _ => 0)
  if xs.any Num.isNan then ⟨zeros, 0xFF, 0, fxInvalid⟩
  else
    let amax := maxAbs xs
    if amax.isZero then ⟨zeros, 127, 0, fxNone⟩
    else
      let x : Nat := match amax with
        | .fin _ k e _ => (max 0 (min 254 (ilog k e + 125))).toNat
        | _ => 254
      let ys := xs.map (fun a => a.scale (127 - (x : Int)))
      let p := (xs.findIdx? (fun a => a.abs.eq amax)).getD 0
      let yp := ys.getD p (.zero false)
      let v := Fmt.e4m3.round yp m (dv p) true
      let cs := (List.range ys.length).map (fun n => roundOver (ys.getD n (.zero false)) (Fmt.e4m3.decode v.1) m (dc n))
      ⟨cs.map (·.1), x, v.1,
        cs.foldl (fun a c => a ||| c.2) (if (Fmt.e4m3.decode v.1).eq yp then fxNone else fxInexact)⟩

/-! ### vqpack and vqunpack (R197, R198) -/

def packBlockOf : PackForm → Option Nat
  | .b16 => some 16
  | .b32 => some 32
  | _ => none

def packFmt : PackForm → Fmt
  | .e5m2 => .e5m2
  | _ => .e4m3

def satCvt (g : Group) : Bool := flag g.sys.mode 9

/-- Forms 2 and 3: f32 elements 0 and 1 into bytes 0 and 1. -/
def packBytes (f : Fmt) (t : Option CTable) (a : BitVec 5) (g : Group) (m : Rnd) (l : Nat) : Word × Fx :=
  packF 8 2 (fun e =>
    let c := compand t (Fmt.f32.decode (elem 32 (g.vreg a.toNat l) e))
    let y := f.round c.1 m (g.draw (8 * l + e)) (satCvt g)
    (y.1, y.2 ||| c.2))

/-- The block of `b` lanes that begins at lane `l0`, encoded. -/
def packBlock (b : Nat) (t : Option CTable) (a : BitVec 5) (q : BitVec 3) (g : Group) (m : Rnd) (l0 : Nat) : Block16 :=
  let cs := (List.range b).map (fun j =>
    compand t (if bit (g.eff q.toNat) (l0 + j) then Fmt.f32.decode (elem 32 (g.vreg a.toNat (l0 + j)) 0) else .zero false))
  let k := blockEncode (cs.map (·.1)) m (fun n => g.draw (8 * (l0 + n))) (fun n => g.draw (8 * (l0 + n) + 1))
  { k with fx := cs.foldl (fun f c => f ||| c.2) k.fx }

/-- What lane `l` of a block of `b` receives. -/
def packLane (b : Nat) (k : Block16) (l : Nat) : Word :=
  let m := l % b
  if m < b / 16 then BitVec.ofNat 64 (packN 4 (fun i => k.codes.getD (16 * m + i) 0) 16)
  else if m == b / 16 then BitVec.ofNat 64 (k.x + 256 * k.v)
  else 0

/-- The first lane of the block of `b` lanes that holds lane `l`. -/
def blockStart (b l : Nat) : Nat := l / b * b

def packForm (p : PackForm) (t : Option CTable) (a : BitVec 5) (q : BitVec 3) (g : Group) (m : Rnd) (l : Nat) : Word × Fx :=
  match packBlockOf p with
  | some b =>
    let k := packBlock b t a q g m (blockStart b l)
    (packLane b k l, k.fx)
  | none => packBytes (packFmt p) t a g m l

/-- One decoded value to f32 (R198). -/
def unpackOut (t : Option CTable) (x : Num) (m : Rnd) (r : Nat) : Nat × Fx :=
  match t, x with
  | some t, x => t.inv x
  | none, .nan => (Fmt.f32.nanCode, fxNone)
  | none, x => Fmt.f32.round x m r false

def unpackForm (p : PackForm) (t : Option CTable) (a : BitVec 5) (g : Group) (m : Rnd) (l : Nat) : Word × Fx :=
  match packBlockOf p with
  | some b =>
    let l0 := blockStart b l
    let j := l - l0
    let code := elem 4 (g.cross a.toNat (l0 + j / 16)) (j % 16)
    let xv := (g.cross a.toNat (l0 + b / 16)).toNat
    let y := unpackOut t (blockDecode code (xv % 256) (xv / 256 % 256)) m (g.draw (8 * l))
    (BitVec.ofNat 64 y.1, y.2)
  | none => packF 32 2 (fun e => unpackOut t ((packFmt p).decode (elem 8 (g.vreg a.toNat l) e)) m (g.draw (8 * l + e)))

/-! ### vcvt (R196) -/

/-- Width, and the format or the signedness. -/
def NumTy.info : NumTy → Nat × Sum Bool Fmt
  | .i8 => (8, .inl true)
  | .n8 => (8, .inl false)
  | .i16 => (16, .inl true)
  | .n16 => (16, .inl false)
  | .i32 => (32, .inl true)
  | .n32 => (32, .inl false)
  | .i64 => (64, .inl true)
  | .n64 => (64, .inl false)
  | .f32 => (32, .inr .f32)
  | .bf16 => (16, .inr .bf16)
  | .f16 => (16, .inr .f16)
  | .e4m3 => (8, .inr .e4m3)
  | .e5m2 => (8, .inr .e5m2)
  | .e2m1 => (4, .inr .e2m1)

def NumTy.isInt (t : NumTy) : Bool :=
  match (NumTy.info t).2 with
  | .inl _ => true
  | .inr _ => false

/-- The exact value of a source element. -/
def NumTy.value (t : NumTy) (v : Nat) : Num :=
  match (NumTy.info t).2 with
  | .inl sg => Num.ofInt (ival sg (NumTy.info t).1 v)
  | .inr f => f.decode v

/-- One element converted. -/
def cvtElem (d s : NumTy) (sat : Bool) (m : Rnd) (r v : Nat) : Nat × Fx :=
  let wd := (NumTy.info d).1
  match (NumTy.info d).2, (NumTy.info s).2 with
  | .inl sd, .inl ss =>
    let i := ival ss (NumTy.info s).1 v
    let lo : Int := if sd then -(2 ^ (wd - 1)) else 0
    let hi : Int := if sd then 2 ^ (wd - 1) - 1 else 2 ^ wd - 1
    if lo ≤ i ∧ i ≤ hi then (wrap wd i, fxNone)
    else if sat then (wrap wd (if i < lo then lo else hi), fxInvalid)
    else (wrap wd i, fxNone)
  | .inl sd, .inr f => roundInt wd sd (f.decode v) m r
  | .inr f, _ => f.round (NumTy.value s v) m r sat

/-- The elements of a lane converted. -/
def cvtLane (d s : NumTy) (x : Bool) (a : BitVec 5) (g : Group) (m : Rnd) (l : Nat) : Word × Fx :=
  let ws := (NumTy.info s).1
  let wd := (NumTy.info d).1
  packF wd (64 / max ws wd) (fun e => cvtElem d s (x || satCvt g) m (g.draw (8 * l + e)) (elem ws (g.vreg a.toNat l) e))

/-! ### The special-function unit (R200, R201) -/

inductive SfuFn where | rcp | rsqrt | sqrt | exp2 | log2 | sin | cos | tanh | sigm | erf
  deriving DecidableEq, Repr

def SfuFn.code : SfuFn → Nat
  | .rcp => 0
  | .rsqrt => 1
  | .sqrt => 2
  | .exp2 => 3
  | .log2 => 4
  | .sin => 5
  | .cos => 6
  | .tanh => 7
  | .sigm => 8
  | .erf => 9

def oneF32 (neg : Bool) : Nat := Fmt.f32.signed neg 0x3F800000
def infF32 (neg : Bool) : Nat := Fmt.f32.signed neg 0x7F800000

/-- The special arguments of R200's table. -/
def sfuSpecial (fn : SfuFn) (x : Num) : Option (Nat × Fx) :=
  let nanInv := some (Fmt.f32.nanCode, fxInvalid)
  match fn, x with
  | _, .nan => some (Fmt.f32.nanCode, fxNone)
  | .rcp, .inf n => some (Fmt.f32.signed n 0, fxNone)
  | .rsqrt, .inf n => if n then nanInv else some (0, fxNone)
  | .sqrt, .inf n => if n then nanInv else some (infF32 false, fxNone)
  | .exp2, .inf n => some (if n then 0 else infF32 false, fxNone)
  | .log2, .inf n => if n then nanInv else some (infF32 false, fxNone)
  | .sin, .inf _ => nanInv
  | .cos, .inf _ => nanInv
  | .tanh, .inf n => some (oneF32 n, fxNone)
  | .erf, .inf n => some (oneF32 n, fxNone)
  | .sigm, .inf n => some (if n then 0 else oneF32 false, fxNone)
  | f, .fin n m e _ =>
    if m == 0 then
      match f with
      | .rcp | .rsqrt => some (infF32 n, fxDivZero)
      | .sqrt | .sin | .tanh | .erf => some (Fmt.f32.signed n 0, fxNone)
      | .exp2 | .cos => some (oneF32 false, fxNone)
      | .log2 => some (infF32 true, fxDivZero)
      | .sigm => some (0x3F000000, fxNone)
    else
      match f with
      | .rsqrt | .sqrt | .log2 => if n then nanInv else if f == .log2 && (Num.eq (.fin n m e false) (.fin false 1 0 false)) then some (0, fxNone) else none
      | _ => none

/-- `1 / sqrt(m * 2^e)`, cut off far below the last place of f32. -/
def rsqrtNum (m : Nat) (e : Int) : Num :=
  let odd := (e % 2).toNat
  let mm := m * 2 ^ odd
  let k := 128 + Nat.log2 mm
  let n := 2 ^ (2 * k) / mm
  let r := isqrt n
  .fin false r (-(k : Int) - (e - odd) / 2) (r * r * mm != 2 ^ (2 * k))

/-- One of the two f32 values that bracket `y`, or `y` itself where it is one; the flags of R200. -/
def bracket (up : Bool) (y : Num) : Nat × Fx :=
  let z := Fmt.f32.round y .rz 0 false
  if z.2 &&& fxInexact == 0 then (z.1, fxNone)
  else if z.1 % 2 ^ 31 == Fmt.f32.maxCode then (infF32 y.isNeg, fxOverflow ||| fxInexact)
  else
    let c := if up then z.1 + 1 else z.1
    (c, fxInexact ||| (if c % 2 ^ 31 < 0x00800000 then fxUnderflow else fxNone))

/-- The value of a function, cut off far below the last place of f32, where it is not special. -/
def sfuExact (fn : SfuFn) (x : Num) : Num :=
  match x with
  | .fin n m e _ =>
    (match fn with
    | .rcp => (Num.div (.fin false 1 0 false) x).1
    | .rsqrt => rsqrtNum m e
    | .sqrt => (Num.sqrt x).1
    | .exp2 => Special.exp2 n m e
    | .log2 => Special.log2 m e
    | .sin => Special.sin n m e
    | .cos => Special.cos n m e
    | .tanh => Special.tanh n m e
    | .sigm => Special.sigm n m e
    | .erf => Special.erf n m e)
  | y => y

/-- The result for one element: `vsqrt` is rounded, the others are one of the two values that bracket them. -/
def sfuElem (fn : SfuFn) (a : Nat) : Nat × Fx :=
  let x := Fmt.f32.decode a
  let sg := Fmt.f32.sig [a]
  let r := match sfuSpecial fn x with
    | some y => y
    | none =>
      let key := BitVec.ofNat 32 a
      match fn, x with
      | .sqrt, x => Fmt.f32.finish (Num.sqrt x) .rne 0
      | fn, x => bracket (Config.sfuUp fn.code key) (sfuExact fn x)
  (r.1, r.2 ||| sg)

def sfuGate (_ : Nat) (g : Group) (s : State) : Gate :=
  if s.limited g.id.core .sfu then .wait (.queue .sfu) s else .pass

/-- A special-function instruction enters the queue; its destination is empty until its results retire (R201). -/
def sfuOp (fn : SfuFn) (w : W32) (d a : BitVec 5) (q : BitVec 3) (l e : Bool) :=
  issue w (fun g => needV g [(vr a, l)] (vr d) false e q.toNat) sfuGate
    (fun k g s =>
      let m := g.eff q.toNat
      let r := fun i => packF 32 2 (fun j => sfuElem fn (elem 32 (g.vreg a.toNat i) j))
      let ent : SfuEnt := {
        group := k, dest := some d.toNat, vals := tabulate g.lanes (fun i => if bit m i then (r i).1 else 0), mask := m
        flags := orFlags g.lanes m (fun i => (r i).2), ord := g.ord }
      { s := (s.modGroup k (fun g' => { g'.await g (vr d) with ord := g'.ord + 1 })).modCore g.id.core (fun c => { c with sfu := c.sfu ++ [ent] }) })

/-- R196. -/
def execVcvt (t : NumTy) (d a : BitVec 5) (s : NumTy) (q : BitVec 3) (l : Bool) (r : Rm) (x : Bool) :
    State → Host.Outcome State Fault Refusal :=
  issue (encVcvt t d a s q l r x) (fun g => needV g [(vr a, l)] (vr d) false false q.toNat) noGate
    (onGroup (fun g g' =>
      let y := laneOut q.toNat d (fun g i => cvtLane t s x a g (g.rnd r) i) g g'
      if NumTy.isInt t && NumTy.isInt s then y else y.step (g.rnd r)))

/-- R197. -/
def execVqpack (r : Rm) (d a : BitVec 5) (p : PackForm) (q : BitVec 3) (l e x : Bool) :
    State → Host.Outcome State Fault Refusal :=
  issue (encVqpack r d a p q l e x) (fun g => needV g [(vr a, l)] (vr d) false e q.toNat) (tableGate x)
    (fun k g s => { s := (tableDone x s k g).modGroup k (fun g' =>
      (laneOut q.toNat d (fun g i => packForm p (tableOf x s g) a q g (g.rnd r) i) g g').step (g.rnd r)) })

/-- R198: with companding the one rounding is to nearest, and the generator does not step. -/
def execVqunpack (r : Rm) (d a : BitVec 5) (p : PackForm) (q : BitVec 3) (l e x : Bool) :
    State → Host.Outcome State Fault Refusal :=
  issue (encVqunpack r d a p q l e x) (fun g => needV g [(vr a, l)] (vr d) false e q.toNat) (tableGate x)
    (fun k g s => { s := (tableDone x s k g).modGroup k (fun g' =>
      let y := laneOut q.toNat d (fun g i => unpackForm p (tableOf x s g) a g (g.rnd r) i) g g'
      if x then y else y.step (g.rnd r)) })

/-- R199. -/
def execVqscale (r : Rm) (d a b : BitVec 5) (q : BitVec 3) (l m e : Bool) : State → Host.Outcome State Fault Refusal :=
  laneFlt (encVqscale r d a b q l m e) d [(vr a, l), (vr b, m)] false e q (fun g => g.rnd r) (fun g k i =>
    packF 32 2 (fun j =>
      let c := elem 32 (g.vreg a.toNat i) j
      let y := Fmt.f32.round ((Fmt.f32.decode c).scale (sval 8 (g.vreg b.toNat i).toNat)) k (g.draw (8 * i + j)) false
      (y.1, y.2 ||| Fmt.f32.sig [c])))

/-- R200. -/
def execVrcp (d a : BitVec 5) (q : BitVec 3) (l e : Bool) : State → Host.Outcome State Fault Refusal :=
  sfuOp .rcp (encVrcp d a q l e) d a q l e

/-- R200. -/
def execVrsqrt (d a : BitVec 5) (q : BitVec 3) (l e : Bool) : State → Host.Outcome State Fault Refusal :=
  sfuOp .rsqrt (encVrsqrt d a q l e) d a q l e

/-- R200. -/
def execVsqrtSfu (d a : BitVec 5) (q : BitVec 3) (l e : Bool) : State → Host.Outcome State Fault Refusal :=
  sfuOp .sqrt (encVsqrtSfu d a q l e) d a q l e

/-- R200. -/
def execVexp2 (d a : BitVec 5) (q : BitVec 3) (l e : Bool) : State → Host.Outcome State Fault Refusal :=
  sfuOp .exp2 (encVexp2 d a q l e) d a q l e

/-- R200. -/
def execVlog2 (d a : BitVec 5) (q : BitVec 3) (l e : Bool) : State → Host.Outcome State Fault Refusal :=
  sfuOp .log2 (encVlog2 d a q l e) d a q l e

/-- R200. -/
def execVsin (d a : BitVec 5) (q : BitVec 3) (l e : Bool) : State → Host.Outcome State Fault Refusal :=
  sfuOp .sin (encVsin d a q l e) d a q l e

/-- R200. -/
def execVcos (d a : BitVec 5) (q : BitVec 3) (l e : Bool) : State → Host.Outcome State Fault Refusal :=
  sfuOp .cos (encVcos d a q l e) d a q l e

/-- R200. -/
def execVtanh (d a : BitVec 5) (q : BitVec 3) (l e : Bool) : State → Host.Outcome State Fault Refusal :=
  sfuOp .tanh (encVtanh d a q l e) d a q l e

/-- R200. -/
def execVsigm (d a : BitVec 5) (q : BitVec 3) (l e : Bool) : State → Host.Outcome State Fault Refusal :=
  sfuOp .sigm (encVsigm d a q l e) d a q l e

/-- R200. -/
def execVerf (d a : BitVec 5) (q : BitVec 3) (l e : Bool) : State → Host.Outcome State Fault Refusal :=
  sfuOp .erf (encVerf d a q l e) d a q l e

end Sys2Proof.Machine
end

