-- ==== Sys2Proof/Machine/Plane.lean ====
section
/-!
DEFINITION. The plane: window access, rectangle instructions, scrolls and the linear view: majors 0x24 to 0x26 and 0x2D,
`pdrop`, and the events of the spindle (spec/10, spec/12 R253, spec/05 R118).
-/

namespace Sys2Proof.Machine

/-! ### What holds plane accesses back (R219, R111, spec/05 R110, spec/23 R409) -/

def xyz (p : Pos) : Word := rangeAddr p 0

/-- The lanes among pairs of a lane and a word. -/
def lanesAt (l : List (Nat × Pos)) : Mask := maskOf 768 (fun i => l.any (fun x => x.1 == i))

/-- INFO0 of code 27 for a plane word. -/
def planeInfo (p : Pos) : Word := BitVec.ofNat 64 (p.z % 64 + 2 * 2 ^ 8 + p.x.toNat * 2 ^ 16 + p.y.toNat * 2 ^ 24)

/-- The checks of an access that reads the words of `rd`, each for a lane, and writes those of `wr`, each whole or in part: a queued scroll, words
being cleared, dead words, uncorrectable words, damaged words, banks that are not full. -/
def planeGate (s : State) (g : Group) (lanes : Bool) (rd : List (Nat × Pos)) (wr : List Pos) (whole : Bool := true) : Gate :=
  let c := s.core g.id.core
  let t := g.id.team
  let held := fun (p : Pos) => (c.word t p).isSome
  let reads := rd.filter (fun x => held x.2)
  let keys := (reads.map (fun x => x.2.key)) ++ ((wr.filter held).map Pos.key)
  if c.scrolled (((rd.map (·.2) ++ wr).filter Pos.exist).map Pos.key) then .wait .plane s
  else if reads.any (fun x => match c.word t x.2 with | some w => w.clr | none => false) then .wait .clearing s
  else
    let dead := reads.filter (fun x => c.deadRead t x.2)
    match dead.head? with
    | some x => .trap { code := 7, info0 := xyz x.2, lanes := if lanes then lanesAt dead else 0 }
    | none =>
      let errs := reads.filter (fun x => (s.planeErr g.id.core x.2.key).isSome)
      let bad := errs.filter (fun x => match s.planeErr g.id.core x.2.key with | some e => e.marked | none => false)
      match bad.head? with
      | some x => .trap { code := 27, info0 := planeInfo x.2, lanes := if lanes then lanesAt bad else 0 }
      | none =>
        if !errs.isEmpty then
          .wait .rebuild (errs.foldl (fun s x => requestRebuild s (.plane g.id.core x.2.key)) s)
        else if (wr.filter held).any (fun p => s.rebuildHolds (.plane g.id.core p.key) whole) then .wait .rebuild s
        else if keys.any (fun k => c.pstate (planeBank k) != .full) then
          .wait (.wake (keys.any (fun k => c.pstate (planeBank k) == .off || c.pstate (planeBank k) == .waking)) []
              ((keys.map planeBank).filter (fun b => c.pstate b != .full)).eraseDups)
            (s.modCore g.id.core (fun c => keys.foldl (fun c k => c.rouseP (planeBank k)) c))
        else .pass

/-! ### Windows (R220 to R222) -/

/-- The lanes of the effective mask under predicate `q`. -/
def Group.active (g : Group) (q : BitVec 3) : List Nat := lanesOf g.lanes (g.eff q.toNat)

/-- Word `z` of the cell at an offset from lane `l`'s own. -/
def near (l : Nat) (dx dy : Int) (z : BitVec 7) : Pos := ⟨(l % 32 : Nat) + dx, (l / 32 : Nat) + dy, z.toNat⟩

/-- The offsets of a `k` by `k` window, dy ascending, dx ascending in each row. -/
def windowOffs (k : Nat) : List (Int × Int) :=
  let lo := fun (i : Nat) => (i : Int) - ((k - 1) / 2 : Nat)
  (List.range k).flatMap (fun j => (List.range k).map (fun i => (lo i, lo j)))

/-- The words of a window instruction in the order of R218. -/
def windowWords (g : Group) (q : BitVec 3) (offs : List (Int × Int)) (z : BitVec 7) : List (Nat × Pos) :=
  (g.active q).flatMap (fun l => offs.map (fun o => (l, near l o.1 o.2 z)))

/-- Words a plane last-use mark drops, once all are read. -/
def dropWords (s : State) (g : Group) (ps : List Pos) : State :=
  s.modCore g.id.core (fun c => ps.foldl (fun c p => c.pdrop g.id.team p) c)

/-- A window instruction into lane register `d`: `f c l` is lane `l`'s result and flags. -/
def windowOp (w : W32) (d : BitVec 5) (q : BitVec 3) (drop rnds : Bool) (offs : List (Int × Int)) (z : BitVec 7)
    (f : Core → Group → Nat → Word × Fx) :=
  issue w (fun g => needV g [] (vr d) false false q.toNat)
    (fun _ g s => planeGate s g true (windowWords g q offs z) [])
    (fun k g s =>
      let c := s.core g.id.core
      let ps := (windowWords g q offs z).map (·.2)
      let s := s.modGroup k (fun g' =>
        let r := laneOut q.toNat d (f c) g g'
        if rnds then r.step g.modeRnd else r)
      let s := noteAccesses s g.id.core k (rangeNotes c g.id.team 0 false ps)
      { s := if drop then dropWords s g ps else s })

/-- A window reduction (R221): `f m e i a b` combines element `e` of two words, with draw `i`. -/
def pwin (w : W32) (d : BitVec 5) (k : BitVec 3) (z : BitVec 7) (q : BitVec 3) (l rnds : Bool)
    (c1 : Nat → Nat × Fx) (f : Rnd → Nat → Nat → Nat → Nat × Fx) :=
  let n := k.toNat + 1
  windowOp w d q l rnds (windowOffs n) z (fun c g lane =>
    let ws := (windowOffs n).map (fun o => c.pread g.id.team (near lane o.1 o.2 z))
    packF 32 2 (fun e =>
      match (List.range ws.length).map (fun i => (i, elem 32 (ws.getD i 0) e)) with
      | [] => (0, fxNone)
      | x :: t =>
        let r := t.foldl (fun (a : Nat × Fx) y =>
          let r := f g.modeRnd (g.draw (64 * lane + 2 * y.1 + e)) a.1 y.2
          (r.1, a.2 ||| r.2)) (x.2, fxNone)
        let y := c1 r.1
        (y.1, r.2 ||| y.2)))

/-- An operation on 32-bit integers. -/
def exact32 (f : Nat → Nat → Nat) (_ : Rnd) (_ a b : Nat) : Nat × Fx := (f a b % 2 ^ 32, fxNone)

/-! ### Rectangles (R223 to R225) -/

def badHandle : Word := 0x8000000000000000

/-- Handle fault (code 9). -/
def handleTrap (h : Word) : Trap := { code := 9, info0 := h }

/-- A rectangle instruction on the rectangle of scalar A whose words are written. -/
def rectGate (s : State) (g : Group) (h : Word) : Gate :=
  match rectOf h with
  | none => .trap (handleTrap h)
  | some r => planeGate s g false [] r.words

/-- Writes words of the plane, recording those that are not held. -/
def writeWords (s : State) (k : Nat) (g : Group) (ws : List (Pos × Word)) : State :=
  let c := s.core g.id.core
  let s := noteAccesses s g.id.core k (rangeNotes c g.id.team 1 true (ws.map (·.1)))
  let s := s.modCore g.id.core (fun c => ws.foldl (fun c x => c.pwrite g.id.team x.1 x.2) c)
  let keys := (ws.filter (fun x => (c.word g.id.team x.1).isSome)).map (fun x => x.1.key)
  mendPlane s g.id.core keys.contains

/-- `phnd` (R224): the handle moved by the offsets in `b`. -/
def moveHandle (h b : Word) : Word :=
  match rectOf h with
  | none => badHandle
  | some r =>
    if bits b 63 24 ≠ 0 then badHandle
    else
      let x := (r.x0 : Int) + sval 8 (bits b 7 0)
      let y := (r.y0 : Int) + sval 8 (bits b 15 8)
      let z := (r.z0 : Int) + sval 8 (bits b 23 16)
      if x < 0 ∨ y < 0 ∨ z < 0 ∨ 32 < x + r.w ∨ 24 < y + r.h ∨ 128 < z + r.dc then badHandle
      else handleOf { r with x0 := x.toNat, y0 := y.toNat, z0 := z.toNat }

/-- The overlap of two ranges, each a start and a length; the length is 0 where they do not meet. -/
def overlap (a m b n : Nat) : Nat × Nat := (max a b, min (a + m) (b + n) - max a b)

/-- `pclip` (R224): the intersection of two rectangles. -/
def clipHandle (a b : Word) : Word :=
  match rectOf a, rectOf b with
  | some r, some t =>
    let x := overlap r.x0 r.w t.x0 t.w
    let y := overlap r.y0 r.h t.y0 t.h
    let z := overlap r.z0 r.dc t.z0 t.dc
    if x.2 = 0 ∨ y.2 = 0 ∨ z.2 = 0 then badHandle
    else handleOf ⟨x.1, y.1, x.2, y.2, z.1, z.2⟩
  | _, _ => badHandle

/-- A handle computation. -/
def handleOp (w : W32) (d a b : BitVec 5) (l m e : Bool) (f : Word → Word → Word) :=
  issue w (fun g => needS g [(sr a, l), (sr b, m)] (some (sr d)) false e) noGate
    (onGroup (fun g g' => g'.setS d.toNat (f (g.sreg a.toNat) (g.sreg b.toNat))))

/-! ### Scrolls (R226 to R231) -/

/-- Moves along an axis: whether it is x, and whether positions rise. -/
def dirOf : Dir → Bool × Bool
  | .px => (true, true)
  | .mx => (true, false)
  | .py => (false, true)
  | .my => (false, false)

/-- What cell `p` of the rectangle receives at depth `z`: value and liveness. -/
def scrollWord (c : Core) (x : Scroll) (r : Rect) (p : Pos) : Word × Bool :=
  let (isX, up) := dirOf x.dir
  let l := if isX then r.w else r.h
  let at_ := if isX then p.x - r.x0 else p.y - r.y0
  let src := if up then at_ - x.dist else at_ + x.dist
  let from_ := fun (i : Int) =>
    let q : Pos := if isX then ⟨r.x0 + i, p.y, p.z⟩ else ⟨p.x, r.y0 + i, p.z⟩
    match c.word x.team q with
    | some w => (if w.live then w.val else 0, w.live)
    | none => (0, true)
  match x.edge with
  | .wrap => from_ (src % l)
  | .spill => if 0 ≤ src ∧ src < l then from_ src else (0, true)
  | .fill => if 0 ≤ src ∧ src < l then from_ src else (x.fill, true)

/-- The cells of a rectangle at depth `z`, y then x. -/
def Rect.layer (r : Rect) (z : Nat) : List Pos := { r with z0 := z, dc := 1 }.words

/-- One depth of a scroll. -/
def scrollLayer (c : Core) (x : Scroll) (r : Rect) (z : Nat) : Core :=
  let new := (r.layer z).map (fun p => (p, scrollWord c x r p))
  new.foldl (fun c y =>
    match c.word x.team y.1 with
    | none => c
    | some w => ({ c with plane := Tab.set c.plane y.1.key { w with val := y.2.1, live := y.2.2 } }).wakeP (planeBank y.1.key)) c

/-- The first word at depth `z` that the team holds and that cannot be read.  DESIGN CHOICE (log entry 97): one that spill or fill moves out
of the rectangle counts too. -/
def badAt (s : State) (core : Nat) (x : Scroll) (r : Rect) (z : Nat) : Option Pos :=
  (r.layer z).find? (fun p => ((s.core core).word x.team p).isSome &&
    match s.planeErr core p.key with | some e => e.marked | none => false)

/-- The depths of a scroll from the first in `zs`: the state, and the word at which it stopped.  What a scroll records of words out
of range is recorded once it has completed: one that faults records nothing (R218). -/
def scrollDepths (s : State) (core : Nat) (x : Scroll) (r : Rect) : List Nat → State × Option Pos
  | [] => (s, none)
  | z :: zs =>
    match badAt s core x r z with
    | some p => (s, some p)
    | none =>
      let c := s.core core
      let s := s.setCore core (scrollLayer c x r z)
      let s := mendPlane s core (fun k => ((r.layer z).filter (fun p => (c.word x.team p).isSome)).any (fun p => p.key == k))
      scrollDepths s core x r zs

/-- SCROLLPOS of a partial scroll (R229). -/
def scrollPos (p : Pos) : Word := BitVec.ofNat 64 (p.z + p.x.toNat * 2 ^ 8 + p.y.toNat * 2 ^ 16 + 2 ^ 31)

/-- A scroll that may enter the queue. -/
def scrollGate (h : BitVec 5) (resume : Bool) (_ : Nat) (g : Group) (s : State) : Gate :=
  let v := g.sreg h.toNat
  match rectOf v with
  | none => .trap (handleTrap v)
  | some r =>
    let z := bits g.sys.scrollpos 6 0
    if resume && (!flag g.sys.scrollpos 31 || z < r.z0 || r.z0 + r.dc ≤ z) then .trap (handleTrap v)
    else if s.limited g.id.core .scroll then .wait (.queue .scroll) s
    else .pass

def scrollOp (w : W32) (h : BitVec 5) (d : BitVec 4) (r : Dir) (e : Edge) (f : BitVec 5) (resume : Bool) :=
  issue w (fun g => { needS g ((sr h, false) :: pick (e == .fill) (sr f, false)) none false false with closes := true })
    (scrollGate h resume)
    (fun k g s =>
      let v := g.sreg h.toNat
      let z := if resume then bits g.sys.scrollpos 6 0 else bits v 38 32
      let x : Scroll := {
        group := k, team := g.id.team, handle := v, dist := d.toNat, dir := r, edge := e, fill := g.sreg f.toNat, z0 := z
        resume := resume, pc := g.bundlePc, insn := w }
      { s := s.modCore g.id.core (fun c => { c with scrolls := c.scrolls ++ [{ x with seq := c.seq }], seq := c.seq + 1 }) })

/-! ### The linear view (R232, spec/12 R253) -/

/-- The hash of the native scheme. -/
def planeHash (key : W32) (j : Nat) : Nat := bits ((key ^^^ BitVec.ofNat 32 (j * 0x85EBCA6B)) * 0xC2B2AE35) 31 16

/-- Word `n` of a rectangle's linear view. -/
def Rect.linear (r : Rect) (skew : Bool) (key : W32) (n : Nat) : Pos :=
  let p := r.w * r.h
  let j := n / p
  let c := if skew then (n % p + j) % p else (n + planeHash key j) % p
  ⟨(r.x0 + c % r.w : Nat), (r.y0 + c / r.w : Nat), r.z0 + j⟩

def Rect.size (r : Rect) : Nat := r.w * r.h * r.dc

/-- MODE.LINSKEW of a group, and the linear key of its team. -/
def Group.skew (g : Group) : Bool := flag g.sys.mode 11
def State.linKey (s : State) (t : Nat) : W32 := match s.team t with | some x => x.key | none => 0

/-- The byte offset of lane `l`. -/
def linOff (k : Bool) (w : Wid4) (i : BitVec 5) (g : Group) (l : Nat) : Nat :=
  if k then i.toNat * (w.bits / 8) else (g.vreg i.toNat l).toNat

/-- The word of a byte offset: none where it lies beyond the rectangle. -/
def linWord (s : State) (g : Group) (r : Rect) (o : Nat) : Option Pos :=
  if o < 8 * r.size then some (r.linear g.skew (s.linKey g.id.team) (o / 8)) else none

/-- Lanes with the words of their offsets. -/
def linWords (s : State) (g : Group) (r : Rect) (k : Bool) (w : Wid4) (i : BitVec 5) (q : BitVec 3) : List (Nat × Pos) :=
  (g.active q).filterMap (fun l => (linWord s g r (linOff k w i g l)).map (fun p => (l, p)))

/-- The checks of a linear-view access: alignment, the handle, then those of the plane. -/
def linGate (k : Bool) (w : Wid4) (b i : BitVec 5) (q : BitVec 3) (write : Bool) (_ : Nat) (g : Group) (s : State) : Gate :=
  let bad := (g.active q).filter (fun l => linOff k w i g l % (w.bits / 8) != 0)
  match bad.head? with
  | some l => .trap { code := 8, info0 := BitVec.ofNat 64 (linOff k w i g l), lanes := maskOf 768 (fun i => bad.contains i) }
  | none =>
    let h := g.sreg b.toNat
    match rectOf h with
    | none => .trap (handleTrap h)
    | some r =>
      let ws := linWords s g r k w i q
      if write then planeGate s g true [] (ws.map (·.2)) (w == .w64) else planeGate s g true ws []

/-- The out-of-range lanes of a linear-view access (R218). -/
def linearNotes (c : Core) (t : Nat) (write : Bool) (ls : List (Nat × Option Pos)) : List Note :=
  ls.filterMap (fun x =>
    match x.2 with
    | none => some (rangeNote 3 write ⟨0, 0, 0⟩ x.1)
    | some p => if (c.word t p).isSome then none else some (rangeNote 3 write p x.1))

/-- Part of a word: `n` bits at bit `lo`. -/
def subWord (x : Word) (lo n : Nat) : Nat := x.toNat / 2 ^ lo % 2 ^ n
def putSub (x : Word) (lo n v : Nat) : Word :=
  BitVec.ofNat 64 (x.toNat - subWord x lo n * 2 ^ lo + v % 2 ^ n * 2 ^ lo)

/-- A write of part of a plane word.  DEDUCED (log entry 4): the other bytes of a dead word become zero, as they are once its bank
has been off, since bank states never change a result (spec/05 R109, R110). -/
def Core.psub (c : Core) (t : Nat) (p : Pos) (lo n v : Nat) : Core :=
  match c.word t p with
  | some w => c.pwrite t p (putSub (if w.live then w.val else 0) lo n v)
  | none => c

/-- An access of group `k` is in flight: its destination is empty until it arrives (spec/05 R104). -/
def sendAccess (s : State) (k : Nat) (g : Group) (a : Access) : State :=
  s.modGroup k (fun g' =>
    let g' := match a.dest with | some r => g'.await g r | none => g'
    { g' with ord := g'.ord + 1, accs := g'.accs ++ [{ a with ord := g'.ord }] })

/-! ### The instructions -/

/-- R220: the word at an offset from each lane's own cell. -/
def execPld (d : BitVec 5) (h j : BitVec 3) (z : BitVec 7) (q : BitVec 3) (l : Bool) :
    State → Host.Outcome State Fault Refusal :=
  let offs := [(sval 3 h.toNat, sval 3 j.toNat)]
  windowOp (encPld d h j z q l) d q l false offs z
    (fun c g lane => (c.pread g.id.team (near lane (sval 3 h.toNat) (sval 3 j.toNat) z), fxNone))

/-- R220: the word of each lane's own cell is written. -/
def execPst (d : BitVec 5) (z : BitVec 7) (q : BitVec 3) (l : Bool) : State → Host.Outcome State Fault Refusal :=
  issue (encPst d z q l) (fun g => { needL g [(vr d, l)] [] false q.toNat with closes := true })
    (fun _ g s => planeGate s g true [] ((windowWords g q [(0, 0)] z).map (·.2)))
    (fun k g s =>
      let c := s.core g.id.core
      let ps := (windowWords g q [(0, 0)] z).map (·.2)
      let s := noteAccesses s g.id.core k (rangeNotes c g.id.team 0 true ps)
      let s := s.modCore g.id.core (fun c =>
        (g.active q).foldl (fun c l => c.pwrite g.id.team (near l 0 0 z) (g.vreg d.toNat l)) c)
      { s := mendPlane s g.id.core (fun k => (ps.filter (fun p => (c.word g.id.team p).isSome)).any (fun p => p.key == k)) })

/-- R221. -/
def execPwinSumI32 (d : BitVec 5) (k : BitVec 3) (z : BitVec 7) (q : BitVec 3) (l : Bool) :
    State → Host.Outcome State Fault Refusal :=
  pwin (encPwinSumI32 d k z q l) d k z q l false (fun v => (v, fxNone)) (exact32 (· + ·))

/-- R221: each addition is rounded in MODE.RND. -/
def execPwinSumF32 (d : BitVec 5) (k : BitVec 3) (z : BitVec 7) (q : BitVec 3) (l : Bool) :
    State → Host.Outcome State Fault Refusal :=
  pwin (encPwinSumF32 d k z q l) d k z q l true Fmt.f32.passed (fun m r a b => Fmt.f32.add m r a b)

/-- R221. -/
def execPwinMaxI32 (d : BitVec 5) (k : BitVec 3) (z : BitVec 7) (q : BitVec 3) (l : Bool) :
    State → Host.Outcome State Fault Refusal :=
  pwin (encPwinMaxI32 d k z q l) d k z q l false (fun v => (v, fxNone)) (exact32 (fun a b => if sval 32 b ≤ sval 32 a then a else b))

/-- R221, spec/09 R195. -/
def execPwinMaxF32 (d : BitVec 5) (k : BitVec 3) (z : BitVec 7) (q : BitVec 3) (l : Bool) :
    State → Host.Outcome State Fault Refusal :=
  pwin (encPwinMaxF32 d k z q l) d k z q l false Fmt.f32.passed (fun _ _ a b => Fmt.f32.max a b)

/-- R221. -/
def execPwinMinI32 (d : BitVec 5) (k : BitVec 3) (z : BitVec 7) (q : BitVec 3) (l : Bool) :
    State → Host.Outcome State Fault Refusal :=
  pwin (encPwinMinI32 d k z q l) d k z q l false (fun v => (v, fxNone)) (exact32 (fun a b => if sval 32 a ≤ sval 32 b then a else b))

/-- R221, spec/09 R195. -/
def execPwinMinF32 (d : BitVec 5) (k : BitVec 3) (z : BitVec 7) (q : BitVec 3) (l : Bool) :
    State → Host.Outcome State Fault Refusal :=
  pwin (encPwinMinF32 d k z q l) d k z q l false Fmt.f32.passed (fun _ _ a b => Fmt.f32.min a b)

/-- R226, R227: enters the scroll queue. -/
def execScroll (h : BitVec 5) (d : BitVec 4) (r : Dir) (e : Edge) (s : BitVec 5) :
    State → Host.Outcome State Fault Refusal :=
  scrollOp (encScroll h d r e s) h d r e s false

/-- R230: the rest of an interrupted scroll. -/
def execScrollResume (h : BitVec 5) (d : BitVec 4) (r : Dir) (e : Edge) (s : BitVec 5) :
    State → Host.Outcome State Fault Refusal :=
  scrollOp (encScrollResume h d r e s) h d r e s true

/-- R223: every word of rectangle A becomes 0. -/
def execPzero (a : BitVec 5) (l e : Bool) : State → Host.Outcome State Fault Refusal :=
  issue (encPzero a l e) (fun g => { needS g [(sr a, l)] none false e with closes := true })
    (fun _ g s => rectGate s g (g.sreg a.toNat))
    (fun k g s => match rectOf (g.sreg a.toNat) with
      | none => { s := s }
      | some r => { s := writeWords s k g (r.words.map (fun p => (p, 0))) })

/-- R223: every word of rectangle A becomes B. -/
def execPfill (a b : BitVec 5) (l m e : Bool) : State → Host.Outcome State Fault Refusal :=
  issue (encPfill a b l m e) (fun g => { needS g [(sr a, l), (sr b, m)] none false e with closes := true })
    (fun _ g s => rectGate s g (g.sreg a.toNat))
    (fun k g s => match rectOf (g.sreg a.toNat) with
      | none => { s := s }
      | some r => { s := writeWords s k g (r.words.map (fun p => (p, g.sreg b.toNat))) })

/-- R223: rectangle A takes rectangle B, which is read whole first.  DESIGN CHOICE (log entry 96): where the two disagree, or both are
refused, INFO0 of the trap holds the handle of A. -/
def execPcopy (a b : BitVec 5) (l m e : Bool) : State → Host.Outcome State Fault Refusal :=
  issue (encPcopy a b l m e) (fun g => { needS g [(sr a, l), (sr b, m)] none false e with closes := true })
    (fun _ g s => match rectOf (g.sreg a.toNat), rectOf (g.sreg b.toNat) with
      | none, _ => .trap (handleTrap (g.sreg a.toNat))
      | _, none => .trap (handleTrap (g.sreg b.toNat))
      | some r, some t =>
        if r.w ≠ t.w ∨ r.h ≠ t.h ∨ r.dc ≠ t.dc then .trap (handleTrap (g.sreg a.toNat))
        else planeGate s g false (t.words.map (fun p => (0, p))) r.words)
    (fun k g s => match rectOf (g.sreg a.toNat), rectOf (g.sreg b.toNat) with
      | some r, some t =>
        let c := s.core g.id.core
        let s := noteAccesses s g.id.core k (rangeNotes c g.id.team 1 false t.words)
        { s := writeWords s k g (List.zip r.words (t.words.map (fun p => c.pread g.id.team p))) }
      | _, _ => { s := s })

/-- R223, R224. -/
def execPhnd (d a b : BitVec 5) (l m e : Bool) : State → Host.Outcome State Fault Refusal :=
  handleOp (encPhnd d a b l m e) d a b l m e moveHandle

/-- R223, R224. -/
def execPclip (d a b : BitVec 5) (l m e : Bool) : State → Host.Outcome State Fault Refusal :=
  handleOp (encPclip d a b l m e) d a b l m e clipHandle

/-- spec/05 R118: every held word of the rectangle becomes dead, after every scroll that the group has queued. -/
def execPdrop (a : BitVec 5) : State → Host.Outcome State Fault Refusal :=
  issue (encPdrop a) (fun g => { needS g [(sr a, false)] none false false with closes := true })
    (fun k g s =>
      let h := g.sreg a.toNat
      match rectOf h with
      | none => .trap (handleTrap h)
      | some r =>
        if (s.core g.id.core).scrollOf k || (s.core g.id.core).scrolled r.keys then .wait .plane s else .pass)
    (fun k g s => match rectOf (g.sreg a.toNat) with
      | none => { s := s }
      | some r =>
        let c := s.core g.id.core
        let s := noteAccesses s g.id.core k (rangeNotes c g.id.team 1 true r.words)
        { s := (dropWords s g r.words).modCore g.id.core (fun c => { c with planeLate := true }) })

/-- spec/12 R253: each lane reads at its offset of the linear view. -/
def execLds (k : Bool) (w : Wid4) (d b i : BitVec 5) (q : BitVec 3) (l : Bool) :
    State → Host.Outcome State Fault Refusal :=
  issue (encLds k w d b i q l) (fun g => needV g ((sr b, false) :: pick (!k) (vr i, false)) (vr d) false false q.toNat)
    (linGate k w b i q false)
    (fun kk g s => match rectOf (g.sreg b.toNat) with
      | none => { s := s }
      | some r =>
        let c := s.core g.id.core
        let ls := (g.active q).map (fun l => (linOff k w i g l, linWord s g r (linOff k w i g l)))
        let s := noteAccesses s g.id.core kk (linearNotes c g.id.team false ls)
        let part := fun (l : Nat) =>
          let o := linOff k w i g l
          let v := match linWord s g r o with | some p => c.pread g.id.team p | none => 0
          { lane := l, off := 0, va := o, pa := 0, n := w.bits / 8, kind := .rc, val := subWord v (8 * (o % 8)) w.bits }
        let a : Access := {
          op := .plane, ord := 0, dest := some (vr d), bits := w.bits, sext := l, scope := none, acq := false, rel := false
          vol := false, parts := (g.active q).map part, seq := (s.core g.id.core).seq, pc := g.bundlePc
          insn := (encLds k w d b i q l) }
        { s := sendAccess s kk g a })

/-- spec/12 R253: each lane writes at its offset of the linear view. -/
def execSts (k : Bool) (w : Wid4) (d b i : BitVec 5) (q : BitVec 3) (l : Bool) :
    State → Host.Outcome State Fault Refusal :=
  issue (encSts k w d b i q l) (fun g => { needL g ((sr b, false) :: (pick (!k) (vr i, false) ++ [(vr d, l)])) [] false q.toNat with closes := true })
    (linGate k w b i q true)
    (fun kk g s => match rectOf (g.sreg b.toNat) with
      | none => { s := s }
      | some r =>
        let c := s.core g.id.core
        let ls := (g.active q).map (fun l => (linOff k w i g l, linWord s g r (linOff k w i g l)))
        let s := noteAccesses s g.id.core kk (linearNotes c g.id.team true ls)
        let s' := s.modCore g.id.core (fun c => (g.active q).foldl (fun c l =>
          let o := linOff k w i g l
          match linWord s g r o with
          | some p => c.psub g.id.team p (8 * (o % 8)) w.bits (g.vreg d.toNat l).toNat
          | none => c) c)
        { s := if w = .w64 then
            mendPlane s' g.id.core (fun key => ls.any (fun x => match x.2 with | some p => p.key == key && (c.word g.id.team p).isSome | none => false))
          else s' })

/-- R227: the spindle performs the next queued scroll of the core; requests for its words, which it held back, are decided again
(R219). -/
def execScrollExecute (core : Nat) : State → Host.Outcome State Fault Refusal :=
  fun s =>
    match (s.core core).scrolls with
    | [] => .next s
    | x :: rest =>
      match rectOf x.handle with
      | none => .next (s.modCore core (fun c => { c with scrolls := rest }))
      | some r =>
        let held := r.keys.filter (fun k => match Tab.get (s.core core).plane k with | some w => w.own == x.team | none => false)
        let hurt := held.filter (fun k => match s.planeErr core k with | some e => !e.marked | none => false)
        if held.any (fun k => s.rebuildHolds (.plane core k) ||
            match Tab.get (s.core core).plane k with | some w => w.clr | none => false) then .next s
        else if !hurt.isEmpty then .next (hurt.foldl (fun s k => requestRebuild s (.plane core k)) s)
        else
          let zs := (List.range (r.z0 + r.dc - x.z0)).map (fun i => x.z0 + i)
          let (s, stop) := scrollDepths s core x r zs
          let s := s.modCore core (fun c => { c with scrolls := rest })
          let own := match stop with
            | none => rangeNotes (s.core core) x.team 2 true (zs.flatMap r.layer) ++ pick x.resume (.put 0x1138 0)
            | some p => [.put 0x1138 (scrollPos p)]
          let s := s.modGroup x.group (fun g => (own ++ x.later).foldl Group.take g)
          match stop with
          | none => .next (redecide s core)
          | some p => .next (redecide (pendTrap (noteUncorr s core 1) x.group
              { code := 15, faultpc := x.pc, insn := x.insn, info0 := scrollPos p, info1 := 0 }) core)

end Sys2Proof.Machine
end

