-- ==== Sys2Proof/Machine/Order.lean ====
section
/-!
DEFINITION. Accesses performing (spec/15 R312 to R326): the conditions of each step, loads taking their values, stores
leaving a store buffer, atomics at the home, results retiring into registers (spec/05 R104, R105), and poison (spec/12
R262 to R264).
-/

namespace Sys2Proof.Machine

/-! ### Conditions (R313 to R326) -/

def Part.meets (p q : Part) : Bool := p.pa < q.pa + q.n && q.pa < p.pa + p.n

def Access.undone (a : Access) : List Part := a.parts.filter (fun p => !p.done)

/-- Whether a part performs at its home: an SO page, a volatile access, an atomic. -/
def Access.atHome (a : Access) (p : Part) : Bool :=
  p.kind == .so || a.vol || match a.op with | .atomic _ => true | _ => false

/-- Whether a store of group `k`, or one whose value a load of it has returned, waits for the bytes of a part in a part of the
machine narrower than the meeting point of `sc`: what is read there would be older (R314 items 2 and 3). -/
def State.ownWaiting (s : State) (k core : Nat) (p : Part) (sc : Scope) : Bool :=
  let hit := fun (x : Store) => (x.group == k || x.seen.contains k) && x.meets p.pa p.n
  match sc with
  | .group | .team => false
  | .cluster | .die => (s.core core).view.wait.any hit
  | .device | .system => s.cores.any (fun c => c.2.view.wait.any hit) || s.dies.any (fun d => d.2.view.wait.any hit)

/-- Earlier stores in the store buffer that touch a part, each with its access. -/
def earlierStores (before : List Access) (p : Part) : List (Access × Part) :=
  (before.filter (·.isStore)).flatMap (fun a => (a.undone.filter (fun q => q.meets p)).map (fun q => (a, q)))

/-- Whether a load part takes the value of an earlier store in the store buffer: a plain one, which no volatile or SO store
leaves to it (R315, R317, R325). -/
def forwards (p : Part) (x : Access × Part) : Bool :=
  !x.1.vol && x.2.kind != .so && x.2.pa ≤ p.pa && p.pa + p.n ≤ x.2.pa + x.2.n

/-- Whether a load takes its value at the store buffer or the core view: a plain one, or an acquire that meets no further out. -/
def Access.near (a : Access) (p : Part) : Bool := !a.atHome p && (!a.acq || a.scopeOf == .group)

/-- Whether part `i` of access `idx` of group `k` may perform now, as far as order goes. -/
def State.inOrder (s : State) (k : Nat) (g : Group) (idx i : Nat) (a : Access) (p : Part) : Bool :=
  let before := g.accs.take idx
  let own := (a.parts.take i).filter (fun q => !q.done)
  let sb := earlierStores before p
  let loadsMeet := before.any (fun b => !b.isStore && b.undone.any (fun q => q.meets p))
  !p.done && !before.any (fun b => b.holds) && !loadsMeet && !own.any (fun q => q.meets p) &&
    !(s.lateOf g.id.core k).any (fun y => y.store.meets p.pa p.n || p.kind == .so || a.vol) &&
    (p.kind != .so || (!before.any (fun b => b.undone.any (fun q => q.kind == .so)) && own.isEmpty &&
      !(s.core g.id.core).copies.any (fun x => x.group == k && x.so && x.ord ≤ a.ord) &&
      (!a.isStore || s.releaseReady k g a.ord (soScope p.pa)))) &&
    (!a.vol || (!before.any (fun b => b.vol) && own.isEmpty)) &&
    (!a.rel || s.releaseReady k g a.ord a.scopeOf) &&
    (if a.isStore then
      sb.isEmpty && (p.kind != .rc || a.vol || (!before.any (fun b => b.isStore && !b.vol && b.undone.any (fun q => q.kind == .rc)) &&
          !own.any (fun q => q.kind == .rc)))
    else if a.near p then
      match sb.getLast? with
      | none => true
      | some q => forwards p q
    else sb.isEmpty && !s.ownWaiting k g.id.core p (if a.atHome p then .device else a.scopeOf))

/-- Whether it may perform now: order lets it, its target's port is not in recovery (spec/24 R425), what it has to write outward
first can reach its home, and its destination can be written (spec/23 R410). -/
def State.mayPerform (s : State) (k : Nat) (g : Group) (idx i : Nat) (a : Access) (p : Part) : Bool :=
  s.inOrder k g idx i a p &&
    (match a.op with
      | .store => !s.homeHeld k g.id.core a (p.store k g a)
      | .atomic _ => !s.stalledPort p.pa && !s.clogged g.id.core p.pa p.n
      | _ => !s.stalledPort p.pa) &&
    (match a.dest with | some r => !s.writeHeld k g.id.core g.id.foot r (· == p.lane) | none => true)

/-! ### Results retire (spec/05 R104, R105) -/

/-- One lane of a register, or a scalar, in a set of registers. -/
def Regs.putLane (r : Regs) (foot : Nat) (x : Reg) (l : Nat) (v : Word) : Regs :=
  match x with
  | .s n => { r with s := setPad 0 r.s n v }
  | .v n =>
    let old := tabulate (192 * foot) (fun i => (r.v.getD n []).getD i 0)
    { r with v := setPad [] r.v n (setPad 0 old l v) }

def Regs.setFull (r : Regs) (x : Reg) : Regs :=
  match x with
  | .s n => { r with sempty := setBit r.sempty n false }
  | .v n => { r with vempty := setBit r.vempty n false }

/-- A value for lane `l` of register `x` of group `k`: into the register, and into the context area where the register is
not cached or memory holds the context. -/
def retireLane (s : State) (k : Nat) (x : Reg) (l : Nat) (v : Word) : State :=
  match s.group k with
  | none => s
  | some g =>
    let s := mendRows (s.setGroup k { g with regs := g.regs.putLane g.id.foot x l v }) k g (s.core g.id.core) x (· == l)
    if (s.core g.id.core).cached k g.id.foot x && !g.inMem then s.modCore g.id.core (fun c => c.touch k true x)
    else producerWrite s k (g.id.base + regOff x l) v none

/-- Register `x` becomes full. -/
def retireFull (s : State) (k : Nat) (x : Reg) : State :=
  match s.group k with
  | none => s
  | some g => s.setGroup k (g.setEmpty x false)

/-- A value for a register of an open region's entry. -/
def keepLane (s : State) (k : Nat) (x : Option Reg) (l : Nat) (v : Word) : State :=
  match x with
  | none => s
  | some x => s.modGroup k (fun g => match g.region with
    | some r => { g with region := some { r with regs := r.regs.putLane g.id.foot x l v } }
    | none => g)

def keepFull (s : State) (k : Nat) (x : Option Reg) : State :=
  match x with
  | none => s
  | some x => s.modGroup k (fun g => match g.region with
    | some r => { g with region := some { r with regs := r.regs.setFull x } }
    | none => g)

/-- A lane's value from its parts: all ones where one of them was poisoned (R262), then extended. -/
def laneValue (a : Access) (ps : List Part) : Word :=
  let raw := if ps.any (fun p => p.poison.isSome) then 2 ^ a.bits - 1
    else (ps.map (fun p => p.val * 2 ^ (8 * p.off))).foldl (· + ·) 0
  if a.sext then sext64 a.bits raw else zext64 a.bits raw

/-- Whether some access of the group still owes register `x` a value. -/
def Group.owed (g : Group) (x : Reg) : Bool :=
  g.accs.any (fun a => a.dest == some x) || match g.log.access with | some a => a.dest == some x | none => false

/-- Part `i` of access `idx` has performed, giving `p`: its lane retires once whole, and the access ends with its last part. -/
def donePart (s : State) (k idx i : Nat) (p : Part) : State :=
  match s.group k with
  | none => s
  | some g =>
    match g.accs[idx]? with
    | none => s
    | some a =>
      let a' := { a with parts := setAt a.parts i { p with done := true } }
      let lane := a'.parts.filter (fun q => q.lane == p.lane)
      let whole := !a.isStore && lane.all (fun q => q.done)
      let v := laneValue a' lane
      let s := s.setGroup k { g with accs := setAt g.accs idx a' }
      let s := match a.dest with
        | some x => if whole then retireLane s k x p.lane v else s
        | none => s
      let s := if whole then keepLane s k a.keep p.lane v else s
      if a'.parts.all (fun q => q.done) then
        let s := s.modGroup k (fun g => { g with accs := dropAt g.accs idx })
        let s := if a.acq then acquireViews s k a.scopeOf else s
        let s := match a.dest with
          | some x => (match s.group k with
            | some g => if g.owed x then s else retireFull s k x
            | none => s)
          | none => s
        keepFull s k a.keep
      else s

/-! ### Loads -/

/-- The number of an item that a reader of the homes finds. -/
def homeItem (s : State) (p : Part) : Nat := readLe (homeByte s) p.pa p.n

/-- Whether a byte of a part comes from its home through core `c`'s path. -/
def fromHome (s : State) (c : Nat) (p : Part) : Bool :=
  (List.range p.n).any (fun i => (Tab.get (s.core c).view.diff (p.pa + i)).isNone &&
    (Tab.get (s.die (dieOf c)).view.diff (p.pa + i)).isNone)

/-- The store that a reply names among those that wait in a view for bytes of a part, counted from the youngest (R316). -/
def State.lender (s : State) (p : Part) : Reply → Option (Nat × Store)
  | .waiting v i =>
    let l := (s.viewAt v).waits p.pa p.n
    if i < l.length then (l[l.length - 1 - i]?).map (fun x => (v, x)) else none
  | _ => none

/-- The stores that wait in a view for the bytes of store `x`, those that entered it after `x`. -/
def View.after (y : View) (x : Store) : List Store := ((y.wait.dropWhile (· != x)).drop 1).filter (fun z => z.overlap x)

/-- A UO load of group `k` on core `c` takes the value of a store that waits in view `v`, where that keeps to R314: none that the
group has written or returned is later.  Where it waits off the core's own path, what waits there goes home first, and the value
stands in the views of the path, where nothing older replaces it (item 4). -/
def State.lend (s : State) (k c v : Nat) (x : Store) : Option State :=
  let d := dieOf c
  let known := fun (y : Store) => y.group == k || y.seen.contains k
  let seen := fun (s : State) (f : Store → Store) => s.modWait v (fun y => if y = x then f (y.seenBy k) else y)
  if ((s.viewAt v).after x).any known then none
  else if v = c then some (seen s id)
  else if v = 576 + d then
    if (s.core c).view.wait.any (fun y => y.overlap x && known y) then none
    else
      let lo := x.pa / 8 * 8
      some (refreshCoreBytes (seen s id) c ((List.range ((x.pa + x.bytes.length + 7) / 8 * 8 - lo)).map (lo + ·)))
  else if s.clogged c x.pa x.bytes.length then none
  else
    let e := if v < 576 then dieOf v else v - 576
    let s := settleLent (pushBytes s c x.pa x.bytes.length) e x.pa x.bytes.length
    if !(s.viewAt v).wait.contains x then none
    else
      let s := seen s (fun y => { y with lent := if y.lent.contains d then y.lent else y.lent ++ [d] })
      some (writeCore (writeDie s d x.pa x.bytes) c x.pa x.bytes)

/-- Where a load part takes its value (R314 to R317, R320, R325). -/
inductive Source where
  | buffer (v : Nat)
  | path
  | die
  | home
  | lent (view : Nat) (x : Store)
  deriving DecidableEq, Repr

/-- The source of a load part; the reply to a UO load may name a waiting store. -/
def loadSource (s : State) (k : Nat) (g : Group) (idx : Nat) (a : Access) (p : Part) (r : Reply) : Source :=
  match (earlierStores (g.accs.take idx) p).getLast? with
  | some q => .buffer (q.2.val / 2 ^ (8 * (p.pa - q.2.pa)) % 2 ^ (8 * p.n))
  | none =>
    if a.atHome p then .home
    else if a.acq then
      match a.scopeOf with
      | .group | .team => .path
      | .cluster | .die => .die
      | .device | .system => .home
    else if p.kind = .uo then
      match s.lender p r with
      | some (v, x) => if (s.lend k g.id.core v x).isSome then .lent v x else .path
      | none => .path
    else .path

/-- The state in which a load of group `k` on core `c` takes its value, its source being known: the stores it returns are seen. -/
def Source.taken (s : State) (k c : Nat) (p : Part) : Source → State
  | .buffer _ | .home => s
  | .path => notePath k c p.pa p.n true s
  | .die => notePath k c p.pa p.n false s
  | .lent v x => (s.lend k c v x).getD s

/-- A byte of a waiting store, or what is seen of it otherwise. -/
def Store.byteOr (x : Store) (f : Nat → Byte) (a : Nat) : Byte :=
  if x.pa ≤ a && a < x.pa + x.bytes.length then x.bytes.getD (a - x.pa) 0 else f a

/-- The value of a source for a load of core `c`, in the state in which it is taken, and whether any of it comes from the home. -/
def Source.value (s : State) (c : Nat) (p : Part) : Source → Nat × Bool
  | .buffer v => (v, false)
  | .path => (readLe (coreByte s c) p.pa p.n, fromHome s c p)
  | .die => (readLe (dieByte s (dieOf c)) p.pa p.n, fromHome s c p)
  | .home => (homeItem s p, true)
  | .lent _ x => (readLe (x.byteOr (coreByte s c)) p.pa p.n, false)

/-- The value a load part takes, and whether any of it comes from the home. -/
def loadValue (s : State) (k : Nat) (g : Group) (idx : Nat) (a : Access) (p : Part) (r : Reply) : Nat × Bool :=
  let x := loadSource s k g idx a p r
  x.value (x.taken s k g.id.core p) g.id.core p

/-- Why a load part completes with poison: it was issued to a port in Down, or was outstanding when its port entered Down (spec/24
R425, R427); its target answers with an error (spec/24 R428); or its data are poisoned. -/
def loadPoison (s : State) (p : Part) (home : Bool) (r : Reply) : Option Poison :=
  match p.poison with
  | some c => some c
  | none =>
    match targetOf p.pa, r with
    | .peer q, .error => if (s.port q).state == .down then some .unreachable else some .peerFault
    | _, _ => match poisonAt s p.pa p.n with
      | some .data => if home then some .data else none
      | x => x

/-- A load part performs, once the lines of its path that hold it are whole (spec/23 R410). -/
def performLoad (s : State) (k idx i : Nat) (g : Group) (a : Access) (p : Part) (r : Reply) : State :=
  if !a.atHome p && !(s.badLines g.id.core p.pa p.n).isEmpty then mendLines s g.id.core p.pa p.n
  else
  let x := loadSource s k g idx a p r
  let t := x.taken s k g.id.core p
  let v := x.value t g.id.core p
  let s := match loadPoison s p v.2 r with
    | some c => donePart (noteRemote s k (a.ord, p.lane) c false p.accVa a.pc a.insn) k idx i { p with poison := some c }
    | none => donePart t k idx i { p with val := v.1 }
  if p.kind = .so then acquireViews s k (soScope p.pa) else s

/-! ### Atomics (spec/12 R252, R326, spec/24 R422) -/

/-- The new value of an atomic, and its flags. -/
def atomNew (f : AtomOp) (w old x y : Nat) : Nat × Fx :=
  match f with
  | .add => ((old + x) % 2 ^ w, fxNone)
  | .and => (Nat.land old x, fxNone)
  | .or => (Nat.lor old x, fxNone)
  | .xor => (Nat.xor old x, fxNone)
  | .minI => (if sval w x < sval w old then x else old, fxNone)
  | .minN => (min old x, fxNone)
  | .maxI => (if sval w old < sval w x then x else old, fxNone)
  | .maxN => (max old x, fxNone)
  | .swap => (x, fxNone)
  | .cas => (if old = x then y else old, fxNone)
  | .addf => Fmt.f32.add .rne 0 old x

/-- Atomics that the host port can perform. -/
def hostAtomic (f : AtomOp) : Bool := f == .add || f == .swap || f == .cas

/-- The new value of an atomic on the home value `old`, its flags, and whether it writes. -/
def Access.atom (a : Access) (f : AtomOp) (old : Nat) : (Nat × Fx) × Bool :=
  let x := a.x.toNat % 2 ^ a.bits
  (atomNew f a.bits old x (a.y.toNat % 2 ^ a.bits), !(f == .cas && old != x))

/-- The state in which an atomic reads the home's value: where it will write, what waits on its path for those bytes has been
written there first, stores lent to its die too, so that its value takes the next place in coherence order (R326). -/
def atomReady (s : State) (c : Nat) (a : Access) (p : Part) (f : AtomOp) : State :=
  if (a.atom f (homeItem s p)).2 then pushBytes s c p.pa p.n else s

/-- A write that its target may or may not have performed (spec/24 R426). -/
def perhapsWrite (s : State) (c : Nat) (p : Part) (v : Nat) : State :=
  (if Config.poisonedStoreDone s.fresh then writePath s c p.pa (leBytes p.n v) else s).tickFresh

/-- Whether the host port turns an atomic away: it is no request there (spec/24 R422). -/
def Part.refused (p : Part) (f : AtomOp) : Bool := hostAt p.pa && !hostAtomic f

/-- An atomic performs at the home. -/
def performAtomic (s : State) (k idx i : Nat) (g : Group) (a : Access) (p : Part) (f : AtomOp) (r : Reply) : State :=
  let c := g.id.core
  let s := if a.rel then releaseBefore s k a.ord a.scopeOf else s
  let idx := match s.group k with
    | some g' => (g'.accs.findIdx (fun b => b.ord == a.ord && b.parts == a.parts))
    | none => idx
  match (if p.refused f then some Poison.peerFault else loadPoison s p true r) with
  | some e =>
    let s := noteRemote s k (a.ord, p.lane) e false p.accVa a.pc a.insn
    let new := a.atom f (homeItem s p)
    let s := match targetOf p.pa with
      | .peer _ => if new.2 then perhapsWrite s c p new.1.1 else s
      | _ => s
    donePart s k idx i { p with poison := some e }
  | none =>
    let s := atomReady s c a p f
    let old := homeItem s p
    let new := a.atom f old
    let s := if new.2 then writePath s c p.pa (leBytes p.n new.1.1) else s
    let n := s.heldOf k
    resultFlags (donePart s k idx i { p with val := old }) k n (new.1.2)

/-! ### Stores -/

/-- Part `i` of store `idx` leaves the store buffer; where it is a release its group's earlier stores leave first (R317, R319). -/
def drainStore (s : State) (k idx i : Nat) (g : Group) (a : Access) (p : Part) : State :=
  let s := donePart s k idx i p
  leaveBuffer (if p.kind = .so || (a.rel && a.scopeOf != .group) then drainBefore s k a.ord else s) k g.id.core a p.kind (p.store k g a)

/-! ### The events -/

/-- The lines of a view that hold a waiting store are checked before it leaves. -/
def checkView (s : State) (v : ViewId) (x : Store) : State :=
  if s.errs.isEmpty then s
  else
    let on := fun line => x.pa / 128 ≤ line && line ≤ (x.pa + x.bytes.length - 1) / 128
    settleErrs s (fun e => match v, e with
      | .core c, .l1 c' line => c' == c && on line
      | .die d, .dcache d' line => d' == d && on line
      | _, _ => false)

/-- The parts of a group's store buffer, oldest first, each with its access and its place in it. -/
def Group.storeParts (g : Group) : List (Nat × Nat) :=
  (List.range g.accs.length).flatMap (fun n => match g.accs[n]? with
    | some a => if a.isStore then ((List.range a.parts.length).filter (fun i =>
        match a.parts[i]? with | some p => !p.done | none => false)).map (fun i => (n, i)) else []
    | none => [])

/-- One part of an access that is no store performs where it may; `reply` says that the target's answer has come. -/
def performPart (s : State) (k idx i : Nat) (r : Reply) (reply : Part → AccOp → Bool) : State :=
  match s.group k with
  | none => s
  | some g =>
    match g.accs[idx]? with
    | none => s
    | some a =>
      match a.parts[i]? with
      | none => s
      | some p =>
        match a.op with
        | .store | .recv _ => s
        | .plane => if p.done then s else donePart s k idx i p
        | .load => if reply p a.op && s.mayPerform k g idx i a p then performLoad s k idx i g a p r else s
        | .atomic f => if reply p a.op && s.mayPerform k g idx i a p then performAtomic s k idx i g a p f r else s

/-- A host or peer access that order has let go completes with poison: its target may or may not have performed it (spec/24 R426,
R422), and an atomic that the host port turns away is no request that could time out. -/
def failPart (s : State) (k idx i : Nat) (c : Poison) : State :=
  match s.group k with
  | none => s
  | some g =>
    match g.accs[idx]? with
    | none => s
    | some a =>
      match a.parts[i]? with
      | none => s
      | some p =>
        let stuck := match a.op with
          | .store | .atomic _ => s.clogged g.id.core p.pa p.n
          | _ => false
        if !s.inOrder k g idx i a p || (a.isStore && !a.leavesHome p.kind) || stuck then s
        else
          let core := g.id.core
          let note := fun (s : State) => noteRemote s k (a.ord, p.lane) c a.isStore p.accVa a.pc a.insn
          let release := fun (s : State) (so : Bool) =>
            if so then releaseBefore s k a.ord (soScope p.pa) else if a.rel then releaseBefore s k a.ord a.scopeOf else s
          match a.op with
          | .store => perhapsWrite (release (donePart (note s) k idx i p) (p.kind == .so)) core p p.val
          | .atomic f =>
            if p.refused f then s
            else
              let s := release (donePart (note s) k idx i { p with poison := some c }) false
              let new := a.atom f (homeItem s p)
              if new.2 then perhapsWrite s core p new.1.1 else s
          | _ =>
            let s := donePart (note s) k idx i { p with poison := some c }
            if p.kind = .so then acquireViews s k (soScope p.pa) else s

/-- R312 Perform, spec/05 R104: a load or atomic takes its value; an answer of the host comes by its own event, and an error answer
ends a peer access only. -/
def execLoadReply (group idx part : Nat) (reply : Reply) : State → Host.Outcome State Fault Refusal :=
  fun s => .next (performPart s group idx part reply (fun p o => !hostAt p.pa || match o with | .atomic f => p.refused f | _ => false))

/-- spec/24 R422: the answer to a host-memory request; another status than success gives poison. -/
def execHostRequestCompletion (group idx part : Nat) (reply : Reply) : State → Host.Outcome State Fault Refusal :=
  fun s =>
    match s.group group with
    | none => .next s
    | some g =>
      let host := match g.accs[idx]? with
        | some a => (match a.parts[part]? with | some p => hostAt p.pa && !a.isStore | none => false)
        | none => false
      if !host then .next s
      else if reply = .error then .next (failPart s group idx part .peerFault)
      else .next (performPart s group idx part reply (fun _ _ => true))

/-- R312 Drain: the store part at place `idx` of the group's store buffer leaves it, where R315 to R317 let it, with poison where it
was outstanding as its port entered Down (spec/24 R427); after the parts of a group, and for a group that is gone, the first of the
stores that it left behind. -/
def execStoreDrain (group idx : Nat) : State → Host.Outcome State Fault Refusal :=
  fun s =>
    match s.group group with
    | none => .next (drainLate s group)
    | some g =>
      match g.storeParts[idx]? with
      | none => .next (drainLate s group)
      | some (n, i) =>
        match g.accs[n]? with
        | none => .next s
        | some a =>
          match a.parts[i]? with
          | none => .next s
          | some p => (match p.poison with
            | some c => .next (failPart s group n i c)
            | none => if s.mayPerform group g n i a p then .next (drainStore s group n i g a p) else .next s)

/-- R312 Push: the store at place `idx` of a view's waiting stores is written at the next part outward. -/
def execStorePush (view : ViewId) (idx : Nat) : State → Host.Outcome State Fault Refusal :=
  fun s =>
    let at_ := fun (s : State) => match view with | .core c => (s.core c).view.wait | .die d => (s.die d).view.wait
    let s := match (at_ s)[idx]? with
      | some x => checkView s view x
      | none => s
    let wait := at_ s
    match wait[idx]? with
    | none => .next s
    | some x =>
      if !(wait.take idx).all (fun y => !y.overlap x) then .next s
      else match view with
        | .core c =>
          if s.lenders.any (fun y => y.near x && s.barred false (fun _ => false) y) then .next s
          else .next (enterDie (s.modCore c (fun k => { k with view := { k.view with wait := dropAt k.view.wait idx } })) (dieOf c) x)
        | .die d =>
          if s.barred false (fun _ => false) x then .next s
          else .next (storeHome (s.modDie d (fun k => { k with view := { k.view with wait := dropAt k.view.wait idx } })) x)

/-- R312 Refresh: a byte takes the value of the next part outward, but where a store waits for it; the bytes of an item that was
written there in one step are taken in one step (R313). -/
def execViewRefresh (view : ViewId) (addr : Nat) : State → Host.Outcome State Fault Refusal :=
  fun s =>
    let bytes := fun (v : View) => let r := v.group addr; (List.range (r.2 - r.1)).map (r.1 + ·)
    match view with
    | .core c => .next (refreshCoreBytes s c (bytes (s.core c).view))
    | .die d => .next (refreshDieBytes s d (bytes (s.die d).view))

end Sys2Proof.Machine
end

