-- ==== Sys2Proof/Machine/Layout.lean ====
section
/-!
DEFINITION. Layout records and the layout cache (spec/13 R267 to R270).
-/

namespace Sys2Proof.Machine

/-- The eight dwords of a record (R267). -/
abbrev Record := List Word

def Record.dw (r : Record) (i : Nat) : Word := r.getD i 0
def Record.base (r : Record) : Nat := bits (r.dw 0) 56 0
def Record.rank (r : Record) : Nat := bits (r.dw 0) 59 57
def Record.etype (r : Record) : Nat := bits (r.dw 0) 63 60
def Record.pad (r : Record) : Word := r.dw 1

/-- SIZEi, STRIDEi and BOUNDi. -/
def Record.size (r : Record) (i : Nat) : Nat :=
  if i < 4 then bits (r.dw 2) (16 * i + 15) (16 * i) else bits (r.dw 3) 15 0
def Record.stride (r : Record) (i : Nat) : Int :=
  match i with
  | 1 => sval 40 (bits (r.dw 3) 55 16)
  | 2 => sval 40 (bits (r.dw 4) 39 0)
  | 3 => sval 40 (bits (r.dw 5) 39 0)
  | 4 => sval 40 (bits (r.dw 6) 39 0)
  | _ => 0
def Record.bound (r : Record) (i : Nat) : Nat :=
  match i with
  | 0 => bits (r.dw 4) 63 40
  | 1 => bits (r.dw 5) 63 40
  | 2 => bits (r.dw 6) 63 40
  | 3 => bits (r.dw 7) 23 0
  | _ => bits (r.dw 7) 47 24

def Record.red (r : Record) : Bool := flag (r.dw 7) 48

/-- The element width in bits of a type code of R78. -/
def etypeBits (t : Nat) : Nat :=
  match t with
  | 0 | 1 => 8
  | 2 | 3 => 16
  | 4 | 5 => 32
  | 6 | 7 => 64
  | 8 => 32
  | 9 | 10 => 16
  | 11 | 12 => 8
  | _ => 4

/-- The signed integer types. -/
def etypeSigned (t : Nat) : Bool := t == 0 || t == 2 || t == 4 || t == 6

/-- R268: whether a record at `addr` is accepted. -/
def Record.ok (r : Record) (addr : Nat) : Bool :=
  addr % 64 == 0 && 1 ≤ r.rank && r.rank ≤ 5 && r.etype ≤ 13 && bits (r.dw 3) 63 56 == 0 && bits (r.dw 7) 63 49 == 0 &&
    (List.range 5).all (fun i =>
      if i < r.rank then r.size i != 0 else r.size i == 0 && r.stride i == 0 && r.bound i == 0) &&
    !(r.etype == 13 && r.size 0 % 2 == 1)

/-- Whether coordinates lie inside the bounds (R269). -/
def Record.inb (r : Record) (c : List Int) : Bool :=
  (List.range r.rank).all (fun i => 0 ≤ c.getD i 0 && c.getD i 0 < r.bound i)

/-- The address of an element, in half-bytes, exact (R269). -/
def Record.nibble (r : Record) (c : List Int) : Int :=
  2 * (r.base : Int) + c.getD 0 0 * (etypeBits r.etype / 4 : Nat) +
    ((List.range (r.rank - 1)).map (fun i => 2 * c.getD (i + 1) 0 * r.stride (i + 1))).foldl (· + ·) 0

/-- The byte address of an element modulo 2^64. -/
def Record.addr (r : Record) (c : List Int) : Nat := wrap 64 (r.nibble c / 2)

/-- The elements of the box (R272). -/
def Record.elems (r : Record) : Nat := ((List.range r.rank).map r.size).foldl (· * ·) 1

/-- The index digits of box element `e`, dimension 0 fastest. -/
def Record.digits (r : Record) (e : Nat) : List Nat :=
  (List.range 5).map (fun i => e / ((List.range i).map (fun j => max 1 (r.size j))).foldl (· * ·) 1 % max 1 (r.size i))

/-! ### The cache (R270) -/

/-- Whether the device's own access to host or peer memory is refused there: an error at the peer (spec/24 R428), or a completion of
the host that is not successful (spec/24 R422). -/
def State.refusedAt (s : State) (pa key : Nat) : Bool :=
  match targetOf pa with
  | .host | .peer _ => Config.peerRefuses s.fresh key
  | .heap _ | .nowhere => false

/-- What a use of a record finds: a translation failure, poison (none: the record's address is misaligned), or its dwords. -/
inductive Found where
  | fault (cause : Nat)
  | bad (p : Option Poison)
  | found (r : Record)
  deriving DecidableEq, Repr

/-- What a read of a record at its home finds. -/
def readRecord (s : State) (core asid addr : Nat) (user : Bool) : Found :=
  match xlat s core asid addr .read user with
  | .error e => .fault e
  | .ok p => match poisonAt s p.pa 64 with
    | some c => .bad (some c)
    | none =>
      if s.refusedAt p.pa addr then .bad (some .peerFault)
      else .found ((List.range 8).map (fun i => BitVec.ofNat 64 (readLe (homeByte s) (p.pa + 8 * i) 8)))

/-- The damage of the cached entry of the record at `addr` (spec/23 R409). -/
def State.hurtRecord (s : State) (core asid addr : Nat) : List ErrSite :=
  (s.errs.map (·.site)).filter (fun e => match e with
    | .layout c i => c == core && (match (s.core core).lcache[i]? with | some x => x.asid == asid && x.addr == addr | none => false)
    | _ => false)

/-- A use of the record at `addr`: the entry, each dword of which may have been read afresh where memory has changed, or a
read at the home, which then fills an entry. -/
def useRecord (s : State) (core asid addr : Nat) (user : Bool) : State × Found :=
  let s := (s.hurtRecord core asid addr).foldl settleErr s
  let c := s.core core
  match c.lcache.find? (fun e => e.asid == asid && e.addr == addr) with
  | some e =>
    let dws := match readRecord s core asid addr user with
      | .found n => (List.range 8).map (fun i =>
          if Config.layoutNew (s.fresh + i) then n.getD i 0 else e.dws.getD i 0)
      | .fault _ | .bad _ => e.dws
    ({ s.setLayout core (e :: c.lcache.erase e) with fresh := s.fresh + 8 }, .found dws)
  | none =>
    if addr % 64 ≠ 0 then (s, .bad none)
    else match readRecord s core asid addr user with
      | .found n => (s.setLayout core ((⟨asid, addr, n⟩ :: c.lcache).take 64), .found n)
      | r => (s, r)

/-- Whether a use of the record at `addr` would read it from a port that is in recovery, where it waits (spec/24 R425). -/
def State.recordHeld (s : State) (core asid addr : Nat) (user : Bool) : Bool :=
  !(s.core core).lcache.any (fun e => e.asid == asid && e.addr == addr) &&
    match xlat s core asid addr .read user with
    | .ok p => s.stalledPort p.pa
    | .error _ => false

/-- Signed 21-bit coordinates of a register (R250, R271). -/
def coords21 (w : Word) : List Int := [sval 21 (bits w 20 0), sval 21 (bits w 41 21), sval 21 (bits w 62 42)]

end Sys2Proof.Machine
end

