-- ==== Sys2Proof/Machine/Mem.lean ====
section
/-!
DEFINITION. Memory instructions: majors 0x28 to 0x2C and 0x2E, parking and retrying accesses (spec/12 R246 to R261), and
tensor accesses through layout records (R250, R251).
-/

namespace Sys2Proof.Machine

/-! ### Scope and order (R247, spec/04 R79, R87) -/

def Group.hint (g : Group) : Option ModHint :=
  match g.bundle with
  | some b => b.mod
  | none => none

/-- The scope of SC or of a modifier hint. -/
def Group.scopeWith (g : Group) (sc : Sc) : Option Scope :=
  match sc with
  | .team => some .team
  | .dev => some .device
  | .sys => some .system
  | .none =>
    match g.hint with
    | some m => (match m.scope with | .at s => some s | .none => none)
    | none => none

def Group.order (g : Group) : ModOrder :=
  match g.hint with
  | some m => m.order
  | none => .byKind

/-- An access of the instruction `w` with nothing translated yet; `dest` is its destination. -/
def Group.access (g : Group) (w : W32) (op : AccOp) (dest : Option Reg) (n : Nat) (sext vol : Bool) (sc : Sc) : Access :=
  let scope := g.scopeWith sc
  let on := scope.isSome
  { op := op
    ord := 0
    dest := dest
    bits := n
    sext := sext
    scope := scope
    acq := on && (match op with
      | .load => true
      | .atomic _ => g.order != .release
      | _ => false)
    rel := on && (match op with
      | .store => true
      | .atomic _ => g.order != .acquire
      | _ => false)
    vol := vol
    parts := []
    pc := g.bundlePc
    insn := w }

/-! ### Lanes and their items (R246, R249, R256, spec/15 R313) -/

/-- The offsets and sizes in which an access of `n` bytes performs: whole where it is aligned, else byte by byte. -/
def itemsOf (va n : Nat) : List (Nat × Nat) := if va % n = 0 then [(0, n)] else (List.range n).map (fun i => (i, 1))

/-- The parts of one lane's access, not yet translated. -/
def laneParts (n : Nat) (x : Nat × Nat × Word) : List Part :=
  (itemsOf x.2.1 n).map (fun i =>
    { lane := x.1, off := i.1, va := x.2.1 + i.1, pa := 0, n := i.2, kind := .rc
      val := x.2.2.toNat / 2 ^ (8 * i.1) % 2 ^ (8 * i.2) })

def wantOf : AccOp → Want
  | .store => .write
  | .atomic _ => .both
  | _ => .read

/-- The translation of the bytes of one lane's access: both sides of a page boundary, or the first failure. -/
def xlatLane (s : State) (g : Group) (w : Want) (va n : Nat) : Except (Nat × Nat) (Nat → Phys) :=
  let m := firstPart va n
  match xlat s g.id.core g.id.asid va w (!g.id.supv) with
  | .error e => .error (va, e)
  | .ok p =>
    if m = n then .ok (fun o => { p with pa := p.pa + o })
    else match xlat s g.id.core g.id.asid (va + m) w (!g.id.supv) with
      | .error e => .error (va + m, e)
      | .ok q => .ok (fun o => if o < m then { p with pa := p.pa + o } else { q with pa := q.pa + (o - m) })

/-- The lanes of a list of parts, each with its parts. -/
def byLane (ps : List Part) : List (List Part) :=
  ((ps.map (fun p => p.lane)).eraseDups).map (fun l => ps.filter (fun p => p.lane == l))

/-- Why a load or an atomic that issues completes with poison at once: its port is in Down (spec/24 R425). -/
def State.unreachable (s : State) (op : AccOp) (pa : Nat) : Option Poison :=
  match op, targetOf pa with
  | .load, .peer q | .atomic _, .peer q => if (s.port q).state == .down then some .unreachable else none
  | _, _ => none

/-- One lane's parts translated. -/
def xlatParts (s : State) (g : Group) (a : Access) (ps : List Part) : Except (Nat × Nat) (List Part) :=
  match ps with
  | [] => .ok []
  | p :: _ =>
    match xlatLane s g (wantOf a.op) p.va (a.bits / 8) with
    | .error e => .error e
    | .ok f => .ok (ps.map (fun q =>
        let x := f q.off
        { q with pa := x.pa, kind := x.kind, gen := x.gen, poison := s.unreachable a.op x.pa }))

/-- A part of a scatter without the bytes that a higher lane of it has written already (R249). -/
def Part.cut (p : Part) (wrote : List (Nat × Nat × Nat)) : List Part :=
  let taken := fun (b : Nat) => wrote.any (fun x => p.lane < x.1 && x.2.1 ≤ b && b < x.2.1 + x.2.2)
  let l := (List.range p.n).filter (fun i => !taken (p.pa + i))
  if l.length = p.n then [p]
  else l.map (fun i => { p with off := p.off + i, va := p.va + i, pa := p.pa + i, n := 1, val := p.val / 2 ^ (8 * i) % 256 })

/-- An access with the parts `good` among those that have gone, for the lanes of it that are parked. -/
def Access.went (a : Access) (good : List Part) : Access :=
  if a.isStore then { a with wrote := a.wrote ++ good.map (fun p => (p.lane, p.pa, p.n)) } else a

/-- The parts that translate, those that do not, and the first failing address with its cause. -/
structure Resolved where
  good : List Part := []
  bad : List Part := []
  fail : Option (Nat × Nat) := none

def resolve (s : State) (g : Group) (a : Access) : Resolved :=
  (byLane a.parts).foldl (fun (r : Resolved) ps =>
    match xlatParts s g a ps with
    | .ok l => { r with good := r.good ++ l }
    | .error e => { r with bad := r.bad ++ ps, fail := r.fail.orElse (fun _ => some e) }) {}

/-- The core TLB keeps the translations that were used (R243). -/
def noteParts (s : State) (g : Group) (ps : List Part) : State :=
  ps.foldl (fun s p => noteXlat s g.id.core g.id.asid p.va) s

/-! ### Parking (R257, R261) -/

/-- The footprint's lanes but those of `ps`. -/
def Group.doneMask (g : Group) (ps : List Part) : Mask := g.full &&& ~~~(maskOf 768 (fun l => ps.any (fun p => p.lane == l)))

/-- A translation fault is reported to the supervisor. -/
def reportPark (s : State) (g : Group) (va cause : Nat) : State :=
  postEvent s { kind := 2, core := g.id.core, asid := g.id.asid, base := g.id.base, addr := va % 2 ^ 57, cause := cause }

/-- Access `a`, with the parts that failed, is parked under the operands of `l`. -/
def park (s : State) (k : Nat) (l : OpLog) (a : Access) (bad : List Part) (va cause : Nat) : State :=
  match s.group k with
  | none => s
  | some g =>
    let s := s.setGroup k { g with log := { l with
      valid := true
      abandon := false
      failed := false
      cause := cause
      faddr := va % 2 ^ 57
      done := g.doneMask bad
      access := some { a with parts := bad } } }
    writeLog (reportPark s g va cause) k

/-- The operands of an instruction as the log takes them. -/
def Group.logOf (g : Group) (w : W32) (base sidx sdata sdata2 : Word) : OpLog :=
  { rpt := g.rptdone
    bundlepc := g.bundlePc
    insn := w
    modhint := match g.hint with | some m => m.word | none => 0
    base := base
    sidx := sidx
    sdata := sdata
    sdata2 := sdata2 }

/-- An access joins those of its group in program order. -/
def insertAccess (a : Access) : List Access → List Access
  | [] => [a]
  | b :: t => if a.ord < b.ord then a :: b :: t else b :: insertAccess a t

/-- An access issues: its destination becomes empty, the lanes that translate are in flight, the others are parked. -/
def beginAccess (s : State) (k : Nat) (g : Group) (a : Access) (l : OpLog) : State :=
  let r := resolve s g a
  let s := noteParts s g r.good
  let a := { a with ord := g.ord }
  let s := s.modGroup k (fun g' =>
    let g' := match a.dest with | some x => g'.await g x | none => g'
    { g' with ord := g.ord + 1, accs := if r.good.isEmpty then g'.accs else g'.accs ++ [{ a with parts := r.good }] })
  match r.fail with
  | none => s
  | some (va, cause) => park s k l (a.went r.good) r.bad va cause

/-- The log holds nothing any more. -/
def clearLog (s : State) (k : Nat) : State :=
  writeLog (s.modGroup k (fun g => { g with log := { g.log with
    valid := false, abandon := false, failed := false, done := g.full, access := none } })) k

/-- The parked lanes of access `a` are translated again: those that translate are in flight, the others stay parked and
are reported again; with none left the log is no longer valid (R258). -/
def retryAccess (s : State) (k : Nat) (g : Group) (a : Access) : State :=
  let r := resolve s g a
  let s := noteParts s g r.good
  let good := if a.isStore then r.good.flatMap (fun p => p.cut a.wrote) else r.good
  let s := s.modGroup k (fun g' =>
    { g' with accs := if good.isEmpty then g'.accs else insertAccess { a with parts := good } g'.accs })
  match r.fail with
  | none => clearLog s k
  | some (va, cause) => park s k g.log (a.went r.good) r.bad va cause

/-- The parked lanes of access `a` are given up: those of a load or an atomic take zero, those of a store are dropped
(R259). -/
def abandonAccess (s : State) (k : Nat) (a : Access) : State :=
  let s := clearLog s k
  match a.dest with
  | none => s
  | some x =>
    let s := ((a.parts.map (fun p => p.lane)).eraseDups).foldl (fun s l => retireLane s k x l 0) s
    match s.group k with
    | none => s
    | some g => if g.owed x then s else retireFull s k x

/-! ### Tensor accesses (R250) -/

/-- The coordinates of a tensor access: `i` is the index field. -/
def tensorCoords (i : Nat) (r : Record) (x y : Word) : List Int :=
  if i = 0 then [0, 0, 0, 0, 0]
  else [sval 32 (bits x 31 0), sval 32 (bits x 63 32)] ++ (if 2 < r.rank then coords21 y else [])

/-- Whether a record serves a tensor access: it is accepted, and its elements are whole bytes. -/
def tensorOk (r : Record) (addr : Nat) : Bool := r.ok addr && r.etype != 13

/-- The layout fault (code 17). -/
def layoutTrap (addr : Word) : Trap := { code := 17, info0 := addr }

/-- The padding value as `tld` writes it. -/
def padValue (r : Record) : Word :=
  let n := etypeBits r.etype
  if etypeSigned r.etype then sext64 n r.pad.toNat else zext64 n r.pad.toNat

/-- A tensor access whose record has been read: `a` is its access without width and parts; parts that do not translate are
parked under `l`. -/
def tensorAccess (s : State) (k : Nat) (g : Group) (a : Access) (r : Record) (c : List Int) (data : Word) (l : OpLog) : State :=
  let n := etypeBits r.etype
  if !r.inb c then
    match a.dest with
    | some (.s d) => s.modGroup k (fun g' => g'.setS d (padValue r))
    | _ => s
  else
    let a := { a with bits := n, sext := etypeSigned r.etype }
    beginAccess s k g { a with parts := laneParts (n / 8) (0, r.addr c, data) } l

/-- The record read of a tensor access, as its gate and its body see it. -/
def tensorRecord (s : State) (g : Group) (b : BitVec 5) : State × Found :=
  useRecord s g.id.core g.id.asid (g.sreg b.toNat).toNat (!g.id.supv)

/-- What is known of the rank when the instruction issues: the record is at hand with this rank, or its read parks. -/
inductive Rank where
  | known (n : Nat)
  | parks
  | refused
  deriving DecidableEq, Repr

def tensorRank (s : State) (g : Group) (b : BitVec 5) : Rank :=
  match (tensorRecord s g b).2 with
  | .found r => if tensorOk r (g.sreg b.toNat).toNat then .known r.rank else .refused
  | .fault _ => .parks
  | .bad _ => .refused

/-- Whether sI+1 is read: the rank exceeds 2, or the record's read parks and sI+1 is live (R250). -/
def tensorNext (s : State) (g : Group) (b i : BitVec 5) : Bool :=
  let ready := g.live (sr b) && !g.empty (sr b)
  i != 0 && ready && match tensorRank s g b with
    | .known n => 2 < n
    | .parks => g.live (.s (i.toNat + 1))
    | .refused => false

/-- The source registers of a tensor access before its data. -/
def tensorRegs (s : State) (g : Group) (b i : BitVec 5) : List (Reg × Bool) :=
  [(sr b, false), (sr i, false)] ++ pick (tensorNext s g b i) (.s (i.toNat + 1), false)

/-- Whether a store of the group to the record's bytes has not reached the home from which the record would be read. -/
def recordPending (s : State) (k : Nat) (g : Group) (addr : Nat) : Bool :=
  let core := g.id.core
  !(s.core core).lcache.any (fun e => e.asid == g.id.asid && e.addr == addr) &&
    match xlat s core g.id.asid addr .read (!g.id.supv) with
    | .ok p =>
      let r : Part := { lane := 0, off := 0, va := addr, pa := p.pa, n := 64, kind := p.kind }
      !(earlierStores g.accs r).isEmpty || s.ownWaiting k core r .device
    | .error _ => false

/-- The check of a tensor access: its record. -/
def tensorGate (b : BitVec 5) (k : Nat) (g : Group) (s : State) : Gate :=
  if recordPending s k g (g.sreg b.toNat).toNat ||
    s.recordHeld g.id.core g.id.asid (g.sreg b.toNat).toNat (!g.id.supv) then .wait .earlier s
  else if !(s.hurtRecord g.id.core g.id.asid (g.sreg b.toNat).toNat).isEmpty then
    .wait .rebuild ((s.hurtRecord g.id.core g.id.asid (g.sreg b.toNat).toNat).foldl requestRebuild s)
  else match tensorRank s g b with
  | .refused => .trap (layoutTrap (g.sreg b.toNat))
  | _ => .pass

/-- The effect of a tensor access `a` whose data is `data`. -/
def tensorBody (b i : BitVec 5) (a : Access) (data : Word) (k : Nat) (g : Group) (s : State) : State :=
  let base := g.sreg b.toNat
  let x := g.sreg i.toNat
  let next := tensorNext s g b i
  let y := if next then g.sreg (i.toNat + 1) else 0
  let l := g.logOf a.insn base x data y
  let (s, f) := tensorRecord s g b
  match f with
  | .bad _ => s
  | .found r => tensorAccess s k g a r (tensorCoords i.toNat r x y) data l
  | .fault cause =>
    let a := { a with bits := 0, ord := g.ord, parts := [{ lane := 0, off := 0, va := base.toNat, pa := 0, n := 0, kind := .rc }] }
    let s := s.modGroup k (fun g' =>
      let g' := match a.dest with | some r => g'.await g r | none => g'
      { g' with ord := g.ord + 1 })
    park s k { l with sidx2dead := i != 0 && !next } a a.parts base.toNat cause

/-- A tensor access whose record was parked ends without being performed: a load's destination takes `v`. -/
def settleTensor (s : State) (k : Nat) (a : Access) (v : Word) : State :=
  let s := clearLog s k
  match a.dest with
  | none => s
  | some x =>
    let s := retireLane s k x 0 v
    match s.group k with
    | none => s
    | some g => if g.owed x then s else retireFull s k x

/-- A tensor access whose record was parked reads the record again (R250). -/
def retryTensor (s : State) (k : Nat) (g : Group) (a : Access) : State :=
  let l := g.log
  let i := bits l.insn 11 7
  let (s, f) := useRecord s g.id.core g.id.asid l.base.toNat (!g.id.supv)
  let fault := fun (_ : Unit) =>
    pendTrap (settleTensor s k a 0) k { code := 17, faultpc := l.bundlepc, insn := l.insn, info0 := l.base, info1 := 0 }
  match f with
  | .fault cause => park s k l a a.parts l.base.toNat cause
  | .bad _ => fault ()
  | .found r =>
    if !tensorOk r l.base.toNat || (2 < r.rank && l.sidx2dead) then fault ()
    else
      let c := tensorCoords i r l.sidx l.sdata2
      if !r.inb c then settleTensor s k a (padValue r)
      else
        let n := etypeBits r.etype
        retryAccess s k g { a with bits := n, sext := etypeSigned r.etype, parts := laneParts (n / 8) (0, r.addr c, l.sdata) }

/-- The parked access of group `k`, if there is one, is tried again (R258). -/
def retryParked (s : State) (k : Nat) : State :=
  match s.group k with
  | none => s
  | some g =>
    match g.log.access with
    | none => s
    | some a => if a.bits = 0 then retryTensor s k g a else retryAccess s k g a

/-- The parked access of group `k` is abandoned (R259). -/
def abandonParked (s : State) (k : Nat) : State :=
  match s.group k with
  | none => s
  | some g =>
    match g.log.access with
    | none => s
    | some a => abandonAccess s k a

/-! ### Shapes of the instructions -/

/-- The byte offset of R246: IMM5 elements, or the index value. -/
def offOf (k : Bool) (w : Wid4) (i : BitVec 5) (x : Word) : Nat := if k then i.toNat * (w.bits / 8) else x.toNat

/-- The address sB + off modulo 2^64. -/
def addrOf (base : Word) (off : Nat) : Nat := (base.toNat + off) % 2 ^ 64

/-- The lanes of a gather or scatter with their addresses and data. -/
def laneReqs (g : Group) (k : Bool) (w : Wid4) (b i : BitVec 5) (q : BitVec 3) (data : Nat → Word) : List (Nat × Nat × Word) :=
  (lanesOf g.lanes (g.eff q.toNat)).map (fun l =>
    (l, addrOf (g.sreg b.toNat) (offOf k w i (g.vreg i.toNat l)), data l))

/-- The log rows of a lane instruction: the index register, and the data register of a scatter. -/
def rowOf (g : Group) (n : BitVec 5) : List Word := tabulate g.lanes (fun l => g.vreg n.toNat l)

/-- An atomic of width 32 where `l` (R252): `f` is the operation. -/
def atomic (w : W32) (f : AtomOp) (d b i : BitVec 5) (l v : Bool) (s : Sc) :=
  let n := if l then 32 else 64
  let more := match f with | .cas => true | _ => false
  let addr := fun (g : Group) => addrOf (g.sreg b.toNat) (g.sreg i.toNat).toNat
  let dest : Option Reg := if d = 0 then none else some (sr d)
  issue w
    (fun g => { needS g ([(sr b, false), (sr i, false), (sr d, false)] ++ pick more (.s (d.toNat + 1), false)) dest false false with
      closes := true })
    (fun _ g _ => if addr g % (n / 8) ≠ 0 then .trap { code := 8, info0 := BitVec.ofNat 64 (addr g) } else .pass)
    (fun k g st =>
      let x := g.sreg d.toNat
      let y := if more then g.sreg (d.toNat + 1) else 0
      let a := g.access w (.atomic f) dest n false v s
      { s := beginAccess st k g { a with x := x, y := y, parts := laneParts (n / 8) (0, addr g, 0) }
          (g.logOf w (g.sreg b.toNat) (g.sreg i.toNat) x y) })

/-- A tensor instruction: its registers depend on the record (R250). -/
def tensor (w : W32) (op : AccOp) (d b i : BitVec 5) (l v : Bool) (sc : Sc) (s : State) : Host.Outcome State Fault Refusal :=
  match s.cur with
  | none => .fault .noIssuer
  | some k =>
    match s.group k with
    | none => .fault .noIssuer
    | some g =>
      let load := match op with | .load => true | _ => false
      let dest : Option Reg := if load && d != 0 then some (sr d) else none
      let a := g.access w op dest 0 false v sc
      let need := needS g (tensorRegs s g b i ++ pick (!load) (sr d, l)) dest false false
      .next (issueAt s k g w { need with closes := !load || v } (fun _ => tensorGate b k g s)
        (fun st => { s := tensorBody b i a (if load then 0 else g.sreg d.toNat) k g st }))

/-- Cache control and prefetch: the registers are read, and nothing changes but time (R254). -/
def cacheOp (w : W32) (b i : BitVec 5) :=
  issue w (fun g => needS g [(sr b, false), (sr i, false)] none false false) noGate (fun _ _ s => { s := s })

/-! ### The instructions -/

/-- R249: each lane of the effective mask reads at its own address. -/
def execVgather (k : Bool) (w : Wid4) (d b i : BitVec 5) (q : BitVec 3) (l v : Bool) (s : Sc) :
    State → Host.Outcome State Fault Refusal :=
  issue (encVgather k w d b i q l v s)
    (fun g => { needV g ((sr b, false) :: pick (!k) (vr i, false)) (vr d) false false q.toNat with closes := v })
    noGate
    (fun kk g st =>
      let a := g.access (encVgather k w d b i q l v s) .load (some (vr d)) w.bits l v s
      let lg := g.logOf (encVgather k w d b i q l v s) (g.sreg b.toNat) 0 0 0
      { s := beginAccess st kk g { a with parts := (laneReqs g k w b i q (fun _ => 0)).flatMap (laneParts (w.bits / 8)) }
          { lg with row0 := if k then [] else rowOf g i } })

/-- R249: each lane of the effective mask writes at its own address, as if in ascending lane order. -/
def execVscatter (k : Bool) (w : Wid4) (d b i : BitVec 5) (q : BitVec 3) (l v : Bool) (s : Sc) :
    State → Host.Outcome State Fault Refusal :=
  issue (encVscatter k w d b i q l v s)
    (fun g => { needL g ((sr b, false) :: (pick (!k) (vr i, false) ++ [(vr d, l)])) [] false q.toNat with closes := true })
    noGate
    (fun kk g st =>
      let a := g.access (encVscatter k w d b i q l v s) .store none w.bits false v s
      let lg := g.logOf (encVscatter k w d b i q l v s) (g.sreg b.toNat) 0 0 0
      { s := beginAccess st kk g
          { a with parts := (laneReqs g k w b i q (fun n => g.vreg d.toNat n)).flatMap (laneParts (w.bits / 8)) }
          { lg with row0 := if k then [] else rowOf g i, row1 := rowOf g d } })

/-- R248: reads `w` bits into D, sign-extended where `l`. -/
def execLd (k : Bool) (w : Wid4) (d b i : BitVec 5) (l v : Bool) (s : Sc) : State → Host.Outcome State Fault Refusal :=
  issue (encLd k w d b i l v s)
    (fun g => { needS g ((sr b, false) :: pick (!k) (sr i, false)) (some (sr d)) false false with closes := v })
    noGate
    (fun kk g st =>
      let x := if k then 0 else g.sreg i.toNat
      let a := g.access (encLd k w d b i l v s) .load (if d = 0 then none else some (sr d)) w.bits l v s
      { s := beginAccess st kk g
          { a with parts := laneParts (w.bits / 8) (0, addrOf (g.sreg b.toNat) (offOf k w i x), 0) }
          (g.logOf (encLd k w d b i l v s) (g.sreg b.toNat) x 0 0) })

/-- R248: writes the low `w` bits of D. -/
def execSt (k : Bool) (w : Wid4) (d b i : BitVec 5) (l v : Bool) (s : Sc) : State → Host.Outcome State Fault Refusal :=
  issue (encSt k w d b i l v s)
    (fun g => { needS g ((sr b, false) :: (pick (!k) (sr i, false) ++ [(sr d, l)])) none false false with closes := true })
    noGate
    (fun kk g st =>
      let x := if k then 0 else g.sreg i.toNat
      let a := g.access (encSt k w d b i l v s) .store none w.bits false v s
      { s := beginAccess st kk g
          { a with parts := laneParts (w.bits / 8) (0, addrOf (g.sreg b.toNat) (offOf k w i x), g.sreg d.toNat) }
          (g.logOf (encSt k w d b i l v s) (g.sreg b.toNat) x (g.sreg d.toNat) 0) })

/-- R250: reads the element that the record gives, or the padding value. -/
def execTld (d b i : BitVec 5) (v : Bool) (s : Sc) : State → Host.Outcome State Fault Refusal :=
  tensor (encTld d b i v s) .load d b i false v s

/-- R250: stores to the element that the record gives; dropped outside the bounds. -/
def execTst (d b i : BitVec 5) (l v : Bool) (s : Sc) : State → Host.Outcome State Fault Refusal :=
  tensor (encTst d b i l v s) .store d b i l v s

/-- R251, spec/13 R270: the layout-cache entry of a record, or every entry of the core, is invalid. -/
def execLflush (b : BitVec 5) : State → Host.Outcome State Fault Refusal :=
  issue (encLflush b) (fun g => needS g [(sr b, false)] none false false) noGate
    (fun _ g s => { s := s.setLayout g.id.core (if b = 0 then []
      else (s.core g.id.core).lcache.filter (fun e => !(e.asid == g.id.asid && e.addr == (g.sreg b.toNat).toNat))) })

/-- R252: adds, at the home. -/
def execAadd (d b i : BitVec 5) (l v : Bool) (s : Sc) : State → Host.Outcome State Fault Refusal :=
  atomic (encAadd d b i l v s) .add d b i l v s

/-- R252: ands, at the home. -/
def execAand (d b i : BitVec 5) (l v : Bool) (s : Sc) : State → Host.Outcome State Fault Refusal :=
  atomic (encAand d b i l v s) .and d b i l v s

/-- R252: ors, at the home. -/
def execAor (d b i : BitVec 5) (l v : Bool) (s : Sc) : State → Host.Outcome State Fault Refusal :=
  atomic (encAor d b i l v s) .or d b i l v s

/-- R252: exclusive-ors, at the home. -/
def execAxor (d b i : BitVec 5) (l v : Bool) (s : Sc) : State → Host.Outcome State Fault Refusal :=
  atomic (encAxor d b i l v s) .xor d b i l v s

/-- R252: signed minimum, at the home. -/
def execAminI (d b i : BitVec 5) (l v : Bool) (s : Sc) : State → Host.Outcome State Fault Refusal :=
  atomic (encAminI d b i l v s) .minI d b i l v s

/-- R252: unsigned minimum, at the home. -/
def execAminN (d b i : BitVec 5) (l v : Bool) (s : Sc) : State → Host.Outcome State Fault Refusal :=
  atomic (encAminN d b i l v s) .minN d b i l v s

/-- R252: signed maximum, at the home. -/
def execAmaxI (d b i : BitVec 5) (l v : Bool) (s : Sc) : State → Host.Outcome State Fault Refusal :=
  atomic (encAmaxI d b i l v s) .maxI d b i l v s

/-- R252: unsigned maximum, at the home. -/
def execAmaxN (d b i : BitVec 5) (l v : Bool) (s : Sc) : State → Host.Outcome State Fault Refusal :=
  atomic (encAmaxN d b i l v s) .maxN d b i l v s

/-- R252: swaps, at the home. -/
def execAswap (d b i : BitVec 5) (l v : Bool) (s : Sc) : State → Host.Outcome State Fault Refusal :=
  atomic (encAswap d b i l v s) .swap d b i l v s

/-- R252: compares and swaps: sD is expected, sD+1 is new, at the home. -/
def execAcas (d b i : BitVec 5) (l v : Bool) (s : Sc) : State → Host.Outcome State Fault Refusal :=
  atomic (encAcas d b i l v s) .cas d b i l v s

/-- R252: adds in f32, nearest even, at the home. -/
def execAaddf (d b i : BitVec 5) (v : Bool) (s : Sc) : State → Host.Outcome State Fault Refusal :=
  atomic (encAaddf d b i v s) .addf d b i true v s

/-- R254: brings a line into the first-level cache; no value changes. -/
def execPfc (b i : BitVec 5) : State → Host.Outcome State Fault Refusal :=
  cacheOp (encPfc b i) b i

/-- R254: brings a line into the die cache; no value changes. -/
def execPfd (b i : BitVec 5) : State → Host.Outcome State Fault Refusal :=
  cacheOp (encPfd b i) b i

/-- R254: writes dirty copies of a line back; no value changes. -/
def execCwb (b i : BitVec 5) : State → Host.Outcome State Fault Refusal :=
  cacheOp (encCwb b i) b i

/-- R254: drops clean copies of a line; no value changes. -/
def execCinv (b i : BitVec 5) : State → Host.Outcome State Fault Refusal :=
  cacheOp (encCinv b i) b i

/-- R254: writes back and drops; no value changes. -/
def execCwbinv (b i : BitVec 5) : State → Host.Outcome State Fault Refusal :=
  cacheOp (encCwbinv b i) b i

end Sys2Proof.Machine
end

