-- ==== Sys2Proof/Machine/Sums.lean ====
section
/-!
DEFINITION. The update of an accumulator element (spec/08 R182).
-/

namespace Sys2Proof.Machine

def Num.isInf : Num → Bool
  | .inf _ => true
  | _ => false

/-- The floor of the base-2 logarithm of a nonzero finite term. -/
def Num.top : Num → Option Int
  | .fin _ m e _ => if m = 0 then none else some (ilog m e)
  | _ => none

/-- A finite term cut toward zero at `2^q`, in units of `2^q`, and whether a nonzero bit went. -/
def Num.cut (q : Int) : Num → Int × Bool
  | .fin neg m e _ =>
    let s := (q - e).toNat
    let x := m * 2 ^ (e - q).toNat
    let v : Int := (x / 2 ^ s : Nat)
    (if neg then -v else v, x % 2 ^ s != 0)
  | _ => (0, false)

def maxInt : List Int → Option Int
  | [] => none
  | a :: t => match maxInt t with
    | none => some a
    | some b => some (max a b)

/-- The new f32 of an element: its old value and the terms of one K-step. -/
def sumTerms (terms : List Num) (bad : Bool) : Nat × Fx :=
  if bad || terms.any Num.isNan || (terms.any (fun t => t == .inf false) && terms.any (fun t => t == .inf true)) then
    (Fmt.f32.nanCode, fxInvalid)
  else if terms.any Num.isInf then (if terms.any (fun t => t == .inf true) then 0xFF800000 else 0x7F800000, fxNone)
  else match maxInt (terms.filterMap Num.top) with
    | none => (if terms.all Num.isNeg then 0x80000000 else 0, fxNone)
    | some e =>
      let q := e - 48
      let cuts := terms.map (Num.cut q)
      let s := (cuts.map (·.1)).foldl (· + ·) 0
      let r := Fmt.f32.round (.fin (s < 0) s.natAbs q false) .rne 0 false
      (r.1, r.2 ||| (if cuts.any (·.2) then fxInexact else fxNone))

/-- R182: `c` the old element, `ps` the pairs of factors of the step. -/
def kStep (c : Nat) (ps : List (Num × Num)) : Nat × Fx :=
  let prods := ps.map (fun p => Num.mul p.1 p.2)
  sumTerms (Fmt.f32.decode c :: prods.map (·.1)) (prods.any (fun p => p.1 == .nan))

end Sys2Proof.Machine
end

