-- ==== Sys2Proof/Machine/Copy.lean ====
section
/-!
DEFINITION. The copy engine and near memory: majors 0x30 to 0x32 and their events (spec/13 R271 to R289).
-/

namespace Sys2Proof.Machine

/-! ### What the engine touches (R272 to R274, R328) -/

/-- An element's place: bits of a plane word (none where the offset lies beyond its rectangle), an element in memory (with
the half of its byte, for e2m1), bytes of a raw packet at their home, or no place: the value of padding, or a write that is
dropped. -/
inductive Place where
  | word (core : Nat) (p : Option Pos) (lo n : Nat)
  | mem (va n : Nat) (half : Option Nat)
  | home (pa n : Nat)
  | pad (v : Nat)
  deriving DecidableEq, Repr

/-- Element `e` of width `n` bits of a rectangle's linear view, from bit `from_`. -/
def linPlace (s : State) (core : Nat) (x : Cmd) (r : Rect) (from_ n e : Nat) : Place :=
  let o := from_ + e * n
  .word core (if o / 64 < r.size then some (r.linear x.skew (s.linKey x.team) (o / 64)) else none) (o % 64) n

/-- Box element `e` of a record from an origin. -/
def recPlace (r : Record) (org : List Int) (e : Nat) : Place :=
  let d := r.digits e
  let c := (List.range 5).map (fun i => org.getD i 0 + (d.getD i 0 : Int))
  let w := etypeBits r.etype
  if !r.inb c then .pad (r.pad.toNat % 2 ^ w)
  else .mem (r.addr c) (max 1 (w / 8)) (if w = 4 then some ((c.getD 0 0).toNat % 2) else none)

def Cmd.rectB (x : Cmd) : Rect := (rectOf x.b).getD ⟨0, 0, 1, 1, 0, 1⟩
def Cmd.rectA (x : Cmd) : Rect := (rectOf x.a).getD ⟨0, 0, 1, 1, 0, 1⟩
def Cmd.rectC (x : Cmd) : Rect := (rectOf x.c).getD ⟨0, 0, 1, 1, 0, 1⟩

/-- The core that a `cpy.pp` names. -/
def Cmd.peerCore (x : Cmd) (core : Nat) : Nat := 24 * dieOf core + bits x.c 4 0

/-- The sources and destinations of a copy command's elements. -/
def Cmd.moves (s : State) (core : Nat) (x : Cmd) : List (Place × Place) :=
  match x.fn with
  | 0 => (List.range (Record.elems x.recA)).map (fun e =>
      (recPlace x.recA (coords21 x.c) e, linPlace s core x x.rectB 0 (etypeBits (Record.etype x.recA)) e))
  | 1 => (List.range (Record.elems x.recA)).map (fun e =>
      (linPlace s core x x.rectB 0 (etypeBits (Record.etype x.recA)) e, recPlace x.recA (coords21 x.c) e))
  | 2 => (List.zip x.rectA.words x.rectB.words).map (fun p =>
      (.word core (some p.1) 0 64, .word (x.peerCore core) (some p.2) 0 64))
  | _ => (List.range (Record.elems x.recA)).map (fun e =>
      (recPlace x.recA (coords21 x.c) e, recPlace x.recB [] e))

/-- Bytes of memory at a virtual address for an engine: the parts on one page or two with their physical addresses, or a
status (R283). -/
def engineAt (s : State) (core : Nat) (g : Group) (va n : Nat) (write : Bool) : Except Nat (List (Nat × Nat)) :=
  let m := firstPart va n
  let code := fun (pa n : Nat) => match poisonAt s pa n with
    | some .data => some (if write then 2 else 1)
    | some _ => some 5
    | none => if s.refusedAt pa va then some (if write then 2 else 1) else none
  let w := if write then Want.write else .read
  match xlat s core g.id.asid va w (!g.id.supv) with
  | .error _ => .error 3
  | .ok p =>
    match code p.pa m with
    | some c => .error c
    | none =>
      if m = n then .ok [(p.pa, n)]
      else match xlat s core g.id.asid (va + m) w (!g.id.supv) with
        | .error _ => .error 3
        | .ok q => match code q.pa (n - m) with
          | some c => .error c
          | none => .ok [(p.pa, m), (q.pa, n - m)]

/-- The bytes of physical parts, at the homes. -/
def readParts (s : State) : List (Nat × Nat) → Nat
  | [] => 0
  | (pa, n) :: t => readLe (homeByte s) pa n + 2 ^ (8 * n) * readParts s t

/-- Bytes written at the homes and at the engine's core and die views. -/
def writeParts (s : State) (core : Nat) : List (Nat × Nat) → Nat → State
  | [], _ => s
  | (pa, n) :: t, v => writeParts (writePath s core pa (leBytes n (v % 2 ^ (8 * n)))) core t (v / 2 ^ (8 * n))

/-- Whether the command's team (on its own core) or a team of its grid (elsewhere) holds a plane word. -/
def Cmd.holds (s : State) (x : Cmd) (core there : Nat) (p : Pos) : Option Nat :=
  match Tab.get (s.core there).plane p.key with
  | none => none
  | some w =>
    if !p.exist then none
    else if x.fn = 2 && !x.near then
      (if (match s.team w.own, s.team x.team with | some a, some b => a.grid == b.grid | _, _ => false) then some w.own else none)
    else if core = there && w.own = x.team then some w.own else none

/-- The value at a place, whether it lay out of range, or a status. -/
def readPlace (s : State) (core : Nat) (g : Group) (x : Cmd) : Place → Except Nat (Nat × Bool)
  | .pad v => .ok (v, false)
  | .word c p lo n =>
    match p with
    | none => .ok (0, true)
    | some p =>
      match (s.core c).word x.team p with
      | none => .ok (0, true)
      | some w =>
        if (match s.planeErr c p.key with | some e => e.marked | none => false) then .error 1
        else .ok (if w.live then subWord w.val lo n else 0, false)
  | .mem va n half =>
    match engineAt s core g va n false with
    | .error c => .error c
    | .ok ps =>
      let v := readParts s ps
      .ok (match half with | some h => v / 16 ^ h % 16 | none => v, false)
  | .home pa n =>
    match poisonAt s pa n with
    | some .data => .error 1
    | some _ => .error 5
    | none => .ok (readLe (homeByte s) pa n, false)

/-- The status of a write at a place, where it fails; whether the place is out of range.  `whole`: the write that it is a part of
covers its plane word, or its granule, whole. -/
def writeFails (s : State) (core : Nat) (g : Group) (x : Cmd) (whole : Bool) : Place → Option Nat × Bool
  | .pad _ => (none, false)
  | .word c p _ _ =>
    match p with
    | none => (none, true)
    | some p =>
      match x.holds s core c p with
      | none => (none, true)
      | some _ =>
        (if !whole && (match s.planeErr c p.key with | some e => e.marked | none => false) then some 2
          else none, false)
  | .mem va n _ =>
    match engineAt s core g va n true with
    | .error c => (some c, false)
    | .ok _ => (none, false)
  | .home pa n =>
    match if whole then storePoison s pa n else poisonAt s pa n with
    | some .data => (some 2, false)
    | some _ => (some 5, false)
    | none => (none, false)

/-- A value written at a place. -/
def writePlace (s : State) (core : Nat) (g : Group) (x : Cmd) (v : Nat) : Place → State
  | .pad _ => s
  | .word c p lo n =>
    match p with
    | none => s
    | some p =>
      match x.holds s core c p with
      | none => s
      | some t => s.modCore c (fun k => if n = 64 then k.pwrite t p (BitVec.ofNat 64 v) else k.psub t p lo n v)
  | .mem va n half =>
    match engineAt s core g va n true with
    | .error _ => s
    | .ok ps =>
      let old := readParts s ps
      writeParts s core ps (match half with
        | some h => old - old / 16 ^ h % 16 * 16 ^ h + v % 16 * 16 ^ h
        | none => v)
  | .home pa n => writeHome s pa (leBytes n v)

/-- The destination bytes a write at a place counts for, each under a key of its own (R282). -/
def Place.bytes : Place → List Nat
  | .pad _ => []
  | .word _ p lo n => match p with
    | none => []
    | some p => (List.range (max 1 (n / 8))).map (fun i => 8 * p.key + lo / 8 + i)
  | .mem va n _ => (List.range n).map (fun i => va + i)
  | .home pa n => (List.range n).map (fun i => pa + i)

/-! ### `nmv` (R286) -/

/-- K, M and V of an `nmv`. -/
def Cmd.kmv (x : Cmd) : Nat × Nat × Nat :=
  let k := Record.size x.recA 0
  (k, Record.size x.recA 1, 8 * x.rectB.size / (2 * max 1 k))

/-- The places of A (by `v * K + k`) and of B (by `m * K + k`). -/
def Cmd.nmvA (s : State) (core : Nat) (x : Cmd) : List Place :=
  (List.range (4 * x.rectB.size)).map (fun e => linPlace s core x x.rectB 0 16 e)
def Cmd.nmvB (x : Cmd) : List Place := (List.range (Record.elems x.recA)).map (fun e => recPlace x.recA [] e)

/-- The heaps that B's elements lie in; 24 stands for any other place. -/
def Cmd.nmvHeaps (s : State) (core : Nat) (g : Group) (x : Cmd) : List Nat :=
  (x.nmvB.flatMap (fun p => match p with
    | .mem va n _ => (match engineAt s core g va n false with
      | .ok ps => ps.map (fun q => match targetOf q.1 with | .heap h => h | _ => 24)
      | .error _ => [])
    | _ => [])).eraseDups

/-- One element of Y: K in steps of 64. -/
def nmvSteps (a b : List Nat) : Nat → Nat → Nat × Fx → Nat × Fx
  | 0, _, acc => acc
  | n + 1, k0, acc =>
    let ps := (List.zip ((a.drop k0).take 64) ((b.drop k0).take 64)).map (fun p => (Fmt.bf16.decode p.1, Fmt.bf16.decode p.2))
    let r := kStep acc.1 ps
    nmvSteps a b n (k0 + 64) (r.1, acc.2 ||| r.2)

/-- Y by rows of V, and its flags. -/
def nmvOut (k m v : Nat) (a b : List Nat) : List (Nat × Fx) :=
  (List.range v).flatMap (fun i => (List.range m).map (fun j =>
    nmvSteps ((a.drop (i * k)).take k) ((b.drop (j * k)).take k) ((k + 63) / 64) 0 (0, fxNone)))

/-! ### Items (R277, R283, R328) -/

def Cmd.raw (x : Cmd) : Bool := x.near && x.fn != 0

/-- The 32 linear bytes of a raw packet in the plane, and at the home. -/
def Cmd.granule (s : State) (core : Nat) (x : Cmd) : List Place :=
  (List.range 4).map (fun i => linPlace s core x x.rectB (8 * x.c.toNat) 64 i)
def Cmd.atHome (x : Cmd) : List Place := (List.range 4).map (fun i => .home (x.pa.getD 0 + 8 * i) 8)

/-- The bytes that `nmwrm` writes, of eight. -/
def Cmd.masked (x : Cmd) : List Nat := (List.range 8).filter (fun i => x.c.toNat.testBit i)

/-- What a command reads, and what it writes. -/
def Cmd.sources (s : State) (core : Nat) (x : Cmd) : List Place :=
  if x.early.isSome then []
  else if !x.near then (x.moves s core).map (·.1)
  else match x.fn with
    | 0 => x.nmvA s core ++ x.nmvB
    | 1 => x.atHome
    | 2 => x.granule s core
    | _ => []
def Cmd.dests (s : State) (core : Nat) (x : Cmd) : List Place :=
  if x.early.isSome then []
  else if !x.near then (x.moves s core).map (·.2)
  else match x.fn with
    | 0 => (List.range (x.kmv.2.2 * x.kmv.2.1)).map (fun i => linPlace s core x x.rectC 0 32 i)
    | 1 => x.granule s core
    | 2 => x.atHome
    | _ => x.masked.map (fun i => .home (x.pa.getD 0 + i) 1)

/-- The word or granule that a place lies in: each is read at one time, and written at one time. -/
def Place.unit : Place → Nat × Nat × Nat
  | .pad _ => (0, 0, 0)
  | .word c (some p) _ _ => (1, c, p.key)
  | .word _ none _ _ => (2, 0, 0)
  | .mem va _ _ => (3, va / 8, 0)
  | .home pa _ => (4, pa / 32, 0)

/-- The places of the word that place `i` lies in. -/
def unitOf (ps : List Place) (i : Nat) : List Nat :=
  match ps[i]? with
  | none => []
  | some p => (List.range ps.length).filter (fun j => (ps.getD j (.pad 0)).unit == p.unit)

/-- Whether the places `is` cover their plane word whole, or, of a raw packet, their granule. -/
def coverUnit (ps : List Place) (is : List Nat) : Bool :=
  64 ≤ (is.map (fun i => match ps.getD i (.pad 0) with | .word _ (some _) _ n => n | _ => 0)).foldl (· + ·) 0 ||
    32 ≤ (is.map (fun i => match ps.getD i (.pad 0) with | .home _ n => n | _ => 0)).foldl (· + ·) 0

/-- The value that goes to destination `i`, where it is known. -/
def Cmd.value (x : Cmd) (i : Nat) : Option Nat :=
  if x.near && x.fn == 0 then x.outs[i]?
  else if x.near && x.fn == 3 then (x.masked[i]?).map (fun j => bits x.b (8 * j + 7) (8 * j))
  else x.buf.getD i none

/-- All sources have been read. -/
def Cmd.read (s : State) (core : Nat) (x : Cmd) : Bool :=
  x.buf.all (·.isSome) && x.buf.length == (x.sources s core).length

/-- A command has met a failure that stops it, or has moved everything: its completion word and its tag remain. -/
def Cmd.over (s : State) (core : Nat) (x : Cmd) : Bool :=
  x.early.isSome || x.status != 0 || (x.read s core && x.wrote.length == (x.dests s core).length)

/-- Whether the byte at a virtual address, where it translates, has a property. -/
def someByte (s : State) (core : Nat) (g : Group) (va : Nat) (f : Nat → Bool) : Bool :=
  [Want.read, Want.write].any (fun k => match xlat s core g.id.asid va k false with
    | .ok p => f p.pa
    | .error _ => false)

/-- Whether one end of a place in memory lies on a page of kind SO; a raw packet's granule does as its command says. -/
def Place.strong (s : State) (core : Nat) (g : Group) (x : Cmd) (write : Bool) : Place → Bool
  | .mem va n _ => [va, va + n - 1].any (fun a => match xlat s core g.id.asid a (if write then .write else .read) (!g.id.supv) with
    | .ok p => p.kind == .so
    | .error _ => false)
  | .home _ _ => x.so
  | _ => false

/-- Whether a command has an access to a page of kind SO still to perform (spec/12 R243). -/
def Cmd.strongLeft (s : State) (core : Nat) (g : Group) (x : Cmd) : Bool :=
  let left := fun (write : Bool) (ps : List Place) (done : Nat → Bool) =>
    ((((List.range ps.length).filter (fun i => !done i)).map (fun i => match ps.getD i (.pad 0) with
      | .mem va n _ => Place.mem (va / 65536 * 65536) (va % 65536 + n) none
      | p => p)).eraseDups).any (fun p => p.strong s core g x write)
  !x.over s core && (left false (x.sources s core) (fun i => (x.buf.getD i none).isSome) ||
    left true (x.dests s core) (fun i => x.wrote.any (fun w => w.1 == i)))

/-- A command that has moved on. -/
def Cmd.went (s : State) (core : Nat) (g : Group) (x : Cmd) : Cmd := { x with so := x.so && x.strongLeft s core g }

/-- Whether one end of a place in memory has a property. -/
def Place.someEnd (s : State) (core : Nat) (g : Group) (f : Nat → Bool) : Place → Bool
  | .mem va n _ => someByte s core g va f || someByte s core g (va + n - 1) f
  | _ => false

/-- The plane words of places, each with its core. -/
def planeWords (ps : List Place) : List (Nat × Nat) :=
  ps.flatMap (fun p => match p with | .word c (some p) _ _ => [(c, p.key)] | _ => [])

/-- Whether a word must not be touched yet: a running command earlier in issue order writes it, or, for a write, reads it
(R278). -/
def Cmd.behind (s : State) (core idx : Nat) (k : Nat × Nat) (write : Bool) : Bool :=
  ((s.core core).copies.take idx).any (fun y =>
    (planeWords (y.dests s core)).contains k || write && (planeWords (y.sources s core)).contains k)

/-- Whether an access to a page of kind SO has to wait: for one of an earlier command of its group (spec/15 R317), or for a store that
it would write outward first. -/
def Cmd.strongWait (s : State) (core idx : Nat) (x : Cmd) (write : Bool) : Bool :=
  ((s.core core).copies.take idx).any (fun y => y.group == x.group && y.so) ||
    write && s.heldBy core (fun y => y.group == x.group) true (Store.carried x.group)

/-- Whether the word that a place lies in is not at hand: an earlier command, a scroll, its clearing or a rebuild comes first, or it
lies behind a port in recovery (spec/24 R425), or a store that waits for one. -/
def Cmd.notYet (s : State) (core idx : Nat) (g : Group) (x : Cmd) (write whole : Bool) (p : Place) : Bool :=
  p.someEnd s core g s.stalledPort ||
    write && p.someEnd s core g (fun pa => s.clogged core (pa / 8 * 8) 8) ||
    p.strong s core g x write && Cmd.strongWait s core idx x write ||
    (planeWords [p]).any (fun k =>
      Cmd.behind s core idx k write || (s.core k.1).scrolled [k.2] ||
        !write && (match Tab.get (s.core k.1).plane k.2 with | some w => w.clr | none => false) ||
        write && s.rebuildHolds (.plane k.1 k.2) whole ||
        !whole && (match s.planeErr k.1 k.2 with | some e => !e.marked | none => false))

/-- Rebuilds of the plane words among places are requested where they are damaged (spec/23 R409, R410). -/
def mendFirst (s : State) (ps : List Place) : State :=
  (planeWords ps).foldl (fun s k => match s.planeErr k.1 k.2 with
    | some e => if e.marked then s else requestRebuild s (.plane k.1 k.2)
    | none => s) s

/-- Whether a packet's granule is one that a packet before it writes (R288). -/
def Cmd.follows (x y : Cmd) : Bool :=
  match x.pa, y.pa with
  | some a, some b => y.fn != 1 && a / 32 == b / 32
  | _, _ => false

/-- The least of some status codes, or 0. -/
def leastCode : List Nat → Nat
  | [] => 0
  | c :: t => t.foldl min c

/-- The results of an `nmv` whose operands have been read. -/
def Cmd.compute (s : State) (core : Nat) (x : Cmd) : Cmd :=
  if !(x.near && x.fn == 0 && x.read s core) then x
  else
    let (k, m, v) := x.kmv
    let n := 4 * x.rectB.size
    let vs := x.buf.map (fun o => o.getD 0)
    let y := nmvOut k m v (vs.take n) (vs.drop n)
    { x with outs := y.map (·.1), fpx := (y.map (·.2)).foldl (· ||| ·) fxNone }

/-- Command `idx` reads the word that its source `i` lies in; a failure stops it (R283). -/
def readItem (s : State) (core idx : Nat) (g : Group) (x : Cmd) (i : Nat) : State :=
  let ps := x.sources s core
  let is := (unitOf ps i).filter (fun j => (x.buf.getD j none).isNone)
  let mine := is.map (fun j => ps.getD j (.pad 0))
  if mine.any (Cmd.notYet s core idx g x false false) then mendFirst s mine
  else
    let rs := mine.map (readPlace s core g x)
    let code := leastCode (rs.filterMap (fun r => match r with | .error c => some c | .ok _ => none))
    let vs := List.zip is (rs.map (fun r => match r with | .ok v => v.1 | .error _ => 0))
    let x' := if code ≠ 0 then { x with status := code } else
      { x with
        buf := vs.foldl (fun b v => setAt b v.1 (some v.2)) x.buf
        short := x.short || rs.any (fun r => match r with | .ok v => v.2 | .error _ => false) }
    let s' := s.modCore core (fun c => { c with copies := setAt c.copies idx ((x'.compute s core).went s core g) })
    let s' := if mine.any (Place.strong s core g x false) then acquireViews s' x.group .device else s'
    let ws := (planeWords mine).eraseDups
    let s' := ws.foldl (fun s k => s.modCore k.1 (fun c => c.readP (planeBank k.2))) s'
    let lost := ws.filter (fun k => match s.planeErr k.1 k.2 with | some e => e.marked | none => false)
    (noteUncorr s' core lost.length).tickFresh

/-- Command `idx` writes the word that its destination `i` lies in, once the values for it are known; a failure stops it (R283), as
does a mismatch of a redundant `nmv` (R286). -/
def writeItem (s : State) (core idx : Nat) (g : Group) (x : Cmd) (i : Nat) : State :=
  let ps := x.dests s core
  let is := (unitOf ps i).filter (fun j => !x.wrote.any (fun w => w.1 == j))
  let mine := is.map (fun j => ps.getD j (.pad 0))
  let whole := coverUnit ps is
  if mine.any (Cmd.notYet s core idx g x true whole) then (if whole then s else mendFirst s mine)
  else if is.any (fun j => (x.value j).isNone) then s
  else
    let fs := mine.map (writeFails s core g x whole)
    let code := leastCode (fs.filterMap (·.1))
    let code := if code = 0 && x.near && x.fn == 0 && Record.red x.recA && Config.redMismatch s.fresh then 6 else code
    let out := if code ≠ 0 then s else
      let out := if mine.any (Place.strong s core g x true) then pushPath s core x.group .device else s
      let out := (List.zip is mine).foldl (fun st p => writePlace st core g x ((x.value p.1).getD 0) p.2) out
      let out := match whole, mine with
        | true, .home pa _ :: _ => coverPoison out (pa / 32 * 32) 32
        | _, _ => out
      (planeWords mine).foldl (fun st k => if whole then mendPlane st k.1 (fun j => j == k.2) else st) out
    let x' := if code ≠ 0 then { x with status := code } else
      { x with
        wrote := x.wrote ++ List.zip is (fs.map (fun f => !f.2))
        short := x.short || fs.any (·.2) }
    (out.modCore core (fun c => { c with copies := setAt c.copies idx (x'.went s core g) })).tickFresh

/-- The bytes that a command has written (R282). -/
def Cmd.count (s : State) (core : Nat) (x : Cmd) : Nat :=
  let ps := x.dests s core
  (x.wrote.flatMap (fun w => if w.2 then (ps.getD w.1 (.pad 0)).bytes else [])).eraseDups.length

/-- The status that a command ends with (R283). -/
def Cmd.code (x : Cmd) : Nat :=
  let c := x.early.getD x.status
  if x.short then (if c = 0 then 4 else min c 4) else c

/-- A command that starts: nothing has been read; an `nmv` whose B does not lie in one heap moves nothing (R286). -/
def Cmd.begin (s : State) (core : Nat) (g : Group) (x : Cmd) : Cmd :=
  let hs := if x.near && x.fn == 0 && x.early.isNone then x.nmvHeaps s core g else []
  { x with
    running := true
    buf := List.replicate (x.sources s core).length none
    status := if 1 < hs.length || hs.contains 24 then 4 else 0 }

/-! ### Issue (R275, R276, R280, R289) -/

/-- A raw packet with the physical address that its translation gives, or what is known to fail (R287). -/
def Cmd.packet (s : State) (g : Group) (x : Cmd) : Cmd :=
  let masked := x.fn = 3
  let n := if masked then 8 else 32
  let ok := x.a.toNat % n == 0 && (if masked then bits x.c 63 8 == 0 else x.c.toNat % 32 == 0 && (rectOf x.b).isSome)
  match xlat s g.id.core g.id.asid x.a.toNat (if x.fn = 1 then .read else .write) (!g.id.supv) with
  | .error _ => { x with early := some 3 }
  | .ok p => match targetOf p.pa with
    | .heap _ => { x with early := if ok then none else some 4, pa := some p.pa, so := p.kind == .so }
    | _ => { x with early := some 4 }

/-- The snapshot of a command: its records, then what is known to fail. -/
def prepare (s : State) (g : Group) (x : Cmd) : State × Cmd :=
  let core := g.id.core
  let use := fun (s : State) (v : Word) =>
    let r := useRecord s core g.id.asid v.toNat (!g.id.supv)
    match r.2 with
    | .found d => (r.1, d, if Record.ok d v.toNat then none else some 4)
    | .fault _ => (r.1, [], some 3)
    | .bad none => (r.1, [], some 4)
    | .bad (some .data) | .bad (some .peerFault) => (r.1, [], some 1)
    | .bad (some _) => (r.1, [], some 5)
  let least := fun (a b : Option Nat) => match a, b with
    | some i, some j => some (min i j)
    | some i, none => some i
    | none, y => y
  let chk := fun (b : Bool) => if b then (none : Option Nat) else some 4
  if !x.near && x.fn = 2 then
    match rectOf x.a, rectOf x.b with
    | some p, some q => (s, { x with early := chk (p.w == q.w && p.h == q.h && p.dc == q.dc && bits x.c 63 5 == 0 && bits x.c 4 0 < 24) })
    | _, _ => (s, { x with early := some 4 })
  else if !x.raw then
    let (s, ra, e) := use s x.a
    let x := { x with recA := ra }
    if e.isSome then (s, { x with early := least e (if x.near then none else chk (!flag x.c 63)) })
    else if x.near then
      let (k, m, v) := x.kmv
      (s, { x with early := chk (Record.rank ra == 2 && Record.etype ra == 9 && (rectOf x.b).isSome && (rectOf x.c).isSome &&
        8 * x.rectB.size % (2 * max 1 k) == 0 && 1 ≤ v && v ≤ 8 && 4 * v * m ≤ 8 * x.rectC.size) })
    else
      let e := chk (!flag x.c 63)
      if x.fn = 3 then
        let (s, rb, e') := use s x.b
        let same := if e'.isSome then none else chk (Record.etype ra == Record.etype rb && Record.elems ra == Record.elems rb)
        (s, { x with recB := rb, early := least e (least e' same) })
      else
        let fits := (rectOf x.b).isSome && Record.elems ra * etypeBits (Record.etype ra) ≤ 64 * x.rectB.size
        (s, { x with early := least e (chk fits) })
  else (s, x.packet s g)

/-- Whether a record names host or peer memory (R276). -/
def farRecord (s : State) (g : Group) (r : Record) : Bool :=
  !r.isEmpty && match xlat s g.id.core g.id.asid r.base .read (!g.id.supv) with
    | .ok p => (match targetOf p.pa with | .heap _ => false | _ => true)
    | .error _ => false

/-- Whether a read of one of a command's records waits for a port (spec/24 R425). -/
def Cmd.recordsHeld (x : Cmd) (s : State) (g : Group) : Bool :=
  let held := fun (v : Word) => s.recordHeld g.id.core g.id.asid v.toNat (!g.id.supv)
  !x.raw && (x.near || x.fn != 2) && (held x.a || !x.near && x.fn == 3 && held x.b)

/-- The damage of the cached entries of a command's records, whose rebuilds it waits for (spec/23 R410). -/
def Cmd.hurtRecords (x : Cmd) (s : State) (g : Group) : List ErrSite :=
  let hurt := fun (v : Word) => s.hurtRecord g.id.core g.id.asid v.toNat
  if x.raw || (!x.near && x.fn == 2) then [] else hurt x.a ++ (if !x.near && x.fn == 3 then hurt x.b else [])

/-- The scope of a command. -/
def Cmd.scopeOf (x : Cmd) : Scope := if x.sys then .system else .device

/-- Whether every packet tag of a packet's stack is in use (R288). -/
def State.packetLimit (s : State) (core : Nat) (x : Cmd) : Option Limit :=
  match x.pa with
  | some a => if s.limited core (.packets (a / 2 ^ 36)) then some (.packets (a / 2 ^ 36)) else none
  | none => none

/-- The full queue that a command waits for (spec/06 R122). -/
def State.commandLimit (s : State) (core : Nat) (x : Cmd) : Option Limit :=
  if s.limited core .copy then some .copy else s.packetLimit core x

/-- The not-held trap: kind and number (R140, spec/21 R379). -/
def notHeld (kind n : Nat) : Trap := { code := 10, info0 := BitVec.ofNat 64 (kind + n * 2 ^ 8) }

/-- The command that a copy-slot word issues. -/
def cmdOf (w : W32) (near : Bool) (fn : Nat) (a : BitVec 5) (t : BitVec 6) (c : BitVec 5) (k : Nat) (g : Group) : Cmd :=
  { group := k
    team := g.id.team
    near := near
    fn := fn
    tag := t.toNat
    cw := if c = 0 then none else some (g.sreg c.toNat)
    a := g.sreg a.toNat
    b := g.sreg (a.toNat + 1)
    c := g.sreg (a.toNat + 2)
    skew := g.skew
    sys := match g.hint with | some m => m.scope == .at .system | none => false
    ord := g.ord
    pc := g.bundlePc
    insn := w }

/-- A command with its snapshot, and the state after its records were read. -/
def snapshot (s : State) (g : Group) (x : Cmd) : State × Cmd :=
  let (s, x) := prepare s g x
  let x := { x with sys := x.sys || farRecord s g x.recA || farRecord s g x.recB, so := x.so || !x.raw }
  (s, x.went s g.id.core g)

/-- A copy or near-memory command issues. -/
def command (w : W32) (near : Bool) (fn : Nat) (a : BitVec 5) (t : BitVec 6) (c : BitVec 5) :=
  let r := fun n => (Reg.s (a.toNat + n), false)
  issue w
    (fun g => { needS g ([r 0, r 1, r 2] ++ pick (c != 0) (sr c, false)) none false false with closes := true })
    (fun k g s =>
      let x := (snapshot s g (cmdOf w near fn a t c k g)).2
      match s.commandLimit g.id.core x with
      | some q => .wait (.queue q) s
      | none =>
      if !(match s.team g.id.team with | some y => y.tagHeld.getLsbD t.toNat | none => false) then .trap (notHeld 1 t.toNat)
      else if !s.releaseReady k g g.ord x.scopeOf || x.recordsHeld s g then .wait .earlier s
      else if !(x.hurtRecords s g).isEmpty then .wait .rebuild ((x.hurtRecords s g).foldl requestRebuild s)
      else .pass)
    (fun k g s =>
      let (s, x) := snapshot (releaseStores s k .device) g (cmdOf w near fn a t c k g)
      let s := releaseStores s k x.scopeOf
      let s := s.modTeam g.id.team (fun y => { y with
        tagReady := setBit y.tagReady t.toNat false
        tagCount := Tab.set y.tagCount t.toNat (Tab.getD y.tagCount t.toNat 0 + 1) })
      { s := s.modCore g.id.core (fun k => { k with copies := k.copies ++ [{ x with seq := k.seq }], seq := k.seq + 1 }) })

/-! ### Completion (R279 to R284) -/

/-- A command on a tag has completed. -/
def countDown (s : State) (t tag : Nat) : State :=
  s.modTeam t (fun y =>
    let n := Tab.getD y.tagCount tag 0 - 1
    { y with tagCount := Tab.set y.tagCount tag n, tagReady := if n = 0 then setBit y.tagReady tag true else y.tagReady })

/-- The completion word of R282. -/
def Cmd.word (x : Cmd) (status n : Nat) : Word :=
  BitVec.ofNat 64 (status + (x.fn + (if x.near then 4 else 0)) * 2 ^ 8 + x.tag * 2 ^ 16 + n % 2 ^ 32 * 2 ^ 32)

/-- The completion word is written; none where it is misaligned or its write fails: by translation, at its target, or by a timeout. -/
def writeCw (s : State) (core : Nat) (g : Group) (lost : Bool) (cw v : Word) : Option State :=
  if cw.toNat % 8 ≠ 0 then none
  else match xlat s core g.id.asid cw.toNat .write (!g.id.supv) with
    | .error _ => none
    | .ok p =>
      if lost || (storePoison s p.pa 8).isSome || s.refusedAt p.pa cw.toNat then none
      else some (writePath s core p.pa (leBytes 8 v.toNat))

/-- A command ends with a status and a count of bytes: its completion word, or a copy fault; then its tag. -/
def endCmd (s : State) (core : Nat) (g : Group) (x : Cmd) (status n : Nat) : State :=
  let v := x.word status n
  let fault := fun (s : State) => pendTrap s x.group {
    code := 18, faultpc := x.pc, insn := x.insn, info0 := v, info1 := x.cw.getD 0 }
  let s := match x.cw with
    | none => if status = 0 then s else fault s
    | some cw => match writeCw s core g x.lost cw v with
      | some s => s
      | none => fault s
  countDown s x.team x.tag

/-- Host or peer memory. -/
def farTarget (pa : Nat) : Bool :=
  match targetOf pa with
  | .host | .peer _ => true
  | _ => false

/-- Whether a command's completion word lies at a place with a property. -/
def Cmd.wordAt (s : State) (core : Nat) (g : Group) (x : Cmd) (f : Nat → Bool) : Bool :=
  match x.cw with | some cw => someByte s core g cw.toNat f | none => false

/-- Whether an access of a command that has not been performed has a property: one of those it moves with, or, after them, the write
of its completion word. -/
def Cmd.touches (s : State) (core : Nat) (g : Group) (x : Cmd) (f : Nat → Bool) : Bool :=
  if x.over s core then x.wordAt s core g f
  else (x.sources s core ++ x.dests s core).any (Place.someEnd s core g f)

/-- Whether the end of a command waits for a port in recovery (spec/24 R425), its completion word, or a store that the word would
carry out with it, lying behind it. -/
def Cmd.held (s : State) (core : Nat) (g : Group) (x : Cmd) : Bool :=
  !x.lost && x.wordAt s core g (fun pa => s.stalledPort pa || s.clogged core (pa / 8 * 8) 8)

/-- A running command one of whose accesses has timed out: of those it moves with, or of its completion word. -/
def Cmd.timeOut (s : State) (core : Nat) (x : Cmd) : Cmd :=
  if x.over s core then { x with lost := true } else { x with status := 5 }

/-- The commands of a group in a core's engine, each with its place. -/
def cmdsOf (q : List Cmd) (k : Nat) : List (Nat × Cmd) :=
  ((List.range q.length).zip q).filter (fun e => e.2.group == k)

/-- A running command that has moved all, or met a failure, ends: an `nmv`'s flags reach its group (spec/08 R180), then come its
completion word and its tag. -/
def finishCmd (s : State) (core idx : Nat) (g : Group) (x : Cmd) : State :=
  let s := s.modCore core (fun c => { c with copies := dropAt c.copies idx })
  let s := s.modGroup x.group (fun g => g.addFlags x.fpx)
  (endCmd s core g x x.code (x.count s core)).tickFresh

/-- A running command writes the word of its destination `item`, or, where nothing is left to write, ends. -/
def completeItem (s : State) (core idx item : Nat) (g : Group) (x : Cmd) : State :=
  if !x.over s core then writeItem s core idx g x item
  else if x.held s core g then s
  else finishCmd s core idx g x

/-! ### The instructions and events -/

/-- R272: a box of a record into a rectangle. -/
def execCpyGp (a : BitVec 5) (t : BitVec 6) (c : BitVec 5) : State → Host.Outcome State Fault Refusal :=
  command (encCpyGp a t c) false 0 a t c

/-- R272: a rectangle into a box of a record. -/
def execCpyPg (a : BitVec 5) (t : BitVec 6) (c : BitVec 5) : State → Host.Outcome State Fault Refusal :=
  command (encCpyPg a t c) false 1 a t c

/-- R273: a rectangle into a rectangle of a core of this die. -/
def execCpyPp (a : BitVec 5) (t : BitVec 6) (c : BitVec 5) : State → Host.Outcome State Fault Refusal :=
  command (encCpyPp a t c) false 2 a t c

/-- R274: a box of a record into a box of a record. -/
def execCpyGg (a : BitVec 5) (t : BitVec 6) (c : BitVec 5) : State → Host.Outcome State Fault Refusal :=
  command (encCpyGg a t c) false 3 a t c

/-- R281: waits until a tag of the mask is ready. -/
def execWaitAny (d a : BitVec 5) : State → Host.Outcome State Fault Refusal :=
  issue (encWaitAny d a) (fun g => needS g [(sr a, false)] (some (sr d)) false false)
    (fun _ g s => match s.team g.id.team with
      | some t => if t.ready &&& g.sreg a.toNat = 0 then .wait (.tagAny (g.sreg a.toNat)) s else .pass
      | none => .pass)
    (fun k g s =>
      let m : Word := match s.team g.id.team with | some t => t.ready &&& g.sreg a.toNat | none => 0
      { s := acquireViews (s.modGroup k (fun g' => g'.setS d.toNat m)) k .team })

/-- R281: waits until every tag of the mask is ready. -/
def execWaitAll (d a : BitVec 5) : State → Host.Outcome State Fault Refusal :=
  issue (encWaitAll d a) (fun g => needS g [(sr a, false)] (some (sr d)) false false)
    (fun _ g s => match s.team g.id.team with
      | some t => if t.ready &&& g.sreg a.toNat ≠ g.sreg a.toNat then .wait (.tagAll (g.sreg a.toNat)) s else .pass
      | none => .pass)
    (fun k g s => { s := acquireViews (s.modGroup k (fun g' => g'.setS d.toNat (g.sreg a.toNat))) k .team })

/-- R281: the lowest ready tag of the mask, or 64. -/
def execTagfind (d a : BitVec 5) : State → Host.Outcome State Fault Refusal :=
  issue (encTagfind d a) (fun g => needS g [(sr a, false)] (some (sr d)) false false) noGate
    (fun k g s =>
      let m : Word := match s.team g.id.team with | some t => t.ready &&& g.sreg a.toNat | none => 0
      let n := ((List.range 64).find? (fun i => m.getLsbD i)).getD 64
      let s := s.modGroup k (fun g' => g'.setS d.toNat (BitVec.ofNat 64 n))
      { s := if m = 0 then s else acquireViews s k .team })

/-- R281: clears ready bits. -/
def execTagclr (a : BitVec 5) : State → Host.Outcome State Fault Refusal :=
  issue (encTagclr a) (fun g => needS g [(sr a, false)] none false false) noGate
    (fun _ g s => { s := s.modTeam g.id.team (fun t => { t with tagReady := t.tagReady &&& ~~~(g.sreg a.toNat) }) })

/-- R286: a product beside memory. -/
def execNmv (a : BitVec 5) (t : BitVec 6) (c : BitVec 5) : State → Host.Outcome State Fault Refusal :=
  command (encNmv a t c) true 0 a t c

/-- R287: 32 bytes of memory into the plane. -/
def execNmrd (a : BitVec 5) (t : BitVec 6) (c : BitVec 5) : State → Host.Outcome State Fault Refusal :=
  command (encNmrd a t c) true 1 a t c

/-- R287: 32 bytes of the plane into memory. -/
def execNmwr (a : BitVec 5) (t : BitVec 6) (c : BitVec 5) : State → Host.Outcome State Fault Refusal :=
  command (encNmwr a t c) true 2 a t c

/-- R287: a masked write of 8 bytes. -/
def execNmwrm (a : BitVec 5) (t : BitVec 6) (c : BitVec 5) : State → Host.Outcome State Fault Refusal :=
  command (encNmwrm a t c) true 3 a t c

/-- R278, R328: the next command in issue order starts, of four at once; a running command reads the word that holds the
source it names. -/
def execCopyCommandStart (core : Nat) (spot : Spot) : State → Host.Outcome State Fault Refusal :=
  fun s =>
    let idx := spot.idx
    let q := (s.core core).copies
    match q[idx]? with
    | none => .next s
    | some x =>
      match s.group x.group with
      | none => .next s
      | some g =>
        if x.running then .next (if x.over s core then s else readItem s core idx g x spot.item)
        else if (q.take idx).any (fun y => !y.running || x.follows y) || 4 ≤ (q.filter (fun y => y.running)).length then .next s
        else .next (s.modCore core (fun c => { c with copies := setAt c.copies idx (x.begin s core g) })).tickFresh

/-- R279, R328: a running command writes the word that holds the destination it names; one that has moved everything writes its
completion word and counts down its tag. -/
def execCopyCommandComplete (core : Nat) (spot : Spot) : State → Host.Outcome State Fault Refusal :=
  fun s =>
    match (s.core core).copies[spot.idx]? with
    | none => .next s
    | some x =>
      match s.group x.group with
      | none => .next s
      | some g => .next (if !x.running || x.raw then s else completeItem s core spot.idx spot.item g x)

/-- R288: the same of a running packet; packets complete in any order. -/
def execRawPacketComplete (core : Nat) (spot : Spot) : State → Host.Outcome State Fault Refusal :=
  fun s =>
    match (s.core core).copies[spot.idx]? with
    | none => .next s
    | some x =>
      match s.group x.group with
      | none => .next s
      | some g => .next (if !x.running || !x.raw then s else completeItem s core spot.idx spot.item g x)

/-- The stores of group `k` that are outstanding at a port, each with the die view in which it waits, or with its core where it waits
in its store buffer after its group: they wait for a port in recovery, or for an answer of the host. -/
def State.outStores (s : State) (k : Nat) : List (Nat × Store) × List (Nat × Late) :=
  let held := fun (x : Store) => x.group == k && farTarget x.pa && s.barred false (fun _ => false) x
  (s.dies.flatMap (fun d => (d.2.view.wait.filter held).map (fun x => (d.1, x))),
    s.cores.flatMap (fun c => (c.2.late.filter (fun y => held y.store && y.acc.leavesHome y.store.kind)).map (fun y => (c.1, y))))

/-- Store `i` among them has been outstanding for 1 ms (spec/24 R426). -/
def expireStore (s : State) (k i : Nat) : State :=
  let lapse := fun (s : State) (x : Store) =>
    let s := noteRemote s k (x.ord, x.lane) .timeout true x.va x.pc x.insn
    (if Config.poisonedStoreDone s.fresh then writeHome s x.pa x.bytes else s).tickFresh
  let out := s.outStores k
  match out.1[i]? with
  | some (d, x) =>
    if !(((s.die d).view.wait.takeWhile (· != x)).all (fun y => !y.overlap x)) then s
    else lapse (s.modDie d (fun k => { k with view := { k.view with wait := k.view.wait.erase x } })) x
  | none =>
    match out.2[i - out.1.length]? with
    | some (c, y) =>
      if (s.lateOf c k).takeWhile (· != y) ≠ [] then s
      else lapse (s.modCore c (fun x => { x with late := x.late.erase y })) y.store
    | none => s

/-- spec/24 R426: a host or peer access outstanding for 1 ms completes with poison; after the group's accesses, `idx` counts its
commands, which take status 5 (R283), and after them its stores that wait at a port, those of a group that is gone too. -/
def execRemoteAccessTimeout (group idx part : Nat) : State → Host.Outcome State Fault Refusal :=
  fun s =>
    match s.group group with
    | none => .next (expireStore s group idx)
    | some g =>
      match g.accs[idx]? with
      | some a => (match a.parts[part]? with
        | some p => if farTarget p.pa then .next (failPart s group idx part .timeout) else .next s
        | none => .next s)
      | none =>
        let cmds := cmdsOf (s.core g.id.core).copies group
        match cmds[idx - g.accs.length]? with
        | none => .next (expireStore s group (idx - g.accs.length - cmds.length))
        | some (i, x) =>
          if x.running && x.touches s g.id.core g farTarget then
            .next (s.modCore g.id.core (fun c => { c with copies := setAt c.copies i (x.timeOut s g.id.core) }))
          else .next s

end Sys2Proof.Machine
end

