-- ==== Sys2Proof/Machine/Matrix.lean ====
section
/-!
DEFINITION. The matrix engine: majors 0x34 to 0x36, its queue, and the slew limiter that gates it (spec/14, spec/19 R365 to
R368).
-/

namespace Sys2Proof.Machine

/-! ### Operand maps and format blocks (R292 to R297) -/

/-- The rectangle of an operand map: ORG and CMP are not bits of a handle. -/
def mapRect (m : Word) : Option Rect := rectOf (m &&& ~~~(0x3000000000000 : Word))
def mapOrg (m : Word) : Bool := flag m 48
def mapCmp (m : Word) : Bool := flag m 49

/-- The formats of A and B. -/
def fmtOf (f : Word) (isA : Bool) : Nat := if isA then bits f 3 0 else bits f 7 4
/-- The block length along K, and the offset of the scale bytes. -/
def blkOf (f : Word) (isA : Bool) : Nat := if flag f (if isA then 8 else 9) then 32 else 16
def soffOf (f : Word) (isA : Bool) : Nat := if isA then bits f 28 12 else bits f 48 32

/-- K of a pair of types, or none where they form no pair (R295). -/
def pairK (a b : Nat) : Option Nat :=
  if a ≤ 1 && b ≤ 1 then some 32
  else if (a == 11 || a == 12) && (b == 11 || b == 12) then some 32
  else if a == 9 && b == 9 then some 16
  else if a == 13 && b == 13 then some 64
  else none

def cmpPermitted (t : Nat) : Bool := t == 11 || t == 12 || t == 13

/-- The number of the first condition of R297 that holds. -/
def mmaFault (ma mb f : Word) (m n : Nat) : Option Nat :=
  let ta := fmtOf f true
  let tb := fmtOf f false
  match mapRect ma, mapRect mb with
  | some ra, some rb =>
    match pairK ta tb with
    | none => some 2
    | some k =>
      if f &&& ~~~(0x0001FFFF1FFFF3FF : Word) != 0 then some 2
      else if (mapCmp ma || mapCmp mb) && !cmpPermitted ta then some 3
      else if ta != 13 && (bits f 9 8 != 0 || soffOf f true != 0 || soffOf f false != 0) then some 4
      else
        let es := etypeBits ta
        let spill := fun (rows : Nat) (r : Rect) => 64 * r.size < rows * k * es
        if spill m ra || spill n rb then some 5
        else
          let scale := fun (rows : Nat) (r : Rect) (isA : Bool) =>
            8 * soffOf f isA < rows * k / 2 || 8 * r.size < 8 * soffOf f isA + 2 * rows * k / blkOf f isA
          if ta == 13 && (scale m ra true || scale n rb false) then some 6 else none
  | _, _ => some 1

/-! ### Slots (R290, R291) -/

/-- The key of an element of a slot name. -/
def accKey (slot row col : Nat) : Nat := 16384 * slot + 128 * row + col
def Team.elem (t : Team) (slot row col : Nat) : W32 := Tab.getD t.acc (accKey slot row col) 0

/-- The error of an element of a slot name, if there is one. -/
def State.accErr (s : State) (core : Nat) (t : Team) (slot row col : Nat) : Option Err :=
  if s.errs.isEmpty then none
  else s.errs.find? (fun e => e.site == .acc core (t.accPhys.getD slot 12) (128 * row + col))

/-- An element is written; what it was computed from decides whether it is marked (spec/23 R411). -/
def putElem (s : State) (core t slot row col : Nat) (v : W32) (bad : Bool) : State :=
  match s.team t with
  | none => s
  | some x =>
    let site := ErrSite.acc core (x.accPhys.getD slot 12) (128 * row + col)
    let s := s.setTeam t { x with acc := Tab.set x.acc (accKey slot row col) v }
    let s := if s.errs.isEmpty then s else s.mend (fun e => e == site)
    if bad then { s with errs := s.errs ++ [⟨site, true⟩] } else s

/-- The slots of an entry that its team holds and that are still being cleared (spec/06 R137). -/
def MEnt.clearing (s : State) (e : MEnt) : Bool :=
  match s.team e.team with
  | none => false
  | some t => (List.range e.slots).any (fun i => t.accClr.getLsbD (e.slot + i))

def MEnt.shares (x y : MEnt) : Bool := x.team == y.team && x.slot < y.slot + y.slots && y.slot < x.slot + x.slots
def MEnt.isMma (e : MEnt) : Bool := match e.kind with | .mma => true | _ => false
def MEnt.isRead (e : MEnt) : Bool := match e.kind with | .accrd => true | _ => false

/-! ### Issue (R298, R301, R302) -/

/-- The rows of a tile of `m` rows that a predicate selects. -/
def tileMask (g : Group) (q : BitVec 3) (m : Nat) : Mask := g.eff q.toNat &&& BitVec.ofNat 768 (2 ^ m - 1)

/-- The first slot of a range that the team does not hold. -/
def State.slotTrap (s : State) (g : Group) (slot n : Nat) : Option Trap :=
  match s.team g.id.team with
  | none => none
  | some t => ((List.range n).find? (fun i => !t.accHeld.getLsbD (slot + i))).map (fun i => notHeld 0 (slot + i))

/-- The checks of a matrix-queue word: slots, then its own; room is `State.heldBack`. -/
def matrixGate (slot n : Nat) (own : Group → State → Gate) (_ : Nat) (g : Group) (s : State) : Gate :=
  match s.slotTrap g slot n with
  | some t => .trap t
  | none => own g s

/-- An entry joins the queue. -/
def enqueueM (s : State) (core : Nat) (e : MEnt) : State := s.modCore core (fun c => { c with mq := c.mq ++ [{ e with seq := c.seq, issued := c.clk }], seq := c.seq + 1 })

/-- An accumulator operation. -/
def accOp (w : W32) (kind : MKind) (h : BitVec 5) (s n : BitVec 4) (c : BitVec 3) (q : BitVec 3) (rm : Group → Rnd) :=
  let slots := n.toNat + 1
  let rd := match kind with | .accz => false | _ => true
  let rounds := match kind with | .accrd => 1 ≤ c.toNat && c.toNat ≤ 4 | _ => false
  issue w
    (fun g => { needS g (pick rd (sr h, false)) none false false with lane := some (tileMask g q 128), closes := true })
    (matrixGate s.toNat slots (fun g _ =>
      if rd && (rectOf (g.sreg h.toNat)).isNone then .trap (handleTrap (g.sreg h.toNat)) else .pass))
    (fun k g st =>
      let m := rm g
      let g' := if rounds then g.step m else g
      let e : MEnt := {
        kind := kind, group := k, team := g.id.team, slot := s.toNat, slots := slots
        rows := BitVec.ofNat 128 (tileMask g q 128).toNat, a := g.sreg h.toNat, cvt := c.toNat
        rnd := (match m with | .rne => 0 | .rz => 1 | .ru => 2 | .rd => 3 | .rs => 4)
        sat := satCvt g, lfsr := g'.sys.lfsr, skew := g.skew, pc := g.bundlePc, insn := w }
      { s := enqueueM (st.modGroup k (fun x => if rounds then x.step m else x)) g.id.core e })

/-- The mode of an entry. -/
def MEnt.mode (e : MEnt) : Rnd :=
  match e.rnd with
  | 1 => .rz
  | 2 => .ru
  | 3 => .rd
  | 4 => .rs
  | _ => .rne

/-! ### Operand reads (R293, R296, R306) -/

/-- A plane word as the engine finds it for an operand: the copy it holds, or the core view; `none` where the word cannot be
corrected. -/
def operandWord (s : State) (core : Nat) (e : MEnt) (p : Pos) : Option Word :=
  let c := s.core core
  match c.word e.team p with
  | none => some 0
  | some w =>
    match (if Config.staleOperand s.fresh p.key then Tab.get c.opcopy p.key else none) with
    | some o =>
      if !s.errs.isEmpty && s.errs.any (fun x => x.marked && x.site == .opcopy core p.key) then none
      else some (if o.own = e.team && o.live then o.val else 0)
    | none =>
      if (match s.planeErr core p.key with | some x => x.marked | none => false) then none
      else some (if w.live then w.val else 0)

/-- The words of a rectangle's linear view as an entry reads them, each once: what it has read, or what it reads now. -/
def operandWords (s : State) (core : Nat) (e : MEnt) (r : Rect) : List (Option Word) :=
  (List.range r.size).map (fun n =>
    let p := r.linear e.skew (s.linKey e.team) n
    match Tab.get e.read p.key with
    | some v => v
    | none => operandWord s core e p)

/-- Bits of a list of words: `n` bits at bit `lo`. -/
def opBits (ws : List (Option Word)) (lo n : Nat) : Option Nat :=
  match ws.getD (lo / 64) (some 0) with
  | some w => some (subWord w (lo % 64) n)
  | none => none

/-- The element index of row `i`, step `k` of an operand with `rows` rows (R293). -/
def opIndex (org : Bool) (rows kk i k : Nat) : Nat := if org then k * rows + i else i * kk + k

/-- The codes of one row of an operand. -/
def opCodes (ws : List (Option Word)) (org : Bool) (rows kk t i : Nat) : List (Option Nat) :=
  let w := etypeBits t
  (List.range kk).map (fun k => opBits ws (w * opIndex org rows kk i k) w)

/-- One decoded element (R296). -/
def opDecode (t code x v : Nat) : Num :=
  match t with
  | 9 => Fmt.bf16.decode code
  | 11 => Fmt.e4m3.decode code
  | 12 => Fmt.e5m2.decode code
  | _ => blockDecode code x v

/-- A list all of whose members are there. -/
def allSome {α : Type} : List (Option α) → Option (List α)
  | [] => some []
  | none :: _ => none
  | some a :: t => match allSome t with
    | some l => some (a :: l)
    | none => none

/-- The factors of row `i` of an operand; none where a word of it is marked. -/
def opRow (e : MEnt) (isA : Bool) (rows kk i : Nat) : Option (List Num) :=
  let map := if isA then e.a else e.b
  let ws := if isA then e.ops else e.opsB
  let t := fmtOf e.c isA
  let bl := blkOf e.c isA
  let codes := opCodes ws (mapOrg map) rows kk t i
  let scale := fun (k off : Nat) =>
    if t = 13 then opBits ws (8 * (8 * soffOf e.c isA + 2 * (i * (kk / bl) + k / bl) + off)) 8 else some 0
  let tab := if mapCmp map then some (ctableOf (e.compand.map BitVec.toNat)) else none
  allSome ((List.range kk).map (fun k =>
    match codes.getD k none, scale k 0, scale k 1 with
    | some code, some x, some v =>
      let y := opDecode t code x v
      some (match tab with
        | some tb => Fmt.f32.decode (tb.inv y).1
        | none => y)
    | _, _, _ => none))

/-- The integers of row `i` of an operand. -/
def opInts (e : MEnt) (isA : Bool) (rows kk i : Nat) : Option (List Int) :=
  let map := if isA then e.a else e.b
  let t := fmtOf e.c isA
  (allSome (opCodes (if isA then e.ops else e.opsB) (mapOrg map) rows kk t i)).map (fun l =>
    l.map (fun c => if t = 0 then sval 8 c else (c : Int)))

/-! ### `mma` (R299) -/

/-- The update of one element: its value and flags; none where a word it needs is marked. -/
def mmaFloat (acc : Bool) (old : W32) (a b : Option (List Num)) : Option (W32 × Fx) :=
  match a, b with
  | some x, some y =>
    let ps := (List.zip x y).map (fun p => Num.mul p.1 p.2)
    let r := sumTerms ((if acc then [Fmt.f32.decode old.toNat] else []) ++ ps.map (·.1)) (ps.any (fun p => p.1 == .nan))
    some (BitVec.ofNat 32 r.1, r.2)
  | _, _ => none

def mmaInt (acc : Bool) (old : W32) (a b : Option (List Int)) : Option (W32 × Fx) :=
  match a, b with
  | some x, some y =>
    let v := ((List.zip x y).map (fun p => p.1 * p.2)).foldl (· + ·) 0
    some (BitVec.ofInt 32 ((if acc then old.toInt else 0) + v), fxNone)
  | _, _ => none

/-- The elements of the tile: slot, row, column, the new value, flags. -/
def mmaTile (s : State) (e : MEnt) : List (Nat × Nat × Nat × Option (W32 × Fx)) :=
  match s.team e.team with
  | none => []
  | some t =>
    let kk := (pairK (fmtOf e.c true) (fmtOf e.c false)).getD 0
    let rows := (List.range e.m).filter (fun i => e.rows.getLsbD i)
    let int := fmtOf e.c true ≤ 1
    if int then
      let bs := (List.range e.n).map (opInts e false e.n kk)
      rows.flatMap (fun i =>
        let a := opInts e true e.m kk i
        (List.range e.n).map (fun j =>
          (e.slot + j / 128, i, j % 128, mmaInt e.acc (t.elem (e.slot + j / 128) i (j % 128)) a (bs.getD j none))))
    else
      let bs := (List.range e.n).map (opRow e false e.n kk)
      rows.flatMap (fun i =>
        let a := opRow e true e.m kk i
        (List.range e.n).map (fun j =>
          (e.slot + j / 128, i, j % 128, mmaFloat e.acc (t.elem (e.slot + j / 128) i (j % 128)) a (bs.getD j none))))

/-- Whether a row of the core's array is failing (spec/23 R417). -/
def State.rowBad (s : State) (core : Nat) : Bool :=
  s.errs.any (fun e => match e.site with | .matRow c _ => c == core | _ => false)

/-- The value that reaches a slot, and whether the two halves differ. -/
def arrayValue (s : State) (core : Nat) (e : MEnt) (n : Nat) (v : W32) : W32 × Bool :=
  if !s.rowBad core then (v, false)
  else
    let w := Config.wrongHalf s.fresh n v
    if e.red then (if Config.lowerHalf s.fresh n then w else v, w != v) else (w, false)

/-- An `mma` completes. -/
def mmaDone (s : State) (core : Nat) (e : MEnt) : State :=
  match s.team e.team with
  | none => s
  | some t =>
    let tile := mmaTile s e
    let vals := (List.range tile.length).map (fun n =>
      let x := tile.getD n (0, 0, 0, none)
      match x.2.2.2 with
      | some r => (x, some (arrayValue s core e n r.1, r.2))
      | none => (x, none))
    let marked := fun (slot row col : Nat) =>
      e.acc && match s.accErr core t slot row col with | some r => r.marked | none => false
    let s' := vals.foldl (fun s y =>
      let x := y.1
      match y.2 with
      | some r => putElem s core e.team x.1 x.2.1 x.2.2.1 r.1.1 (marked x.1 x.2.1 x.2.2.1)
      | none => putElem s core e.team x.1 x.2.1 x.2.2.1 0 true) s
    let fl := vals.foldl (fun a y => match y.2 with | some r => a ||| r.2 | none => a) fxNone
    let s' := s'.modGroup e.group (fun g => g.addFlags fl)
    let s' := noteUncorr s' core (vals.filter (fun y => marked y.1.1 y.1.2.1 y.1.2.2.1)).length
    let diff := vals.filter (fun y => match y.2 with | some r => r.1.2 | none => false)
    match minOf (diff.map (fun y => 4 * y.1.1 + y.1.2.1 / 32)) with
    | none => s'.tickFresh
    | some b => (pendTrap s' e.group {
        code := 20, faultpc := e.pc, insn := e.insn, info0 := BitVec.ofNat 64 (b / 4 + b % 4 * 2 ^ 8), info1 := 0 }).tickFresh

/-! ### Accumulator operations (R300, R301) -/

def MEnt.rect (e : MEnt) : Rect := (rectOf e.a).getD ⟨0, 0, 1, 1, 0, 1⟩
def MEnt.selected (e : MEnt) : List Nat := (List.range 128).filter (fun i => e.rows.getLsbD i)

/-- The element width in bits of a conversion. -/
def accWidth (kind : MKind) (cvt : Nat) : Nat :=
  match kind, cvt with
  | _, 0 => 32
  | _, 1 => 16
  | _, 2 => 16
  | .accld, _ => 16
  | _, 6 => 16
  | _, _ => 8

/-- `accld`'s conversion. -/
def widen (cvt v : Nat) : W32 :=
  match cvt with
  | 0 => BitVec.ofNat 32 v
  | 1 => BitVec.ofNat 32 (Fmt.f32.round (Fmt.bf16.decode v) .rne 0 false).1
  | 2 => BitVec.ofNat 32 (Fmt.f32.round (Fmt.f16.decode v) .rne 0 false).1
  | _ => BitVec.ofInt 32 (sval 16 v)

/-- An i32 narrowed to `w` bits. -/
def narrow (w : Nat) (sat : Bool) (v : W32) : Nat × Fx :=
  let i := v.toInt
  let lo : Int := -(2 ^ (w - 1))
  let hi : Int := 2 ^ (w - 1) - 1
  if lo ≤ i && i ≤ hi then (wrap w i, fxNone)
  else if sat then (wrap w (if i < lo then lo else hi), fxInvalid)
  else (wrap w i, fxNone)

/-- `accrd`'s conversion, with the draw `r`. -/
def convertOut (cvt : Nat) (m : Rnd) (r : Nat) (sat : Bool) (v : W32) : Nat × Fx :=
  let f := fun (t : Fmt) =>
    let y := t.round (Fmt.f32.decode v.toNat) m r sat
    (y.1, y.2 ||| Fmt.f32.sig [v.toNat])
  match cvt with
  | 0 => (v.toNat, fxNone)
  | 1 => f .bf16
  | 2 => f .f16
  | 3 => f .e4m3
  | 4 => f .e5m2
  | 5 => narrow 8 sat v
  | _ => narrow 16 sat v

def acczDone (s : State) (core : Nat) (e : MEnt) : State :=
  let s := s.modTeam e.team (fun t => { t with acc := t.acc.filter (fun x =>
    !(e.slot ≤ x.1 / 16384 && x.1 / 16384 < e.slot + e.slots && e.rows.getLsbD (x.1 / 128 % 128))) })
  match s.team e.team with
  | none => s
  | some t => if s.errs.isEmpty then s else s.mend (fun x => match x with
      | .acc c p n => c == core && e.rows.getLsbD (n / 128) && (List.range e.slots).any (fun i => t.accPhys.getD (e.slot + i) 12 == p)
      | _ => false)

def accldDone (s : State) (core : Nat) (e : MEnt) : State :=
  let w := accWidth .accld e.cvt
  let cols := 128 * e.slots
  e.selected.foldl (fun s i => (List.range cols).foldl (fun s j =>
    match opBits e.ops (w * (i * cols + j)) w with
    | some v => putElem s core e.team (e.slot + j / 128) i (j % 128) (widen e.cvt v) false
    | none => putElem s core e.team (e.slot + j / 128) i (j % 128) 0 true) s) s

/-- The word and bit of an element of `accrd`, where its write is performed. -/
def MEnt.target (s : State) (core : Nat) (e : MEnt) (w n : Nat) : Option Pos :=
  if w * n / 64 < e.rect.size then
    let p := e.rect.linear e.skew (s.linKey e.team) (w * n / 64)
    if ((s.core core).word e.team p).isSome then some p else none
  else none

/-- A plane word is stored marked. -/
def markPlane (s : State) (core key : Nat) : State :=
  let s := s.mend (fun e => e == .plane core key)
  { s with errs := s.errs ++ [⟨.plane core key, true⟩] }

/-- Element `n` of the tile, in row-major order over the columns, is converted into its place of the plane; the entry keeps its
flags. -/
def accrdElem (s : State) (core : Nat) (e : MEnt) (t : Team) (w n : Nat) (fx : Fx) : State × Fx :=
  let cols := 128 * e.slots
  let i := n / cols
  let j := n % cols
  match e.target s core w n with
  | none => (s, fx)
  | some p =>
    let slot := e.slot + j / 128
    let r := convertOut e.cvt e.mode (draw e.lfsr (16384 * (j / 128) + 128 * i + j % 128)) e.sat (t.elem slot i (j % 128))
    let s := s.modCore core (fun c => c.psub e.team p (w * n % 64) w r.1)
    (match s.accErr core t slot i (j % 128) with
      | some x => if x.marked then noteUncorr (markPlane s core p.key) core 1 else s
      | none => s, fx ||| r.2)

/-- Whether word `n` of the linear view holds elements of a selected row. -/
def MEnt.writes (e : MEnt) (n : Nat) : Bool :=
  n < e.rect.size && 64 * n / accWidth .accrd e.cvt / (128 * e.slots) < 128 &&
    e.rows.getLsbD (64 * n / accWidth .accrd e.cvt / (128 * e.slots))

/-- Whether an `accrd` has written every word. -/
def MEnt.written (e : MEnt) : Bool := (List.range e.rect.size).all (fun n => !e.writes n || e.wrote.testBit n)

/-- An `accrd`, entry `idx`, writes word `n` of its rectangle's linear view, whole. -/
def accrdWord (s : State) (core idx : Nat) (e : MEnt) (n : Nat) : State :=
  match s.team e.team with
  | none => s
  | some t =>
    let p := e.rect.linear e.skew (s.linKey e.team) n
    if !e.writes n || e.wrote.testBit n || s.rebuildHolds (.plane core p.key) then s
    else
      let w := accWidth .accrd e.cvt
      let s := if ((s.core core).word e.team p).isSome then mendPlane s core (fun k => k == p.key) else s
      let r := (List.range (64 / w)).foldl (fun (a : State × Fx) m => accrdElem a.1 core e t w (64 / w * n + m) a.2) (s, e.fpx)
      r.1.modCore core (fun c => { c with mq := setAt c.mq idx { e with wrote := e.wrote ||| 2 ^ n, fpx := r.2 } })

/-! ### Beginning (R302) -/

/-- The plane words of an entry's operands. -/
def MEnt.rects (e : MEnt) : List Rect :=
  match e.kind with
  | .mma => [mapRect e.a, mapRect e.b].filterMap id
  | .accld => [e.rect]
  | _ => []

def MEnt.words (s : State) (e : MEnt) : List Nat :=
  e.rects.flatMap (fun r => (List.range r.size).map (fun n => (r.linear e.skew (s.linKey e.team) n).key))

/-- The words of an entry's operands that it has not read and that are damaged, in the plane or in the engine's copy; and whether a
word of its operands is still being cleared. -/
def MEnt.hurt (s : State) (core : Nat) (e : MEnt) : List ErrSite :=
  if s.errs.isEmpty then []
  else
    let ks := (e.words s).filter (fun k => (Tab.get e.read k).isNone)
    (s.errs.filter (fun x => !x.marked && match x.site with
      | .plane c k | .opcopy c k => c == core && ks.contains k
      | _ => false)).map (·.site)

def MEnt.dirty (s : State) (core : Nat) (e : MEnt) : Bool :=
  (e.words s).any (fun k => match Tab.get (s.core core).plane k with | some w => w.clr | none => false)

/-- Whether the recovery engine of the die rebuilds a word of the engine's copies (spec/23 R410). -/
def State.rebuildsCopy (s : State) (core : Nat) : Bool :=
  match (s.die (dieOf core)).rebuilds with
  | .opcopy c _ :: _ => c == core
  | _ => false

/-- Whether a slot element that an entry writes lies in a group of rows that is being rebuilt (spec/23 R410). -/
def MEnt.writeHeld (s : State) (core : Nat) (e : MEnt) : Bool :=
  match (s.die (dieOf core)).rebuilds, s.team e.team with
  | .acc c _ _ :: _, some t => c == core && e.kind != .accrd && e.kind != .mfence &&
      (List.range e.slots).any (fun i => (List.range 16384).any (fun n =>
        e.rows.getLsbD (n / 128) && s.rebuildHolds (.acc core (t.accPhys.getD (e.slot + i) 12) n)))
  | _, _ => false

/-- Whether entry `i` of the queue may begin as far as items 2 to 4 of R302 go. -/
def State.mayBegin (s : State) (core i : Nat) (e : MEnt) : Bool :=
  let c := s.core core
  let before := c.mq.take i
  !e.begun && before.all (fun x => x.isMma && x.begun && x.busy == 0) &&
    match e.kind with
    | .mma => !e.clearing s && !e.dirty s core
    | .accz => !before.any (fun x => x.shares e)
    | .accld => !before.any (fun x => x.shares e) && !e.clearing s && !e.dirty s core
    | .accrd => !before.any (fun x => x.shares e) && !e.clearing s
    | .mfence => !c.scrolls.any (fun x => x.seq < e.seq) && !s.rebuildsCopy core &&
        !s.groups.any (fun g => g.2.id.core == core && g.2.accs.any (fun a => match a.op with | .plane => a.seq ≤ e.seq | _ => false))

/-- The place of the next entry to begin. -/
def Core.nextM (c : Core) : Nat := c.mq.findIdx (fun e => !e.begun)

/-- The busy clocks of an `mma` (R303). -/
def MEnt.cost (e : MEnt) : Nat :=
  let a := 16 * ((e.m * e.n + 12287) / 12288)
  if e.red then 2 * a else a

/-- The clocks that the work of an entry other than an `mma` takes (R303). -/
def MEnt.clocks (e : MEnt) : Nat :=
  match e.kind with
  | .accz => 4 * e.slots
  | .accld | .accrd => ((List.range 128).filter (fun i => e.rows.getLsbD i)).length * e.slots + 8
  | .mma | .mfence => 1

/-- Some of the operand words that a begun entry has not read are read now: those that it reads before an `mfence` begins (R306). -/
def MEnt.readSome (s : State) (core : Nat) (e : MEnt) : MEnt :=
  if !e.begun then e
  else
    let hurt := e.hurt s core
    let ps := e.rects.flatMap (fun r => (List.range r.size).map (fun n => r.linear e.skew (s.linKey e.team) n))
    { e with read := ps.foldl (fun l p =>
        if (Tab.get l p.key).isSome || !Config.readEarly s.fresh p.key || hurt.contains (.plane core p.key) ||
          hurt.contains (.opcopy core p.key) then l
        else Tab.set l p.key (operandWord s core e p)) e.read }

/-- The plane words are what the engine may take as its copies from now on, but those that are damaged, which it reads afresh; entries
before have read some of their words (R304). -/
def fenceCopies (s : State) (core : Nat) : State :=
  let copies := fun (c : Core) => c.plane.filter (fun w => match s.planeErr core w.1 with | some e => e.marked | none => true)
  let s' := (s.modCore core (fun c => { c with mq := c.mq.map (MEnt.readSome s core), opcopy := copies c })).mend (fun x => match x with
    | .opcopy c _ => c == core
    | _ => false)
  { s' with errs := s'.errs ++ (s.errs.filterMap (fun (x : Err) => match x.site with
      | .plane c k => if c == core && x.marked then some (Err.mk (.opcopy c k) true) else none
      | _ => none)) }.tickFresh

/-- The engine reads plane word `k` into its copy (R306). -/
def copyWord (s : State) (core k : Nat) : State :=
  match Tab.get (s.core core).plane k, s.planeErr core k with
  | some w, none =>
    if s.rebuildHolds (.opcopy core k) then s
    else (s.modCore core (fun c => { c with opcopy := Tab.set c.opcopy k w }.readP (planeBank k))).mend (fun x => x == .opcopy core k)
  | _, _ => s

/-- Entry `i` begins in clock `b`. -/
def beginEntry (s : State) (core i : Nat) (e : MEnt) (b : Nat) : State :=
  let put := fun (e : MEnt) (free : Nat) => s.modCore core (fun c => { c with mq := setAt c.mq i e, mqAt := free })
  match e.kind with
  | .mma => put { e with begun := true, busy := e.cost, due := b } b
  | .mfence => (fenceCopies s core).modCore core (fun c => { c with mq := dropAt c.mq i, mqAt := b + 1 })
  | _ => put { e with begun := true, due := b + e.clocks } (b + e.clocks)

/-! ### The slew limiter (R366 to R368) -/

def Slew.allow (x : Slew) : Nat := min 64 (x.prev + x.step)
def Slew.floor (x : Slew) : Nat := x.prev - x.step
/-- Busy clocks permitted, and required, by the end of the slot. -/
def Slew.permit (x : Slew) : Nat := 4 * (x.allow * (x.slot + 1) / 64)
def Slew.require (x : Slew) : Nat := 4 * (x.floor * (x.slot + 1) / 64)
def Slew.grants (x : Slew) : Bool := x.slot < 16 && x.used + 4 ≤ x.permit

/-- Clocks of core `c` pass until clock `t`. -/
def State.until (s : State) (c t : Nat) : State := if (s.core c).clk < t then elapse s c (t - (s.core c).clk) else s

/-- The first clock of the slot that is decided next, or of the next window (R366). -/
def Slew.at (x : Slew) : Nat := 64 * x.win + 4 * x.slot

/-- The next entry, no `mma`, begins where it may: 2 clocks after its issue at the earliest, after the work of the one before
(R302). -/
def beginNext (s : State) (core : Nat) : State :=
  let c := s.core core
  match c.mq[c.nextM]? with
  | none => s
  | some e =>
    if !s.mayBegin core c.nextM e || e.isMma then s
    else
      let b := max c.clk (max (e.issued + 2) c.mqAt)
      beginEntry (s.until core b) core c.nextM e b

/-- The next entry, an `mma` that may begin in clock `b`, which its slot grants it, begins. -/
def beginMma (s : State) (core b : Nat) : State :=
  let c := s.core core
  match c.mq[c.nextM]? with
  | none => s
  | some e => if s.mayBegin core c.nextM e && e.isMma && e.issued + 2 ≤ b && c.mqAt ≤ b then beginEntry s core c.nextM e b else s

/-- The `mma` that has busy clocks left. -/
def Core.working (c : Core) : Option (Nat × MEnt) :=
  (List.zip (List.range c.mq.length) c.mq).find? (fun x => x.2.isMma && x.2.begun && x.2.busy != 0)

/-- The next slot of four clocks: a work granule, but where `hold` says that the slot is held, else a filler granule, or nothing. -/
def granuleSlot (s : State) (core : Nat) (hold : Bool := false) : State :=
  let x := (s.core core).slew
  let grants := x.grants && !hold
  if 16 ≤ x.slot then s
  else
    let s := if grants && (s.core core).working.isNone then beginMma s core x.at else s
    match (if grants then (s.core core).working else none) with
    | some (i, e) =>
      s.modCore core (fun c => { c with
        mq := setAt c.mq i { e with busy := e.busy - 4, due := x.at + 16 }
        mqAt := x.at + 4
        slew := { x with used := x.used + 4, slot := x.slot + 1, charged := some e.group } })
    | none =>
      if x.used < x.require then
        let s := match x.charged with
          | some k => s.modGroup k (fun g => g.take (.count 0x1170 4))
          | none => s
        s.modCore core (fun c => { c with slew := { x with used := x.used + 4, slot := x.slot + 1 } })
      else s.modCore core (fun c => { c with slew := { x with slot := x.slot + 1 } })

/-- The next window starts; STEP is taken (R365). -/
def nextWindow (s : State) (core : Nat) : State :=
  s.modCore core (fun c => { c with
    slew := { c.slew with win := c.slew.win + 1, prev := c.slew.used, used := 0, slot := 0, step := bits s.sup.slewctl 6 0 } })

/-- Slots of core `c` whose clocks have all passed are decided, `n` at most, and windows that have started start (R366). -/
def passSlots (s : State) (c : Nat) : Nat → State
  | 0 => s
  | n + 1 =>
    let x := (s.core c).slew
    if x.slot < 16 then (if x.at + 4 ≤ (s.core c).clk then passSlots (granuleSlot s c) c n else s)
    else if x.at ≤ (s.core c).clk then passSlots (nextWindow s c) c n
    else s

/-- A limiter with no array work and nothing to ramp down from: it stands where the clock does. -/
def Slew.idleAt (x : Slew) (clk step : Nat) : Slew :=
  { x with win := clk / 64, slot := clk % 64 / 4, prev := 0, used := 0, step := if clk / 64 = x.win then x.step else step }

/-- The limiter of core `c` follows its clock. -/
def settleSlots (s : State) (c : Nat) : State :=
  let k := s.core c
  if k.mq.all (fun e => !e.isMma) && k.slew.prev = 0 && k.slew.used = 0 then
    s.modCore c (fun k => { k with slew := k.slew.idleAt k.clk (bits s.sup.slewctl 6 0) })
  else passSlots s c ((k.clk - k.slew.at) / 2 + 2)

/-- The slot elements that an entry reads and that are damaged. -/
def MEnt.hurtElems (s : State) (core : Nat) (e : MEnt) : List ErrSite :=
  if s.errs.isEmpty then []
  else match s.team e.team with
  | none => []
  | some t =>
    let rd := match e.kind with
      | .mma => e.acc
      | .accrd => true
      | _ => false
    if !rd then []
    else (s.errs.filter (fun x => !x.marked && match x.site with
      | .acc c p n => c == core && e.rows.getLsbD (n / 128) &&
          (List.range e.slots).any (fun i => t.accPhys.getD (e.slot + i) 12 == p)
      | _ => false)).map (·.site)

/-- An entry reads the operand words that it has not read. -/
def MEnt.gather (s : State) (core : Nat) (e : MEnt) : MEnt :=
  match e.kind with
  | .mma => { e with
      ops := (match mapRect e.a with | some r => operandWords s core e r | none => [])
      opsB := (match mapRect e.b with | some r => operandWords s core e r | none => []) }
  | .accld => { e with ops := operandWords s core e e.rect }
  | _ => e

/-- Entry `i` completes; the banks of the plane words that it reads wake from retention (spec/05 R109). -/
def completeEntry (s : State) (core i : Nat) (e : MEnt) : State :=
  let s := s.modCore core (fun c => (e.words s).foldl (fun c k => c.readP (planeBank k)) c)
  let e := e.gather s core
  let s := s.tickFresh
  let s := noteUncorr s core ((e.ops ++ e.opsB).filter (·.isNone)).length
  let s := match e.kind with
    | .mma => mmaDone s core e
    | .accz => acczDone s core e
    | .accld => accldDone s core e
    | .accrd => s.modGroup e.group (fun g => g.addFlags e.fpx)
    | .mfence => s
  s.modCore core (fun c => { c with mq := dropAt c.mq i })

/-! ### The instructions and events -/

/-- R298: an `mma` enters the matrix queue with its snapshot. -/
def execMma (a : BitVec 5) (s : BitVec 4) (m : MSel) (n : BitVec 6) (q : BitVec 3) (r c : Bool) :
    State → Host.Outcome State Fault Refusal :=
  let rows := m.rows
  let cols := tileCols n
  let slots := (cols + 127) / 128
  let x := fun (g : Group) (i : Nat) => g.sreg (a.toNat + i)
  let cmp := fun (g : Group) => mapCmp (x g 0) || mapCmp (x g 1)
  issue (encMma a s m n q r c)
    (fun g => { needS g [(.s a.toNat, false), (.s (a.toNat + 1), false), (.s (a.toNat + 2), false)] none false false with
      lane := some (tileMask g q rows), closes := true })
    (matrixGate s.toNat slots (fun g st =>
      match mmaFault (x g 0) (x g 1) (x g 2) rows cols with
      | some i => .trap { code := 19, info0 := BitVec.ofNat 64 i }
      | none => tableGate (cmp g) 0 g st))
    (fun k g st =>
      let tab := ((tableDws (cmp g) st g).getD []).map (BitVec.ofNat 64)
      let e : MEnt := {
        kind := .mma, group := k, team := g.id.team, slot := s.toNat, slots := slots
        rows := BitVec.ofNat 128 (tileMask g q rows).toNat, a := x g 0, b := x g 1, c := x g 2, m := rows, n := cols, acc := c, red := r
        skew := g.skew, compand := tab, pc := g.bundlePc, insn := (encMma a s m n q r c) }
      { s := enqueueM (tableDone (cmp g) st k g) g.id.core e })

/-- R301: zeroes the selected rows of a tile. -/
def execAccz (s n : BitVec 4) (q : BitVec 3) : State → Host.Outcome State Fault Refusal :=
  accOp (encAccz s n q) .accz 0 s n 0 q (fun _ => .rne)

/-- R301: the selected rows take elements of the plane. -/
def execAccld (h : BitVec 5) (s n : BitVec 4) (c : BitVec 3) (r : Rm) (q : BitVec 3) :
    State → Host.Outcome State Fault Refusal :=
  accOp (encAccld h s n c r q) .accld h s n c q (fun _ => .rne)

/-- R301: the selected rows are converted into the plane. -/
def execAccrd (h : BitVec 5) (s n : BitVec 4) (c : BitVec 3) (r : Rm) (q : BitVec 3) :
    State → Host.Outcome State Fault Refusal :=
  accOp (encAccrd h s n c r q) .accrd h s n c q (fun g => g.rnd r)

/-- R304: enters the matrix queue; when it begins the engine's copies are discarded. -/
def execMfence : State → Host.Outcome State Fault Refusal :=
  issue encMfence (fun _ => {}) (matrixGate 0 0 (fun _ _ => .pass))
    (fun k g s => { s := enqueueM s g.id.core {
      kind := .mfence, group := k, team := g.id.team, slot := 0, slots := 0, rows := 0, skew := false, pc := g.bundlePc, insn := encMfence } })

/-- R305: waits until the queue holds no instruction of the team on the slot. -/
def execMwait (s : BitVec 4) : State → Host.Outcome State Fault Refusal :=
  issue (encMwait s) (fun _ => {})
    (fun _ g st => match st.slotTrap g s.toNat 1 with
      | some t => .trap t
      | none =>
        if (st.core g.id.core).mq.any (fun e => e.team == g.id.team && e.slot ≤ s.toNat && s.toNat < e.slot + e.slots) then
          .wait (.slot s.toNat) st
        else .pass)
    (fun _ _ s => { s := s })

/-- R302: the queue begins its next instruction, an `mma` with its slot of the array; an `mfence` completes as it begins.  R306: where
`copy` names a plane word, the engine reads it into its copy. -/
def execMatrixBegin (what : EngineStep) : State → Host.Outcome State Fault Refusal :=
  fun s => .next (match what.copy with
    | none => beginNext s what.core
    | some k => copyWord s what.core k)

/-- R303: an instruction whose work is done completes, after those before it on its slots; an `accrd` writes the word that `spot` names of its
rectangle's linear view first, where it has not (R306). -/
def execMatrixComplete (core : Nat) (spot : Spot) : State → Host.Outcome State Fault Refusal :=
  fun s =>
    let idx := spot.idx
    let c := s.core core
    match c.mq[idx]? with
    | none => .next s
    | some e =>
      if !e.begun || e.busy != 0 || (c.mq.take idx).any (fun x => x.shares e) then .next s
      else
        let bad := e.hurtElems s core ++ e.hurt s core
        if !bad.isEmpty then .next (bad.foldl requestRebuild s)
        else if e.writeHeld s core then .next s
        else if e.isRead && !e.written then .next (accrdWord s core idx e spot.item)
        else .next (completeEntry (s.until core e.due) core idx e)

/-- R366: a window of 16 slots starts. -/
def execSlewWindowStart (core : Nat) : State → Host.Outcome State Fault Refusal :=
  fun s =>
    let x := (s.core core).slew
    .next (if x.slot < 16 then s else nextWindow (s.until core x.at) core)

/-- R366: one slot of the array passes. -/
def execGranuleSlot (core : Nat) : State → Host.Outcome State Fault Refusal :=
  fun s =>
    let x := (s.core core).slew
    .next (if x.slot < 16 then granuleSlot (s.until core x.at) core else s)

end Sys2Proof.Machine
end

