-- ==== Sys2Proof/Machine/Start.lean ====
section
/-!
DEFINITION. Starting a group (spec/02 R36, R40, spec/03 R61, R63): its context slot, its state, its table entry.
-/

namespace Sys2Proof.Machine

/-! ### Slots and entries -/

/-- The free slots of a grid's context pool (R36). -/
def State.freeSlots (s : State) (gr : Nat) (g : Grid) : List Nat :=
  (List.range g.launch.ctxslots).filter (fun i => !s.groups.any (fun x => x.2.id.grid == gr && x.2.id.slot == i))

/-- The team slots of a core that are free. -/
def State.freeTeamSlots (s : State) (core : Nat) : List Nat :=
  (List.range 8).filter (fun i => !(s.teamsOn core).any (fun t => t.2.slot == i))

/-- The team slot that a team takes on a core: one of those free, as the device chooses. -/
def State.pickTeamSlot (s : State) (core : Nat) : Nat :=
  let l := s.freeTeamSlots core
  l.getD (Config.pickSlot s.fresh % l.length) 0

/-- The lowest free entry of a core's scheduler table (spec/05 R113, spec/06 R123: 64 entries). -/
def State.freeTab (s : State) (core : Nat) : Option Nat :=
  (List.range 64).find? (fun i => !s.groups.any (fun x => x.2.id.core == core && x.2.sched.tab == some i))

/-- The entry that a group which starts takes: the lowest free one but for those that are due to the dormant groups of the core that
are ready (spec/05 R115). -/
def State.spareTab (s : State) (core : Nat) : Option Nat :=
  ((List.range 64).filter (fun i => !s.groups.any (fun x => x.2.id.core == core && x.2.sched.tab == some i)))[(s.readyIn core .dormant).length]?

def Launch.foot (l : Launch) : Role → Nat
  | .vector => l.footvec
  | .matrix => l.footmat
  | .copy => l.footcpy

def Launch.entry (l : Launch) : Role → Nat
  | .vector => l.entryvec
  | .matrix => l.entrymat
  | .copy => l.entrycpy

/-- The role of ordinary group `n`: copy groups come first, then matrix groups, then vector groups (spec/02). -/
def Launch.roleAt (l : Launch) (n : Nat) : Role :=
  if n < l.ncpy then .copy else if n < l.ncpy + l.nmat then .matrix else .vector

def roleOfCode : Nat → Role
  | 0 => .vector
  | 1 => .matrix
  | _ => .copy

/-! ### The state of a group at its start (R40) -/

/-- What tells one starting group from another. -/
structure Birth where
  num : Nat
  role : Role
  entry : Nat
  arr : Bool := false
  serves : Option Nat := none
  args : Option (Word × Word) := none

/-- The base of context slot `i`. -/
def Launch.slotBase (l : Launch) (i : Nat) : Nat := l.ctxbase + i * l.ctxstride * 65536

/-- SEED's replacement where LFSR would be zero (spec/08 R173). -/
def lfsrOf (v : W32) : W32 := if v = 0 then 1 else v

/-- Scalars at start: s1 and s2 of an arrival-launched or handler group, ARGS, IMGBASE. -/
def startScalars (l : Launch) (args : Option (Word × Word)) : List Word :=
  tabulate 32 (fun n => match n, args with
    | 1, some a => a.1
    | 2, some a => a.2
    | 3, _ => BitVec.ofNat 64 l.args
    | 4, _ => BitVec.ofNat 64 l.imgbase
    | _, _ => 0)

/-- A group at its start in context slot `slot`; each barrier's open generation is its first (spec/16 R332).  DEDUCED (log entry 28):
a rounding mode of 5 to 7 in MODEINIT starts as 0. -/
def State.newborn (s : State) (t : Nat) (x : Team) (gr : Grid) (b : Birth) (slot : Nat) : Group :=
  let l := gr.launch
  let base := l.slotBase slot
  let foot := l.foot b.role
  { id := { grid := x.grid, team := t, num := b.num, role := b.role, foot := foot, slot := slot, base := base
            core := x.core, asid := gr.asid, supv := gr.supv, arr := b.arr, hndl := b.serves.isSome, serves := b.serves }
    gstate := .dormant
    pc := BitVec.ofNat 64 ((l.imgbase + 4 * b.entry) % 2 ^ 57)
    alive := footMask foot
    regs := { s := startScalars l b.args, v := List.replicate 32 [], p := List.replicate 7 0
              slive := if b.args.isSome then 0x1F else 0x19
              vlive := 0, sempty := 0, vempty := 0, pin := 0 }
    sys := { mode := modeAfter 0 (l.modeinit.setWidth 64), seed := l.seedinit.setWidth 64, lfsr := lfsrOf l.seedinit
             traprec := BitVec.ofNat 64 (base + 0x400) }
    genBase := tabulate 8 (fun n => (s.barrier x.grid n (l.unitOf x.index n)).done)
    sched := { ready := (s.core x.core).clk, age := (s.core x.core).clk } }

/-- The scalars that are live at a group's start take entries of the scalar cache (R40). -/
def seatScalars (s : State) (k : Nat) (g : Group) : State :=
  ((List.range 5).filter (fun n => n ≠ 0 ∧ g.regs.slive.getLsbD n)).foldl (fun s n =>
    (roomFor s g.id.core k 1 (.s n) [] 1024).modCore g.id.core (fun c => c.claim k 1 (.s n))) s

/-- A group joins the machine: resident where the table has an entry to spare, else dormant (R61, spec/05 R115); its header is written (spec/05
R92); the views of its core's path are refreshed, as an acquire at device scope does (spec/16 R345; for other groups DEDUCED, log entry
66); completion of every barrier is decided again (spec/16 R332). -/
def joinGroup (s : State) (g : Group) : State :=
  let clk := (s.core g.id.core).clk
  let g := match s.spareTab g.id.core with
    | some i => { g with gstate := .pending, sched := { g.sched with tab := some i, pend := clk } }
    | none => g
  let s := if s.cores.any (fun c => c.2.gone.contains (g.id.grid, g.id.base)) then
      { s with cores := s.cores.map (fun (c, x) => (c, { x with gone := x.gone.filter (· != (g.id.grid, g.id.base)) })) }
    else s
  let k := s.nextId
  let s := { s.setGroup k g with nextId := k + 1 }
  let s := refreshPath s g.id.core .device
  let s := if g.id.arr then reopen s g.id.team else s
  settleAll (writeStart (if g.sched.tab.isSome then seatScalars s k g else s) k) g.id.team

/-- Team `t` starts a group, where its grid's pool has a free slot: the device chooses which. -/
def startGroup (s : State) (t : Nat) (b : Birth) : Option State :=
  match s.team t with
  | none => none
  | some x =>
    match s.grid x.grid with
    | none => none
    | some gr =>
      let free := s.freeSlots x.grid gr
      match free[Config.pickSlot s.fresh % free.length]? with
      | none => none
      | some slot => some (joinGroup s.tickFresh (s.newborn t x gr b slot))

/-- An element starts a group at an endpoint of kind 3, where the team runs and has a free slot (R63).  DEDUCED (log entry
84): an element for a team that is admitted and has not started waits. -/
def startArrival (s : State) (t ep : Nat) (v : Word) : Option State :=
  match s.team t with
  | none => none
  | some x =>
    if !x.started || x.status != .running then none
    else match s.grid x.grid with
    | none => none
    | some gr =>
      let b : Birth := { num := x.nextNum, role := roleOfCode gr.launch.arrrole, entry := gr.launch.entryarr, arr := true,
                         args := some (v, BitVec.ofNat 64 ep) }
      (startGroup s t b).map (fun s => s.modTeam t (fun x => { x with nextNum := x.nextNum + 1 }))

end Sys2Proof.Machine
end

