-- ==== Sys2Proof/Machine/Sync.lean ====
section
/-!
DEFINITION. Fences (spec/15 R323), barriers, stage rings and channels: majors 0x38 to 0x3B, with the TC0 events that carry
them (spec/16, spec/01 R21, R22).
-/

namespace Sys2Proof.Machine

/-! ### Waits of fences and barriers (spec/08 R181) -/

/-- Whether every earlier instruction and engine instruction of the group has completed. -/
def State.settled (s : State) (k : Nat) (g : Group) : Bool :=
  let c := s.core g.id.core
  !(g.loadsPending || c.engineBusy k || c.hiveW.any (fun w => w.group == k))

/-- R181: the wait, then the floating-point trap; `next` is what is checked after them. -/
def settleGate (k : Nat) (g : Group) (s : State) (next : Gate) : Gate :=
  if !s.settled k g then .wait .earlier s
  else if g.enabledFlags ≠ 0 then .trap { code := 13, info0 := BitVec.ofNat 64 g.enabledFlags }
  else next

/-- What a fence of a kind does. -/
def releases : FenceKind → Bool
  | .acq => false
  | .rel | .ar => true

def acquires : FenceKind → Bool
  | .rel => false
  | .acq | .ar => true

/-! ### Barriers (R332 to R337) -/

/-- The launch of a group. -/
def State.launchOf (s : State) (g : Group) : Launch :=
  match s.grid g.id.grid with
  | some x => x.launch
  | none => {}

def State.scopeAt (s : State) (g : Group) (l : Nat) : Scope := (s.launchOf g).scopeOf l

/-- R336: an absent level, level 7 of a grid that is not co-resident, a handler. -/
def State.barScope (s : State) (g : Group) (l : Nat) : Bool :=
  (s.launchOf g).present l && !g.id.hndl &&
    (l != 7 || match s.grid g.id.grid with | some x => x.coresident | none => false)

def levelTrap (code l : Nat) : Trap := { code := code, info0 := BitVec.ofNat 64 l }

/-- The checks of a barrier instruction, then `next`; `want` is what ARRIVED must be. -/
def barGate (k : Nat) (g : Group) (s : State) (l : Nat) (want : Bool) (next : Gate) : Gate :=
  if !s.barScope g l then .trap (levelTrap 22 l)
  else settleGate k g s (if g.arrived.getLsbD l = want then next else .trap (levelTrap 23 l))

/-- The release, and the arrival recorded for the group's generation. -/
def arrive (s : State) (k : Nat) (g : Group) (l : Nat) : State :=
  let s := releaseStores s k (s.scopeAt g l)
  settleTeam (s.modGroup k (fun g' => { g' with arrived := setBit g'.arrived l true })) g.id.team l

/-- The group leaves the barrier: the acquire, and the next generation. -/
def depart (s : State) (k : Nat) (g : Group) (l : Nat) : State :=
  (acquireViews s k (s.scopeAt g l)).modGroup k (fun g' =>
    { g' with arrived := setBit g'.arrived l false, gen := setPad 0 g'.gen l (g'.gen.getD l 0 + 1) })

def waitGate (k : Nat) (g : Group) (s : State) (l : Nat) : Gate :=
  barGate k g s l true (if s.mayDepart g l then .pass else .wait (.barrier l) s)

/-- The two halves of `bar`. -/
def barBoth (l : Nat) (k : Nat) (g : Group) (s : State) : Gate :=
  if g.inbar.getLsbD l then waitGate k g s l
  else barGate k g s l false (
    if !s.releaseReady k g g.ord (s.scopeAt g l) then .wait .earlier s
    else
      let s := arrive (closeRegion s k) k g l
      .wait (.barrier l) (s.modGroup k (fun g' => { g' with inbar := setBit g'.inbar l true })))

/-! ### Stage rings (R340, R341) -/

/-- The stages that a launch declares for a ring (spec/02 R34). -/
def Launch.stages (l : Launch) (r : Nat) : Nat := bits l.ringstg (4 * r + 3) (4 * r)

/-- An undeclared ring or stage; a ring that the team does not hold, or released while the group waited on it (spec/06 R139);
then `next`. -/
def ringGate (g : Group) (s : State) (r st : Nat) (next : Team → Gate) : Gate :=
  if (s.launchOf g).stages r ≤ st then .trap { code := 1 }
  else if g.blocked = some (.unheld r) then .trap (notHeld 2 r)
  else match s.team g.id.team with
    | none => .trap (notHeld 2 r)
    | some t => if t.ringHeld.getLsbD r then next t else .trap (notHeld 2 r)

/-- Whether a stage of a ring of the group's team holds a phase. -/
def State.ringHas (s : State) (g : Group) (r st : Nat) (p : Bool) : Bool :=
  match s.team g.id.team with
  | some t => t.ringPhase r st == p
  | none => false

/-! ### Channels (R342 to R348) -/

/-- The kind of the endpoint that an element goes to: none where the endpoint refuses the send. -/
def State.target (s : State) (g : Group) (dest : Word) (ep : Nat) : Option Nat :=
  if 575 < dest.toNat then none
  else match Tab.get (s.core dest.toNat).eps ep with
    | none => none
    | some e =>
      match s.team e.team with
      | none => none
      | some t =>
        match s.grid t.grid with
        | none => none
        | some gr => if gr.asid = g.id.asid then some e.kind else none

/-- The value of sA + 1. -/
def Group.target (g : Group) (a : BitVec 5) : Word := g.sreg (a.toNat + 1)

def channelTrap (e : BitVec 5) (v : Word) : Trap := { code := 24, info0 := BitVec.ofNat 64 e.toNat, info1 := v }

/-- An offer leaves: the release at device scope, then the packet. -/
def postOffer (s : State) (k : Nat) (g : Group) (a e : BitVec 5) (try_ issued : Bool) : State :=
  let s := releaseStores s k .device
  { s with
    offers := s.offers ++ [{ group := k, src := g.id.core, core := (g.target a).toNat, ep := e.toNat
                             value := g.sreg a.toNat, try_ := try_, seq := s.tc0, issued := issued }]
    tc0 := s.tc0 + 1 }

/-- A group offers and waits: with a `send`, or with a `trysend`, whose destination `d` is empty meanwhile. -/
def offer (s : State) (k : Nat) (g : Group) (a e : BitVec 5) (d : Option (BitVec 5)) : State :=
  (postOffer s k g a e d.isSome false).modGroup k (fun g' => match d with
    | none => { g' with send := .offered }
    | some d => { g'.setEmpty (sr d) true with send := .asked d.toNat })

def Group.answered (g : Group) : Bool :=
  match g.send with
  | .answered _ => true
  | _ => false

/-- The checks of a send; a `trysend` is refused in its body, and its wait is no long-latency dependence. -/
def sendGate (a e : BitVec 5) (d : Option (BitVec 5)) (k : Nat) (g : Group) (s : State) : Gate :=
  let b : Block := if d.isSome then .answer else .send
  if g.answered then .pass
  else if g.offering && s.offerOpen k then .wait b s
  else match s.target g (g.target a) e.toNat with
    | none => if d.isSome then .pass else .trap (channelTrap e (g.target a))
    | some kind =>
      if !s.releaseReady k g g.ord .device then .wait .earlier s
      else if kind = 2 && d.isNone then .pass
      else .wait b (offer (if d.isSome then s else closeRegion s k) k g a e d)

/-- A group's `send` or `trysend` has its answer. -/
def answerSend (s : State) (k v : Nat) : State :=
  s.modGroup k (fun g => { (match g.send with | .asked d => g.setEmpty (.s d) false | _ => g) with send := .answered v })

/-- The answer to a `trysend`, on its way from a core; one whose element has been taken has had its effect, so its group's
region closes (spec/21 R392). -/
def postAnswer (s : State) (o : Waiter) (core v : Nat) : State :=
  (if v = 0 then closeRegion s o.group else s).inject [(core, o.core, .answer o.group v)]

/-- The answers 1 to the `trysend`s among the offers that wait at an endpoint. -/
def refuseTries (s : State) (core ep : Nat) (e : Endpoint) : State :=
  (e.offers.filter (·.try_)).foldl (fun s o => postAnswer s o core 1) (s.modCore core (fun c =>
    { c with eps := Tab.set c.eps ep { e with offers := e.offers.filter (fun o => !o.try_) } }))

def State.setEp (s : State) (core ep : Nat) (e : Endpoint) : State := s.modCore core (fun c => { c with eps := Tab.set c.eps ep e })

/-- The first offer queued at an endpoint of kind 3 starts a group where it may (spec/03 R63); where the team runs and no context
slot is free, every `trysend` that has arrived is answered 1 (R342). -/
def launchOne (s : State) (core ep : Nat) : State :=
  match Tab.get (s.core core).eps ep with
  | none => s
  | some e =>
    match e.kind, e.offers with
    | 3, o :: rest =>
      (match startArrival s e.team ep o.value with
      | some s =>
        let s := s.setEp core ep { e with offers := rest }
        if o.try_ then postAnswer s o core 0 else answerSend s o.group 0
      | none =>
        let running : Bool := match s.team e.team with | some t => t.started && t.status == .running | none => false
        if running then refuseTries s core ep e else s)
    | _, _ => s

def launchAll (s : State) (core ep : Nat) : Nat → State
  | 0 => s
  | n + 1 => launchAll (launchOne s core ep) core ep n

/-- Whether an endpoint refuses an offer that arrives: it is unbound, or bound in another address space (R342). -/
def State.refuses (s : State) (o : Offer) : Bool :=
  match s.group o.group with
  | some g => (s.target g (BitVec.ofNat 64 o.core) o.ep).isNone
  | none => false

/-- An offer arrives at its endpoint (R342, R344); the element of a `send` that has issued goes to an endpoint of kind 2 only. -/
def arriveOffer (s : State) (o : Offer) : State :=
  let w : Waiter := { group := o.group, core := o.src, value := o.value, try_ := o.try_ }
  match Tab.get (s.core o.core).eps o.ep with
  | none => if o.try_ then postAnswer s w o.core 2 else s
  | some e =>
    if s.refuses o || (o.issued && e.kind != 2) then (if o.try_ then postAnswer s w o.core 2 else s)
    else match e.kind with
    | 1 =>
      if !o.try_ then s.setEp o.core o.ep { e with offers := e.offers ++ [w] }
      else if e.offers.length < e.recvs.length then
        postAnswer (s.setEp o.core o.ep { e with offers := e.offers ++ [w] }) w o.core 0
      else postAnswer s w o.core 1
    | 2 =>
      let n := e.seq + 1
      let v := BitVec.ofNat 64 (bits o.value 47 0 + n.toNat * 2 ^ 48)
      let s := s.setEp o.core o.ep { e with seq := n, unread := some (v, o.src) }
      if o.try_ then postAnswer s w o.core 0 else s
    | _ => launchAll (s.setEp o.core o.ep { e with offers := e.offers ++ [w] }) o.core o.ep (e.offers.length + 1)

/-- Places the group among the receivers of an endpoint. -/
def Endpoint.join (e : Endpoint) (k : Nat) : Endpoint := if e.recvs.contains k then e else { e with recvs := e.recvs ++ [k] }

/-- The checks of `recv`. -/
def recvGate (ep : BitVec 5) (k : Nat) (g : Group) (s : State) : Gate :=
  match Tab.get (s.core g.id.core).eps ep.toNat with
  | none => .trap (notHeld 3 ep.toNat)
  | some e =>
    if e.team ≠ g.id.team then .trap (notHeld 3 ep.toNat)
    else if e.kind = 3 then .trap (channelTrap ep 0)
    else
      let e' := e.join k
      if e'.servesAt (e'.recvs.findIdx (· == k)) then .pass
      else .wait (.recv ep.toNat) (s.setEp g.id.core ep.toNat e')

/-- The element that a receiver takes, with its sender's core; the sender may then issue. -/
def takeElement (s : State) (core ep k : Nat) : State × Word × Nat :=
  match Tab.get (s.core core).eps ep with
  | none => (s, 0, core)
  | some e =>
    let e' := e.join k
    let i := e'.recvs.findIdx (· == k)
    let left := dropAt e'.recvs i
    match e.offers[i]?, e.unread with
    | some o, _ =>
      let s := s.setEp core ep { e with offers := dropAt e.offers i, recvs := left }
      (if o.try_ then s else answerSend s o.group 0, o.value, o.core)
    | none, some (v, c) => (s.setEp core ep { e with unread := none, recvs := left }, v, c)
    | none, none => (s, 0, core)

/-- The value that `chstat` reads (R346). -/
def chstatValue (c : Core) (t ep : Nat) : Word :=
  match Tab.get c.eps ep with
  | none => 0
  | some e =>
    BitVec.ofNat 64 (e.kind + (if e.team = t then 2 ^ 2 else 0) + (if e.unread.isSome then 2 ^ 3 else 0) +
      min 255 e.offers.length * 2 ^ 8 + min 255 e.recvs.length * 2 ^ 16 + (if e.kind = 2 then e.seq.toNat * 2 ^ 32 else 0))

/-! ### Releases of barriers (R338) -/

/-- The releases of a generation for the teams of one cluster are injected, at the team whose arrival completed it (R338).  DESIGN
CHOICE (log entry 68): the source of the packets, for their order and for the limit of 16 in flight, is that team's core. -/
def injectReleases (s : State) (b : Barrier) (cluster : Nat) : State :=
  let l := match s.grid b.grid with | some g => g.launch | none => {}
  let ts := (s.teams.map (·.2)).filter (fun t =>
    t.grid == b.grid && clusterOf t.core == cluster && l.unitOf t.index b.level == b.unit)
  s.inject (ts.map (fun t => (b.source, t.core, .release b.grid b.level b.unit t.index b.done)))

/-! ### The instructions -/

/-- R323: the waits of R181; a release, an acquire, or both. -/
def execFence (s : Scope) (k : FenceKind) : State → Host.Outcome State Fault Refusal :=
  issue (encFence s k) (fun _ => { closes := releases k })
    (fun kk g st => settleGate kk g st (if releases k then relGate kk g st s else .pass))
    (fun kk _ st =>
      let st := if releases k then releaseStores st kk s else st
      { s := if acquires k then acquireViews st kk s else st })

/-- R334: arrives once, then waits for the generation. -/
def execBar (l : BitVec 3) : State → Host.Outcome State Fault Refusal :=
  issue (encBar l) (fun _ => { closes := true }) (barBoth l.toNat) (fun k g s => { s := depart s k g l.toNat })

/-- R334: a release at the level's scope, and the arrival. -/
def execBarArrive (l : BitVec 3) : State → Host.Outcome State Fault Refusal :=
  issue (encBarArrive l) (fun _ => { closes := true })
    (fun k g s => barGate k g s l.toNat false (relGate k g s (s.scopeAt g l.toNat)))
    (fun k g s => { s := arrive s k g l.toNat })

/-- R334: waits for the generation, then an acquire at the level's scope. -/
def execBarWait (l : BitVec 3) : State → Host.Outcome State Fault Refusal :=
  issue (encBarWait l) (fun _ => {}) (fun k g s => waitGate k g s l.toNat) (fun k g s => { s := depart s k g l.toNat })

/-- R340: waits for the phase, then an acquire at team scope. -/
def execRingWait (g : BitVec 4) (s : BitVec 3) (p : Bool) : State → Host.Outcome State Fault Refusal :=
  issue (encRingWait g s p) (fun _ => {})
    (fun _ gr st => ringGate gr st g.toNat s.toNat (fun t =>
      if t.ringPhase g.toNat s.toNat == p then .pass else .wait (.ring g.toNat s.toNat p) st))
    (fun k _ st => { s := acquireViews st k .team })

/-- R340: a release at team scope; the phase toggles at the end of the next clock. -/
def execRingSig (g : BitVec 4) (s : BitVec 3) : State → Host.Outcome State Fault Refusal :=
  issue (encRingSig g s) (fun _ => { closes := true })
    (fun k gr st => ringGate gr st g.toNat s.toNat (fun _ => relGate k gr st .team))
    (fun k gr st => { s := (releaseStores st k .team).modCore gr.id.core (fun c =>
      { c with ringT := c.ringT ++ [⟨c.clk + 1, c.position k, gr.id.team, 8 * g.toNat + s.toNat⟩] }) })

/-- R340: tests the phase; it acquires at team scope where it writes 1. -/
def execRingTest (d : BitVec 5) (g : BitVec 4) (s : BitVec 3) (p : Bool) : State → Host.Outcome State Fault Refusal :=
  issue (encRingTest d g s p) (fun gr => needS gr [] (some (sr d)) false false)
    (fun _ gr st => ringGate gr st g.toNat s.toNat (fun _ => .pass))
    (fun k gr st =>
      let yes := st.ringHas gr g.toNat s.toNat p
      let st := st.modGroup k (fun g' => g'.setS d.toNat (if yes then 1 else 0))
      { s := if yes then acquireViews st k .team else st })

/-- R342: an offer that waits to be taken, or an element that a latest-value endpoint stores. -/
def execSend (a e : BitVec 5) (l : Bool) : State → Host.Outcome State Fault Refusal :=
  issue (encSend a e l) (fun g => { needS g [(sr a, l), (.s (a.toNat + 1), false)] none false false with closes := true })
    (sendGate a e none)
    (fun k g s =>
      let s := if g.answered then s else postOffer s k g a e false true
      { s := s.modGroup k (fun g' => { g' with send := .none }) })

/-- R343: takes an element, which arrives later; then an acquire at device scope. -/
def execRecv (d e : BitVec 5) : State → Host.Outcome State Fault Refusal :=
  issue (encRecv d e) (fun g => { needS g [] (some (sr d)) false false with closes := true }) (recvGate e)
    (fun k g s =>
      let (s, v, from_) := takeElement s g.id.core e.toNat k
      let a : Access := { op := .recv v, ord := g.ord, dest := if d = 0 then none else some (sr d), bits := 64, sext := false
                          scope := some .device, acq := true, rel := false, vol := false
                          parts := [{ lane := 0, off := 0, va := 0, pa := 0, n := 8, kind := .rc, val := v.toNat }]
                          pc := g.bundlePc, insn := (encRecv d e) }
      let s := s.modGroup k (fun g' =>
        { g'.await g (sr d) with ord := g.ord + 1, accs := g'.accs ++ [a] })
      { s := s.inject [(from_, g.id.core, .element k g.ord)] })

/-- R342: an offer decided when it arrives; D receives the answer, or 2 where it is refused. -/
def execTrysend (d a e : BitVec 5) (l : Bool) : State → Host.Outcome State Fault Refusal :=
  issue (encTrysend d a e l) (fun g => { needS g [(sr a, l), (.s (a.toNat + 1), false)] (some (sr d)) false false with
      closes := g.send == .answered 0 })
    (sendGate a e (some d))
    (fun k g s =>
      let v := match g.send with
        | .answered v => v
        | _ => 2
      { s := s.modGroup k (fun g' => { g'.setS d.toNat (BitVec.ofNat 64 v) with send := .none }) })

/-- R346: the state of an endpoint. -/
def execChstat (d e : BitVec 5) : State → Host.Outcome State Fault Refusal :=
  issue (encChstat d e) (fun g => needS g [] (some (sr d)) false false) noGate
    (fun k g s => { s := s.modGroup k (fun g' => g'.setS d.toNat (chstatValue (s.core g.id.core) g.id.team e.toNat)) })

/-- R338: the releases of a generation for the next cluster in rank are injected. -/
def execBarrierReleaseInjection (idx : Nat) : State → Host.Outcome State Fault Refusal :=
  fun s =>
    match s.barriers[idx]? with
    | none => .next s
    | some b =>
      match b.inject with
      | [] => .next s
      | c :: rest =>
        .next (settleUnit (injectReleases (s.setBarrier { b with inject := rest }) b c) b.grid b.level b.unit b.source)

/-- R342, R344: an offer arrives at its endpoint; offers from one core to one core keep their order. -/
def execChannelOfferArrival (idx : Nat) : State → Host.Outcome State Fault Refusal :=
  fun s =>
    match s.offers[idx]? with
    | none => .next s
    | some o =>
      if s.mayArrive o.src o.core o.seq then .next (arriveOffer { s with offers := dropAt s.offers idx } o) else .next s

/-- spec/03 R63: the first element queued at an endpoint of kind 3 starts a group. -/
def execArrivalLaunch (core ep : Nat) : State → Host.Outcome State Fault Refusal :=
  fun s => .next (launchOne s core ep)

end Sys2Proof.Machine
end

