-- ==== Sys2Proof/Machine/Acquire.lean ====
section
/-!
DEFINITION. Acquisition and release of resources, and the register kills: major 0x3C but for the performance codes and
`pdrop`, `vkill` and `skill` of major 0x3D (spec/06 R130 to R143, spec/05 R117).
-/

namespace Sys2Proof.Machine

def kindCode : AcqKind → Nat
  | .pin => 0
  | .plane => 1
  | .acc => 2
  | .tag => 3
  | .ring => 4

/-- The values of sA that R130 refuses. -/
def requestTrap (l : Launch) (k : AcqKind) (v : Word) : Option Trap :=
  match k with
  | .pin => if bits v 63 32 ≠ 0 then some { code := 1 } else none
  | .plane => if (rectOf v).isNone then some (handleTrap v) else none
  | .acc => if bits v 63 12 ≠ 0 then some { code := 1 } else none
  | .tag => none
  | .ring =>
    if bits v 63 16 ≠ 0 || (List.range 16).any (fun r => v.getLsbD r && l.stages r == 0) then some { code := 1 } else none

/-- The acquisition unit has taken a request or, at place 0, a release of group `k` in this clock (R136); one of kind plane has
taken the scalar slot (spec/10 R219). -/
def noteAcq (s : State) (core place : Nat) (kind : AcqKind) : State :=
  s.modCore core (fun c => { c.acqAt place with planeLate := c.planeLate || kind == .plane })

/-- The claim-overrun trap of a request (R133). -/
def overrunTrap (kind : AcqKind) (v : Word) : Trap := { code := 11, info0 := BitVec.ofNat 64 (kindCode kind), info1 := v }

/-- The check of an `acq.w` or `acq.f` up to the decision, which `next` acts on: its place in the order of the clock (R136),
scrolls over the words of a plane request (spec/10 R219), and the fill of the live registers of a pin request (R138). -/
def acqGate (k : Nat) (g : Group) (s : State) (kind : AcqKind) (v : Word) (next : Decision → Gate) : Gate :=
  match requestTrap (s.launchOf g) kind v, s.team g.id.team with
  | some t, _ => .trap t
  | none, none => .pass
  | none, some t =>
    if (s.core g.id.core).acqPast (s.acqPlace k g) then .wait (.queue .unit) s
    else if (s.core g.id.core).holdsBack kind v then .wait .plane s
    else match s.decide g t kind v with
    | .overrun => .trapIn (overrunTrap kind v) (noteAcq s g.id.core (s.acqPlace k g) kind)
    | .granted =>
      (match s.unfilled k g kind v with
      | r :: rs => .wait (.fill (r :: rs) (((List.range 32).filter (fun n => v.getLsbD n)).map Reg.v)) s
      | [] => next .granted)
    | d => next d

/-- An `acq.w` waits (R133, R134). -/
def joinWaits (s : State) (k : Nat) (g : Group) (kind : AcqKind) (v : Word) : Gate :=
  .wait .grant (noteAcq (s.modCore g.id.core (fun c => { c with acqWaits := c.acqWaits ++ [⟨g.id.team, k, kind, v⟩] }))
    g.id.core (s.acqPlace k g) kind)

/-- The checks of `acq.w`: what its wait came to stands. -/
def acqWait (k : Nat) (g : Group) (s : State) (kind : AcqKind) (v : Word) : Gate :=
  if g.blocked = some .granted then .pass
  else if g.blocked = some .overran then .trap (overrunTrap kind v)
  else if (s.core g.id.core).acqWaits.any (fun w => w.group == k) then .wait .grant s
  else acqGate k g s kind v (fun d =>
    match d with
    | .granted | .overrun => .pass
    | .unsafeState => joinWaits s k g kind v
    | .busy =>
      match s.cycleSlot g.id.core g.id.team kind v with
      | some u => .trapIn { code := 12, info0 := BitVec.ofNat 64 (kindCode kind), info1 := BitVec.ofNat 64 u }
          (noteAcq s g.id.core (s.acqPlace k g) kind)
      | none => joinWaits s k g kind v)

/-- A grant that the unit makes as the request issues. -/
def grantNow (s : State) (k : Nat) (g : Group) (kind : AcqKind) (v : Word) : State :=
  noteAcq (grant s k kind v) g.id.core (s.acqPlace k g) kind

/-- Whether a release of team `t` waits for scrolls and commands of the team queued before number `n` that touch what it names
(R139). -/
def State.relBusy (s : State) (core t : Nat) (kind : AcqKind) (v : Word) (n : Nat) : Bool :=
  let c := s.core core
  let scrolls := c.scrolls.filter (fun x => x.team == t && x.seq < n)
  let copies := c.copies.filter (fun x => x.team == t && x.seq < n)
  let mats := c.mq.filter (fun e => e.team == t && e.seq < n)
  match kind with
  | .plane =>
    (match rectOf v with
    | none => false
    | some r =>
      scrolls.any (fun x => match rectOf x.handle with | some q => q.keys.any r.has | none => false) ||
        copies.any (fun x => (planeWords (x.sources s core ++ x.dests s core)).any (fun w => w.1 == core && r.has w.2)) ||
        mats.any (fun e => (e.words s).any r.has || match e.kind with
          | .accrd => e.rect.keys.any r.has
          | _ => false))
  | .acc => mats.any (fun e => (List.range e.slots).any (fun i => v.getLsbD (e.slot + i)))
  | .tag => copies.any (fun x => v.getLsbD x.tag)
  | _ => false

/-- A `rel` of group `k` has issued: it takes effect at once, or once what was queued before it has completed (R139). -/
def relNow (s : State) (k : Nat) (g : Group) (kind : AcqKind) (v : Word) : State :=
  let s := noteAcq s g.id.core 0 kind
  let n := (s.core g.id.core).seq
  if s.relBusy g.id.core g.id.team kind v n then
    s.modCore g.id.core (fun c => { c with rels := c.rels ++ [⟨g.id.team, k, kind, v, n⟩], seq := n + 1 })
  else release s k kind v

/-- The releases of core `c` that have come due take effect, in the order of their issue; in a clock in which the unit has gone
past releases they wait (R136). -/
def settleRels (s : State) (c : Nat) : State :=
  if (s.core c).acqPast 0 then s
  else (s.core c).rels.foldl (fun s w =>
    if s.relBusy c w.team w.kind w.value w.seq then s
    else redecide (releaseTeam (s.modCore c (fun x => { x with rels := x.rels.filter (· != w) })) c w.team w.kind w.value) c) s

/-! ### The instructions and the event -/

/-- R133, R134: waits until the request is granted. -/
def execAcqW (a : BitVec 5) (k : AcqKind) : State → Host.Outcome State Fault Refusal :=
  issue (encAcqW a k) (fun g => { needS g [(sr a, false)] none false false with closes := true })
    (fun kk g s => acqWait kk g s k (g.sreg a.toNat))
    (fun kk g s => { s := if g.blocked = some .granted then s else grantNow s kk g k (g.sreg a.toNat) })

/-- R133: grants, or writes 1 (busy) or 2 (refused as unsafe). -/
def execAcqF (d a : BitVec 5) (k : AcqKind) : State → Host.Outcome State Fault Refusal :=
  issue (encAcqF d a k) (fun g => { needS g [(sr a, false)] (some (sr d)) false false with closes := true })
    (fun kk g s => acqGate kk g s k (g.sreg a.toNat) (fun _ => .pass))
    (fun kk g s =>
      let v := g.sreg a.toNat
      let r := match s.team g.id.team with
        | some t => s.decide g t k v
        | none => .busy
      let s := match r with
        | .granted => grantNow s kk g k v
        | _ => noteAcq s g.id.core (s.acqPlace kk g) k
      let n : Word := match r with
        | .granted => 0
        | .unsafeState => 2
        | _ => 1
      { s := s.modGroup kk (fun g' => g'.setS d.toNat n) })

/-- R139: releases what sA names, once no queued scroll touches the words (spec/10 R219); the group goes on, and the release takes
effect after what was queued before it. -/
def execRel (a : BitVec 5) (k : AcqKind) : State → Host.Outcome State Fault Refusal :=
  issue (encRel a k) (fun g => { needS g [(sr a, false)] none false false with closes := true })
    (fun _ g s =>
      match requestTrap (s.launchOf g) k (g.sreg a.toNat) with
      | some t => .trap t
      | none =>
        if (s.core g.id.core).holdsBack k (g.sreg a.toNat) then .wait .plane s
        else if (s.core g.id.core).acqPast 0 then .wait (.queue .unit) s
        else .pass)
    (fun kk g s => { s := relNow s kk g k (g.sreg a.toNat) })

/-- spec/05 R117: the lane registers D to A become dead. -/
def execVkill (d a : BitVec 5) : State → Host.Outcome State Fault Refusal :=
  issue (encVkill d a) (fun _ => { frees := ((List.range 32).filter (fun n => d.toNat ≤ n && n ≤ a.toNat)).map Reg.v })
    (fun _ _ _ => if a.toNat < d.toNat then .trap { code := 1 } else .pass) (fun _ _ s => { s := s })

/-- spec/05 R117: the scalars D to A become dead, but for s0. -/
def execSkill (d a : BitVec 5) : State → Host.Outcome State Fault Refusal :=
  issue (encSkill d a) (fun _ => { frees := ((List.range 32).filter (fun n => n ≠ 0 && d.toNat ≤ n && n ≤ a.toNat)).map Reg.s })
    (fun _ _ _ => if a.toNat < d.toNat then .trap { code := 1 } else .pass) (fun _ _ s => { s := s })

/-- R137: the words and slots of a core that were being cleared read zero. -/
def execClearingComplete (core : Nat) : State → Host.Outcome State Fault Refusal :=
  fun s =>
    let s := s.modCore core (fun c => { c with plane := c.plane.map (fun (n, w) => (n, { w with clr := false })) })
    .next { s with teams := s.teams.map (fun (n, t) => (n, if t.core == core then { t with accClr := 0 } else t)) }

end Sys2Proof.Machine
end

