-- ==== Sys2Proof/Machine/Place.lean ====
section
/-!
DEFINITION. Launch records: their fields and the checks of spec/02 R26 to R42 and spec/03 R58; placement of a grid's units
(spec/03 R53 to R59, R65).
-/

namespace Sys2Proof.Machine

/-! ### The record (spec/02 R31, R32) -/

/-- Dword `i` of a record of 24 dwords. -/
def recDw (rec i : Nat) : Nat := rec / 2 ^ (64 * i) % 2 ^ 64

/-- The reserved bits of each dword, as ranges (R32). -/
def recReserved : List (Nat × Nat × Nat) :=
  [(0, 63, 24), (1, 63, 57), (2, 63, 24), (3, 63, 48), (4, 63, 48), (5, 63, 25), (6, 63, 57), (7, 63, 57), (8, 31, 24),
   (8, 63, 40), (9, 63, 57), (10, 63, 16), (12, 63, 30), (13, 39, 27), (14, 39, 27), (15, 39, 27), (16, 39, 27), (17, 63, 24),
   (18, 7, 7), (18, 15, 12), (18, 23, 23), (18, 31, 29), (18, 47, 42), (18, 63, 56), (21, 3, 2), (21, 15, 10), (21, 63, 59),
   (22, 63, 11), (23, 63, 0)]

def recLevel (rec i : Nat) : Level :=
  let d := recDw rec i
  { count := nbits d 23 0, domain := nbits d 26 24, dieset := nbits d 63 40 }

def parseLaunch (rec : Nat) : Launch :=
  let d := recDw rec
  { imgbase := nbits (d 1) 56 0, imgwords := nbits (d 2) 23 0, entryvec := nbits (d 3) 23 0, entrymat := nbits (d 3) 47 24
    entrycpy := nbits (d 4) 23 0, entryarr := nbits (d 4) 47 24, entrytrap := nbits (d 5) 23 0, trapen := (d 5).testBit 24
    args := nbits (d 6) 56 0, ctxbase := nbits (d 7) 56 0, ctxslots := nbits (d 8) 23 0, ctxstride := nbits (d 8) 39 32
    savebase := nbits (d 9) 56 0, savestride := nbits (d 10) 15 0, modeinit := BitVec.ofNat 32 (nbits (d 11) 31 0)
    seedinit := BitVec.ofNat 32 (nbits (d 11) 63 32), ncpy := nbits (d 12) 7 0, nmat := nbits (d 12) 15 8
    nvec := nbits (d 12) 23 16, footcpy := nbits (d 12) 25 24 + 1, footmat := nbits (d 12) 27 26 + 1
    footvec := nbits (d 12) 29 28 + 1, levels := [recLevel rec 13, recLevel rec 14, recLevel rec 15, recLevel rec 16]
    count7 := nbits (d 17) 23 0, pinrows := nbits (d 18) 6 0, accslots := nbits (d 18) 11 8, tags := nbits (d 18) 22 16
    rings := nbits (d 18) 28 24, area := nbits (d 18) 41 32, depth := nbits (d 18) 55 48, ringstg := BitVec.ofNat 64 (d 19)
    chkind := BitVec.ofNat 64 (d 20), affmode := nbits (d 21) 1 0, affheap := nbits (d 21) 8 4, strict := (d 21).testBit 9
    heapmask := nbits (d 21) 39 16, spacing := nbits (d 21) 55 40, resident := (d 21).testBit 56
    arrrole := nbits (d 21) 58 57, pincore := nbits (d 22) 9 0, pinen := (d 22).testBit 10 }

/-! ### Refusal (spec/02 R42, spec/03 R58) -/

def dieCount (set : Nat) : Nat := ((List.range 24).filter (fun d => set.testBit d)).length

/-- Teams that one instance of a level's domain holds (R27). -/
def Level.capacity (v : Level) : Nat :=
  match v.domain with
  | 1 => 48
  | 2 => 192
  | 3 => 192 * dieCount v.dieset
  | _ => 4608

def Launch.declared (l : Launch) : List Level := l.levels.filter (fun v => v.domain != 0)

/-- The declared levels from the inside outward, each with a domain above `prev`, holding `n` teams for each of its units so
far (R26, R27). -/
def levelsOk : Nat → Nat → List Level → Bool
  | _, _, [] => true
  | prev, n, v :: t =>
    if v.domain = 0 then v.count == 0 && v.dieset == 0 && levelsOk prev n t
    else prev < v.domain && v.domain ≤ 4 && 1 ≤ v.count && (v.domain == 3 || v.dieset == 0) &&
      n * v.count ≤ v.capacity && levelsOk v.domain (n * v.count) t

def Launch.ringsDeclared (l : Launch) : Nat := ((List.range 16).filter (fun g => bits l.ringstg (4 * g + 3) (4 * g) != 0)).length

/-- The kind of endpoint `c` (R35). -/
def Launch.kindOf (l : Launch) (c : Nat) : Nat := bits l.chkind (2 * c + 1) (2 * c)

def Launch.arrives (l : Launch) : Bool := (List.range 32).any (fun c => l.kindOf c == 3)

def Launch.entryOk (l : Launch) (used : Bool) (e : Nat) : Bool := !used || (64 ≤ e && e < l.imgwords)

/-- The largest footprint that a context slot must hold (R36). -/
def Launch.widest (l : Launch) : Nat :=
  [if l.ncpy != 0 then l.footcpy else 0, if l.nmat != 0 then l.footmat else 0, if l.nvec != 0 then l.footvec else 0,
    if l.resident then l.foot (roleOfCode l.arrrole) else 0].foldl max 0

/-- The dies that AFFMODE names. -/
def Launch.affDies (l : Launch) : List Nat :=
  match l.affmode with
  | 1 => [l.affheap]
  | 2 => (List.range 24).filter (fun d => l.heapmask.testBit d)
  | _ => []

/-- The refusal codes of a record with the condition of each, lowest first. -/
def refusals (rec addr : Nat) (l : Launch) (supv : Bool) : List (Nat × Bool) :=
  let d0 := recDw rec 0
  [(2, nbits d0 15 0 != 0x5A4C || nbits d0 23 16 != 1 || addr % 64 != 0),
   (3, recReserved.any (fun x => nbits (recDw rec x.1) x.2.1 x.2.2 != 0)),
   (4, !levelsOk 0 1 l.levels || l.count7 == 0),
   (5, l.ordinary == 0),
   (6, 48 < l.pinrows || 12 < l.accslots || 64 < l.tags || 16 < l.rings || 768 < l.area || 128 < l.depth),
   (7, (List.range 16).any (fun g => 8 < bits l.ringstg (4 * g + 3) (4 * g)) || l.ringsDeclared < l.rings ||
       l.resident != l.arrives || l.arrrole == 3),
   (8, l.imgbase % 4096 != 0 || l.imgwords < 65 || !l.entryOk (l.nvec != 0) l.entryvec || !l.entryOk (l.nmat != 0) l.entrymat ||
       !l.entryOk (l.ncpy != 0) l.entrycpy || !l.entryOk l.resident l.entryarr || !l.entryOk l.trapen l.entrytrap),
   (9, l.ctxbase % 65536 != 0 || l.savebase % 65536 != 0 || l.ctxstride < l.widest || l.ctxslots < l.ordinary ||
       l.savestride * 65536 < l.area * l.depth * 8 + l.accslots * 65536 + 4096 || l.ctxstride == 0 || 4 < l.ctxstride),
   (10, l.affmode == 3 || (l.affmode == 1 && 23 < l.affheap) || (l.affmode == 2 && l.heapmask == 0) || (l.pinen && !supv) ||
       (l.pinen && (575 < l.pincore || !l.declared.isEmpty || 8 < l.count7)) ||
       (l.strict && (l.affmode == 1 || l.affmode == 2) &&
         l.declared.any (fun v => v.domain == 3 && !l.affDies.any (fun d => v.dieset.testBit d))))]

/-- The code that refuses a record: the lowest that applies. -/
def refusal (rec addr : Nat) (l : Launch) (supv : Bool) : Option Nat :=
  ((refusals rec addr l supv).find? (·.2)).map (·.1)

/-! ### Units (R53) -/

/-- The outermost declared optional level. -/
def Launch.outermost (l : Launch) : Option Level := l.declared.getLast?

/-- The teams of one placement unit, and of the grid. -/
def Launch.unitTeams (l : Launch) : Nat := (l.declared.map (·.count)).foldl (· * ·) 1
def Launch.total (l : Launch) : Nat := l.unitTeams * l.count7

/-- The endpoints that a team binds. -/
def Launch.binds (l : Launch) : BitVec 32 := BitVec.ofNat 32 (bitsOf (fun c => l.kindOf c != 0) 32)

/-! ### Free places (R54) -/

/-- Used team slots and bound endpoints of each core: those of the device, or none, with what a decision has placed so far; and the
cores that take no team. -/
structure Occ where
  base : Nat → Nat × BitVec 32
  moved : Tab (Nat × BitVec 32)
  shut : Nat → Bool := fun _ => false

def Occ.at (o : Occ) (c : Nat) : Nat × BitVec 32 :=
  match Tab.get o.moved c with
  | some x => x
  | none => o.base c

/-- The module with every team slot free and every endpoint unbound (R55). -/
def Occ.empty : Occ := { base := fun _ => (0, 0), moved := [] }

/-- The module as it is. -/
def State.occ (s : State) : Occ :=
  { base := fun c => ((s.teamsOn c).length,
      BitVec.ofNat 32 (bitsOf (fun e => (Tab.get (s.core c).eps e).isSome) 32)), moved := [] }

/-- Cores that `p` names take no team. -/
def Occ.without (o : Occ) (p : Nat → Bool) : Occ := { o with shut := p }

def Occ.freeAt (o : Occ) (c : Nat) : Nat := 8 - (o.at c).1

/-- Whether core `c` takes a team that binds `need`. -/
def Occ.takes (o : Occ) (need : BitVec 32) (c : Nat) : Bool := !o.shut c && (o.at c).1 < 8 && (o.at c).2 &&& need == 0

def Occ.put (o : Occ) (need : BitVec 32) (c : Nat) : Occ :=
  { o with moved := Tab.set o.moved c ((o.at c).1 + 1, (o.at c).2 ||| need) }

/-- The first of the cores with most free team slots that takes a team (R57). -/
def Occ.best (o : Occ) (need : BitVec 32) (cores : List Nat) : Option Nat :=
  cores.foldl (fun b c =>
    if !o.takes need c then b
    else match b with
      | none => some c
      | some d => if o.freeAt d < o.freeAt c then some c else some d) none

/-- `n` teams go to cores in ascending index. -/
def Occ.fit (need : BitVec 32) (cores : List Nat) : Nat → Occ → Option (Occ × List Nat)
  | 0, o => some (o, [])
  | n + 1, o =>
    match o.best need cores with
    | none => none
    | some c => (Occ.fit need cores n (o.put need c)).map (fun r => (r.1, c :: r.2))

/-- The instances of a level's domain within the cores of the outer one, in the order in which they are tried (R57). -/
def Level.instances (v : Level) (cores : List Nat) : List (List Nat) :=
  let dies := (cores.map dieOf).eraseDups
  match v.domain with
  | 1 => (dies.flatMap (fun d => (List.range 4).map (fun i => cores.filter (fun c => clusterOf c == 4 * d + i)))).filter (!·.isEmpty)
  | 2 => dies.map (fun d => cores.filter (fun c => dieOf c == d))
  | 3 => [cores.filter (fun c => v.dieset.testBit (dieOf c))]
  | _ => [cores]

/-- `n` units placed one after another by `f`. -/
def placeMany (f : Occ → Option (Occ × List Nat)) : Nat → Occ → Option (Occ × List Nat)
  | 0, o => some (o, [])
  | n + 1, o =>
    match f o with
    | none => none
    | some r => (placeMany f n r.1).map (fun q => (q.1, r.2 ++ q.2))

/-- A unit of the declared levels, outermost first, placed on the cores of its instance: the cores of its teams. -/
def nest (need : BitVec 32) : List Level → List Nat → Occ → Option (Occ × List Nat)
  | [], cores, o => Occ.fit need cores 1 o
  | [v], cores, o => Occ.fit need cores v.count o
  | v :: w :: t, cores, o =>
    placeMany (fun o => firstSome (fun i => nest need (w :: t) i o) (w.instances cores)) v.count o

/-! ### Candidates (R56) -/

/-- Fabric hops between two dies (spec/01 R18). -/
def hops (a b : Nat) : Nat := (a % 6 - b % 6) + (b % 6 - a % 6) + (a / 6 - b / 6) + (b / 6 - a / 6)

def insertBy (key : Nat → Nat) (x : Nat) : List Nat → List Nat
  | [] => [x]
  | y :: t => if key x < key y then x :: y :: t else y :: insertBy key x t

/-- Sorted by a key, equal keys in their first order. -/
def sortBy (key : Nat → Nat) (l : List Nat) : List Nat := l.foldl (fun r x => insertBy key x r) []

def Occ.dieFree (o : Occ) (d : Nat) : Nat := ((List.range 24).map (fun i => o.freeAt (24 * d + i))).foldl (· + ·) 0

/-- Whether affinity with STRICT 1 confines a unit to the dies it names.  DEDUCED (log entry 82): it does not confine a unit of domain
module, whose cores it only orders. -/
def Launch.confined (l : Launch) : Bool :=
  l.strict && match l.outermost with | some v => v.domain != 4 | none => true

/-- The candidate dies of unit `u`, best first. -/
def candidates (l : Launch) (u : Nat) (o : Occ) : List Nat :=
  let allow := match l.outermost with
    | some v => if v.domain = 3 then (List.range 24).filter (fun d => v.dieset.testBit d) else List.range 24
    | none => List.range 24
  if l.affmode = 0 then sortBy (fun d => 192 - o.dieFree d) allow
  else
    let m := l.affDies
    let r := u % m.length
    let first := m.drop r ++ m.take r
    let near := fun d => (first.map (hops d)).foldl min 24
    let rest := if l.confined then [] else sortBy near ((List.range 24).filter (fun d => !first.contains d))
    (first ++ rest).filter (fun d => allow.contains d)

def coresOf (die : Nat) : List Nat := (List.range 24).map (fun i => 24 * die + i)

/-- Unit `u` placed where it can be: the cores of its teams in ascending index (R54, R56, R57, R65). -/
def placeUnit (l : Launch) (u : Nat) (o : Occ) : Option (Occ × List Nat) :=
  let dies := candidates l u o
  let spots := if l.pinen then [[l.pincore]]
    else match l.outermost with
      | some v => (match v.domain with
        | 1 => dies.flatMap (fun d => (List.range 4).map (fun i => (List.range 6).map (fun j => 24 * d + 6 * i + j)))
        | 2 => dies.map coresOf
        | _ => [dies.flatMap coresOf])
      | none => [dies.flatMap coresOf]
  firstSome (fun cores => nest l.binds l.declared.reverse cores o) spots

/-- Units from `u` on, `n` of them. -/
def placeUnits (l : Launch) : Nat → Nat → Occ → Option (List Nat)
  | _, 0, _ => some []
  | u, n + 1, o =>
    match placeUnit l u o with
    | none => none
    | some r => (placeUnits l (u + 1) n r.1).map (r.2 ++ ·)

/-- Whether a grid is co-resident (R55): a grid of more teams than the module has slots is not. -/
def Launch.coresident (l : Launch) : Bool := l.total ≤ 4608 && (placeUnits l 0 l.count7 Occ.empty).isSome

/-! ### Priorities and reservations (R52, R59) -/

/-- The effective priority of a queue. -/
def State.effPrio (s : State) (q : Nat) : Nat :=
  match readDesc s q with
  | some d => min 3 (d.prio + (s.queue q).raise)
  | none => min 3 (s.queue q).raise

/-- Whether a grid still waits to be placed. -/
def Grid.waits (g : Grid) : Bool := g.ended.isNone && g.next < g.launch.total

/-- The cores that a waiting grid's reservation takes in.  DESIGN CHOICE (log entry 47): those of the first candidate die alone, in a
domain of several dies too. -/
def State.reservedBy (s : State) (g : Grid) (c : Nat) : Bool :=
  let l := g.launch
  if l.pinen then c == l.pincore
  else
    let u := g.next / l.unitTeams
    let units := if g.coresident then (List.range (l.count7 - u)).map (u + ·) else [u]
    (units.map (fun u => (candidates l u s.occ).headD 0)).contains (dieOf c)

/-- Whether the reservation of grid `b` comes before that of grid `a` on a die that both would reserve. -/
def State.before (s : State) (b a : Grid) : Bool :=
  s.effPrio a.queue < s.effPrio b.queue || (s.effPrio a.queue == s.effPrio b.queue && b.since < a.since)

/-- Whether core `c` is held against grid `id` by another grid's reservation. -/
def State.heldAgainst (s : State) (id : Nat) (g : Grid) (c : Nat) : Bool :=
  let rs := s.grids.filter (fun x => x.2.reserves && x.2.waits && s.reservedBy x.2 c)
  match rs.find? (fun x => rs.all (fun y => y.1 == x.1 || s.before x.2 y.2)) with
  | none => false
  | some h => h.1 != id && s.effPrio g.queue ≤ s.effPrio h.2.queue

/-! ### Admission -/

/-- Team `index` of grid `id` is admitted to core `c`: it takes a slot, binds its endpoints and draws its linear key
(R54, R35, spec/10 R232). -/
def admitTeam (s : State) (id : Nat) (g : Grid) (index c : Nat) : State :=
  let t := s.nextId
  let x : Team := { grid := id, index := index, core := c, slot := s.pickTeamSlot c, nextNum := g.launch.ordinary
                    key := Config.linearKey s.fresh }
  let s := (s.setTeam t x).modCore c (fun k => { k with
    eps := ((List.range 32).filter (fun e => g.launch.kindOf e != 0)).foldl (fun eps e =>
      Tab.set eps e { team := t, kind := g.launch.kindOf e }) k.eps })
  { s.tickFresh with nextId := t + 1, front := { s.front with admitted := s.front.admitted ++ [t] } }

def admitAll (s : State) (id : Nat) (g : Grid) : Nat → List Nat → State
  | _, [] => s
  | i, c :: t => admitAll (admitTeam s id g i c) id g (i + 1) t

/-- A waiting grid's next unit is admitted whole, or all its units at once where it is co-resident. -/
def admitUnit (s : State) (id : Nat) : State :=
  match s.grid id with
  | none => s
  | some g =>
    if !g.waits then s
    else
      let l := g.launch
      let u := g.next / l.unitTeams
      let n := if g.coresident then l.count7 - u else 1
      match placeUnits l u n (s.occ.without (s.heldAgainst id g)) with
      | none => s
      | some cores =>
        let s := admitAll s id g g.next cores
        let s := s.modGrid id (fun g => { g with next := g.next + n * l.unitTeams, reserves := false, since := s.nextId })
        { s with nextId := s.nextId + 1 }

end Sys2Proof.Machine
end

