-- ==== Sys2Proof/Machine/Power.lean ====
section
/-!
DEFINITION. Performance levels (spec/19 R359 to R370): requests, caps, slack ceilings, the code in force, and the writes of
PERFCAP and SLEWCTL.
-/

namespace Sys2Proof.Machine

/-! ### The effective code (R360) -/

def maxOf (l : List Nat) : Nat := l.foldl max 0

/-- Rmax of a cluster: the largest request of a team that has a group on one of its cores and is not saved. -/
def State.rmax (s : State) (c : Nat) : Nat :=
  maxOf ((s.teams.filter (fun t => clusterOf t.2.core == c && t.2.status != .saved && t.2.status != .restarting && !(s.groupsOf t.1).isEmpty)).map (fun t =>
    t.2.request.toNat))

/-- CAP of a cluster (R361). -/
def Cluster.cap (c : Cluster) : Nat := min c.supCap.toNat c.mmcCap.toNat

/-- E of a cluster. -/
def State.effective (s : State) (c : Nat) : Nat := min (s.rmax c) (min (s.cluster c).cap (s.cluster c).ceil.toNat)

/-- The level next to `r` on the way to level `l`. -/
def nextRatio (r l : Nat) : Option Nat := if r < l then some (r + 1) else if l < r then some (r - 1) else none

/-- E changes to `e`: a move starts or is redirected (R362).  A lower frequency is in force from the next clock; a change of the
converter ratio that is under way completes first. -/
def Cluster.aim (x : Cluster) (e : Nat) : Cluster :=
  { x with
    goal := BitVec.ofNat 4 e
    code := if e < x.code.toNat then BitVec.ofNat 4 e else x.code
    moving := x.moving.orElse (fun _ => nextRatio x.ratio (e / 4)) }

/-- The next part of a move completes: a change of the ratio by one level, or a higher frequency within one level; the new frequency
applies with the last change of the ratio (R362). -/
def Cluster.advance (x : Cluster) : Cluster :=
  match x.moving with
  | none => { x with code := x.goal }
  | some r => { x with
      ratio := r
      moving := nextRatio r (x.goal.toNat / 4)
      code := if r = x.goal.toNat / 4 then x.goal else x.code }

def movePerf (s : State) (c : Nat) : State := if c < 96 then s.setCluster c (s.cluster c).advance else s

/-- Every cluster whose E has changed starts to move. -/
def settlePerf (s : State) : State :=
  ((s.clusters.map (·.1) ++ s.teams.map (fun t => clusterOf t.2.core)).eraseDups).foldl (fun t c =>
    if s.effective c = (s.cluster c).goal.toNat then t else t.setCluster c ((s.cluster c).aim (s.effective c))) s

/-- A team's request. -/
def setRequest (s : State) (g : Group) (r : Nat) : State := s.modTeam g.id.team (fun t => { t with request := BitVec.ofNat 4 r })

/-- The largest value of a lane register among the alive lanes. -/
def Group.maxLane (g : Group) (n : Nat) : Nat := maxOf ((lanesOf g.lanes (g.full &&& g.alive)).map (fun l => (g.vreg n l).toNat))

/-! ### Slack (R369) -/

/-- A throttled cluster: its cap holds E below Rmax. -/
def State.throttled (s : State) (c : Nat) : Bool :=
  (s.cluster c).cap < s.rmax c && (s.cluster c).cap ≤ (s.cluster c).ceil.toNat

/-- The throttled clusters whose teams' arrivals the generation that group `g` awaits at level `l` lacks. -/
def State.lacking (s : State) (g : Group) (l : Nat) : List Nat :=
  match s.grid g.id.grid, s.team g.id.team with
  | some gr, some x =>
    let u := gr.launch.unitOf x.index l
    let b := s.barrier g.id.grid l u
    if g.genBase.getD l 0 + g.gen.getD l 0 < b.done then []
    else
      (s.teams.map (·.2)).filterMap (fun t =>
        if t.grid == g.id.grid && gr.launch.unitOf t.index l == u && !s.counted gr b t.index &&
            s.throttled (clusterOf t.core) then some (clusterOf t.core) else none)
  | _, _ => []

/-- The level from 3 to 7 at whose barrier a group waits. -/
def Group.outerWait (g : Group) : Option Nat :=
  match g.blocked with
  | some (.barrier l) => if 3 ≤ l then some l else none
  | _ => none

/-- What the groups of a cluster wait for: none where the cluster is not slack now. -/
def State.slackNow (s : State) (c : Nat) : Option (List Nat) :=
  let gs := (s.groups.map (·.2)).filter (fun g => clusterOf g.id.core == c)
  let waits := gs.filterMap (fun g => g.outerWait.map (fun l => s.lacking g l))
  let others := gs.all (fun g => g.outerWait.isSome || (match g.gstate with | .active | .pending => false | _ => true))
  if waits.isEmpty || !others || waits.any List.isEmpty then none else some waits.flatten

/-- A cluster after a dwell boundary. -/
def dwell (s : State) (c : Nat) : Cluster :=
  let x := s.cluster c
  let now := s.slackNow c
  let slack := x.slack && now.isSome
  let t := (minOf ((now.getD []).map s.effective)).getD 11
  let x' :=
    if slack then
      if t < x.ceil.toNat then { x with ceil := x.ceil - 1, lowered := 0 } else { x with lowered := x.lowered + 1 }
    else if x.ceil < 11 && 2 ≤ x.lowered then { x with ceil := x.ceil + 1, lowered := x.lowered + 1 }
    else { x with lowered := x.lowered + 1 }
  { x' with slack := now.isSome }

/-- Slack lasts only while it holds throughout the dwell. -/
def keepSlack (s : State) : State :=
  { s with clusters := s.clusters.map (fun (c, x) => (c, { x with slack := x.slack && (s.slackNow c).isSome })) }

/-! ### The supervisor registers (R361, R365) -/

/-- A write of PERFCAP. -/
def writePerfcap (s : State) (v : Word) : State :=
  let c := bits v 6 0
  let code := bits v 11 8
  if 11 < code then s
  else if c = 127 then
    (List.range 96).foldl (fun s c => s.setCluster c { s.cluster c with supCap := BitVec.ofNat 4 code }) s
  else if c < 96 then s.setCluster c { s.cluster c with supCap := BitVec.ofNat 4 code }
  else s

/-- PERFCAP as core `core` reads it. -/
def readPerfcap (s : State) (core : Nat) : Word :=
  BitVec.ofNat 64 (clusterOf core + (s.cluster (clusterOf core)).supCap.toNat * 2 ^ 8)

/-- A write of SLEWCTL. -/
def writeSlewctl (s : State) (v : Word) : State :=
  let n := bits v 6 0
  if n = 0 ∨ 64 < n then s else { s with sup := { s.sup with slewctl := BitVec.ofNat 64 ((n + 3) / 4 * 4) } }

/-! ### The instructions and events -/

def perfTrap (r : Nat) : Gate := if 11 < r then .trap { code := 1 } else .pass

/-- R363: the team's request is sA. -/
def execSetperf (a : BitVec 5) : State → Host.Outcome State Fault Refusal :=
  issue (encSetperf a) (fun g => needS g [(sr a, false)] none false false) (fun _ g _ => perfTrap (g.sreg a.toNat).toNat)
    (fun _ g s => { s := setRequest s g (g.sreg a.toNat).toNat })

/-- R363: the team's request is the largest value of vA among the alive lanes. -/
def execSetperfV (a : BitVec 5) : State → Host.Outcome State Fault Refusal :=
  issue (encSetperfV a) (fun g => needS g [(vr a, false)] none false false) (fun _ g _ => perfTrap (g.maxLane a.toNat))
    (fun _ g s => { s := setRequest s g (g.maxLane a.toNat) })

/-- R362: the next part of a cluster's move completes. -/
def execPerfMoveComplete (cluster : Nat) : State → Host.Outcome State Fault Refusal :=
  fun s => .next (movePerf s cluster)

/-- R369: every cluster's ceiling is decided. -/
def execDwellBoundary : State → Host.Outcome State Fault Refusal :=
  fun s => .next ((List.range 96).foldl (fun s' c => s'.setCluster c (dwell s c)) s)

/-- R361: the management controller's cap of a cluster. -/
def execMmcCapChange (cluster : Nat) (code : BitVec 4) : State → Host.Outcome State Fault Refusal :=
  fun s => .next (if cluster < 96 ∧ code.toNat ≤ 11 then s.setCluster cluster { s.cluster cluster with mmcCap := code } else s)

/-- R361. -/
def execPerfcapWrite (v : BitVec 64) : State → Host.Outcome State Fault Refusal :=
  fun s => .next (writePerfcap s v)

/-- R365: STEP in force from each core's next window. -/
def execSlewctlWrite (v : BitVec 64) : State → Host.Outcome State Fault Refusal :=
  fun s => .next (writeSlewctl s v)

end Sys2Proof.Machine
end

