-- ==== Sys2Proof/Machine/Reliab.lean ====
section
/-!
DEFINITION. Reliability (spec/23): strikes, rebuilds, repairs, scrubs, checks of the matrix rows, timing replays, RASSTAT; and
resets of a die (spec/12 R262, spec/07 R157).
-/

namespace Sys2Proof.Machine

/-! ### Strikes (R407, R418) -/

/-- Whether a site holds a stored word: it exists and its bank is not off. -/
def State.stored (s : State) : ErrSite → Bool
  | .plane c k => c < 576 && k < 98304 && (s.core c).pstate (planeBank k) != .off
  | .lane c x r l => c < 576 && x < 4 && r < 64 && l < 192 && (s.core c).lstate (laneBank (64 * x + r)) != .off
  | .scalar c i => c < 576 && i < 1024
  | .acc c p n => c < 576 && p < 12 && n < 16384
  | .l1 c _ => c < 576
  | .layout c i => c < 576 && i < (s.core c).lcache.length
  | .opcopy c k => c < 576 && (Tab.get (s.core c).opcopy k).isSome
  | .matRow c r => c < 576 && r < 128
  | .dcache d _ => d < 24
  | .hbm g => g < 24 * 2 ^ 31
  | .latch => false
  | .parity o => match o with
    | .matRow _ _ | .hbm _ | .latch | .parity _ => false
    | _ => s.stored o

/-- A strike. A second one on a granule that the stack's code cannot correct poisons it; triplicated latches mask one. -/
def strike (s : State) (site : ErrSite) : State :=
  if !s.stored site then s
  else
    let again := s.errs.any (fun e => e.site == site)
    match site with
    | .hbm g =>
      if again then (if Config.sameDevice s.fresh then s else addPoison s (32 * g)).tickFresh
      else { s with errs := s.errs ++ [⟨site, false⟩] }
    | _ => if again then s else { s with errs := s.errs ++ [⟨site, false⟩] }

/-! ### Rebuilds and scrubs (R410, R416) -/

/-- The recovery engine of a die finishes the rebuild that was requested first. -/
def finishRebuild (s : State) (die : Nat) : State :=
  match (s.die die).rebuilds with
  | [] => s
  | site :: rest => settleErr (s.modDie die (fun d => { d with rebuilds := rest })) site

/-- A scrub read of one word: that of a marked one returns uncorrectable; a damaged one is rebuilt first (R409, R410). -/
def scrub (s : State) (e : Err) : State :=
  if !s.stored e.site then s
  else if e.marked then noteUncorrAt s e.site
  else match e.site with
    | .hbm _ | .latch | .matRow _ _ => s
    | .parity _ => settleErr s e.site
    | .l1 _ _ | .dcache _ _ | .layout _ _ => requestRebuild s e.site
    | site => (requestRebuild s site).modDie (dieOf (siteCore site)) (fun d =>
        { d with scrubs := if d.scrubs.contains site then d.scrubs else d.scrubs ++ [site] })

/-! ### Repairs (R412, R413) -/

/-- The words that `p` names are read, each checked, and copied; those that the copy finds uncorrectable stay marked (R413). -/
def copyChecked (s : State) (core : Nat) (p : ErrSite → Bool) : State :=
  let s := settleErrs s p
  noteUncorr s core (s.errs.filter (fun e => e.marked && p e.site)).length

/-- A repair of the plane: the column, or the row, of the cell that holds word `word` is mapped onto the spare; every word copied is
checked. -/
def repairPlane (s : State) (x : ClsEnt) (word : Nat) (col : Bool) : State :=
  let cell := word / 128
  let s := copyChecked s x.core (fun e => match e with
    | .plane c k => c == x.core && (if col then k / 128 % 32 == cell % 32 else k / 128 / 32 == cell / 32)
    | _ => false)
  s.modCore x.core (fun c =>
    let c := if col then { c with mapCol := some (cell % 32) } else { c with mapRow := some (cell / 32) }
    c.modRas (fun r => { r with
      repairs := min 0xFF (r.repairs + 1), colSpare := r.colSpare || col, rowSpare := r.rowSpare || !col }))

/-- Spare rows of an array other than the plane, and whether it has a spare column. -/
def spareColumn (array : Nat) : Bool := !(1 ≤ array && array ≤ 4) && array != 6

/-- The arrays that have spares of their own: each slot group of the accumulator store, each sector's lane cache, and the rest. -/
def ClsEnt.spares (x : ClsEnt) : Nat := if x.array = 6 then 6 + 16 * x.bank else x.array

/-- The row of an entry's word. -/
def ClsEnt.rowOf (x : ClsEnt) (word : Nat) : Option Nat := (x.errs.find? (fun e => e.2.2 == word)).map (·.1)

/-- A repair of another array, after which `used` counts the spares taken, rows in bits 7:0, the column in bit 8: every word of the
failing row `row`, or of every row where a column fails, is copied. -/
def repairArray (s : State) (x : ClsEnt) (used : Nat) (row : Option Nat) : State :=
  let s := copyChecked s x.core (fun e =>
    let place := sitePlace e
    siteCore e == x.core && place.1 == x.array && place.2.1 == x.bank && row.all (· == place.2.2.1) &&
      match e with | .parity _ => false | _ => true)
  s.modCore x.core (fun c => c.modRas (fun r => { r with
    repairs := min 0xFF (r.repairs + 1), arrSpares := Tab.set r.arrSpares x.spares used }))

def degrade (s : State) (c : Nat) : State := s.modCore c (fun x => x.modRas (fun r => { r with degraded := true }))

/-- The repair that an entry's class asks for, or the next that has a spare, or none. -/
def repair (s : State) (x : ClsEnt) (k : ErrClass) (word : Nat) : State :=
  let r := (s.core x.core).ras
  match k with
  | .bank => degrade s x.core
  | k =>
    if x.array = 0 then
      let first := k != .row
      let free := fun (col : Bool) => if col then !r.colSpare else !r.rowSpare
      if free first then repairPlane s x word first
      else if free (!first) then repairPlane s x word (!first)
      else degrade s x.core
    else
      let used := Tab.getD r.arrSpares x.spares 0
      let rowFree := used % 256 < 2
      let colFree := spareColumn x.array && used < 256
      if k = .column && colFree then repairArray s x (used + 256) none
      else if rowFree then repairArray s x (used + 1) (x.rowOf word)
      else if colFree then repairArray s x (used + 256) none
      else degrade s x.core

/-- Whether a repair may be made now: a plane repair waits for scrolls and for engine accesses to the plane, those of another core's
`cpy.pp` too. -/
def State.mayRepair (s : State) (x : ClsEnt) : Bool :=
  let c := s.core x.core
  x.array != 0 || (c.scrolls.isEmpty && !c.mq.any (·.begun) && s.cores.all (fun y => !y.2.copies.any (fun z =>
    z.running && (y.1 == x.core || (!z.near && z.fn == 2 && z.peerCore y.1 == x.core)))))

/-! ### RASSTAT (R414) -/

def Ras.read (r : Ras) : Word :=
  BitVec.ofNat 64 (r.corr + r.uncorr * 2 ^ 16 + r.repairs * 2 ^ 24 + (if r.degraded then 2 ^ 32 else 0) +
    (if r.arrayFlt then 2 ^ 33 else 0) + (if r.timingFlt then 2 ^ 34 else 0))

/-- A write of RASSTAT of core `core`. -/
def writeRasstat (s : State) (core : Nat) (v : Word) : State :=
  s.modCore core (fun c => c.modRas (fun r => { r with
    corr := if bits v 15 0 ≠ 0 then 0 else r.corr
    uncorr := if bits v 23 16 ≠ 0 then 0 else r.uncorr
    arrayFlt := r.arrayFlt && !v.getLsbD 33
    timingFlt := r.timingFlt && !v.getLsbD 34 }))

/-! ### Timing replays (R415) -/

/-- A replay of a stage of core `core`: one clock.  A stage that flags in three successive replays, so that it would be replayed a
fourth time, has a persistent fault, and the cluster's management cap falls by one code. -/
def replay (s : State) (core stage : Nat) : State :=
  let n := Tab.getD (s.core core).ras.replays stage 0 + 1
  let s := elapse s core 1
  if n < 4 then s.modCore core (fun c => c.modRas (fun r => { r with replays := Tab.set r.replays stage n }))
  else
    let s := s.modCore core (fun c => c.modRas (fun r => { r with replays := Tab.erase r.replays stage, timingFlt := true }))
    let k := clusterOf core
    let x := s.cluster k
    s.setCluster k { x with mmcCap := BitVec.ofNat 4 (x.mmcCap.toNat - 1) }

/-! ### The events -/

/-- R407: a strike or a worn cell changes a stored bit. -/
def execSoftError (site : ErrSite) : State → Host.Outcome State Fault Refusal :=
  fun s => .next (strike s site)

/-- R410: the recovery engine finishes a rebuild. -/
def execRebuildComplete (die : Nat) : State → Host.Outcome State Fault Refusal :=
  fun s => .next (finishRebuild s die)

/-- R412: an entry that has seen no new error for 1 s is free. -/
def execClassifierEntryExpiry (die idx : Nat) : State → Host.Outcome State Fault Refusal :=
  fun s => .next (s.modDie die (fun d => { d with classifier := dropAt d.classifier idx }))

/-- R413: the repair that an entry requests. -/
def execArrayRepair (die idx : Nat) : State → Host.Outcome State Fault Refusal :=
  fun s =>
    match (s.die die).classifier[idx]? with
    | none => .next s
    | some x =>
      match x.want with
      | none => .next s
      | some (k, word) =>
        if s.mayRepair x then .next (repair (s.modDie die (fun d => { d with classifier := dropAt d.classifier idx })) x k word)
        else .next s

/-- R416: the scrubber reads a damaged word. -/
def execScrubRead (idx : Nat) : State → Host.Outcome State Fault Refusal :=
  fun s =>
    match s.errs[idx]? with
    | none => .next s
    | some e => .next (scrub s e)

/-- The check of a matrix row takes its granule: an idle one, or, where the array works, the next slot, which is held (spec/19
R367). Filler in it is decided as in any other slot (DEDUCED, log entry 101). -/
def checkGranule (s : State) (core : Nat) : State :=
  if (s.core core).working.isNone then s
  else
    let s := if (s.core core).slew.slot < 16 then s else nextWindow (s.until core (s.core core).slew.at) core
    granuleSlot (s.until core (s.core core).slew.at) core true

/-- R417: a matrix row computes the pattern; a faulty one is mapped onto a spare and sets ARRAYFLT. -/
def execRotatingRowCheck (core row : Nat) : State → Host.Outcome State Fault Refusal :=
  fun s =>
    let site := ErrSite.matRow core row
    let s := checkGranule s core
    if !s.errs.any (fun e => e.site == site) then .next s
    else
      let s := s.modCore core (fun c => c.modRas (fun r => { r with arrayFlt := true }))
      if (s.core core).ras.matSpares < 2 then
        .next ((s.mend (fun e => e == site)).modCore core (fun c => c.modRas (fun r =>
          { r with matSpares := r.matSpares + 1, repairs := min 0xFF (r.repairs + 1) })))
      else .next (degrade s core)

/-- R418: a granule that can be corrected is written back. -/
def execHbmPatrolScrub (addr : Nat) : State → Host.Outcome State Fault Refusal :=
  fun s => .next (s.mend (fun e => e == .hbm (addr / 32)))

/-- R415: an operation is replayed at half frequency. -/
def execTimingReplay (at_ : CoreStage) : State → Host.Outcome State Fault Refusal :=
  fun s => .next (if at_.core < 576 then replay s at_.core at_.stage else s)

/-- R419: a flit is replayed: nothing but time. -/
def execLinkFlitReplay (_link : Nat) : State → Host.Outcome State Fault Refusal :=
  fun s => .next s

/-- R419: a failing wire is moved onto a spare: nothing but time. -/
def execFabricWireRepair (_link : Nat) : State → Host.Outcome State Fault Refusal :=
  fun s => .next s

/-- R414. -/
def execRasstatWrite (core : Nat) (v : BitVec 64) : State → Host.Outcome State Fault Refusal :=
  fun s => .next (writeRasstat s core v)

/-- spec/12 R262, spec/07 R157: a die's uncore or cores enter or leave reset; its REFTIME starts from zero, at
each (DEDUCED, log entry 87). -/
def execDieReset (die : Nat) (uncore enter : Bool) : State → Host.Outcome State Fault Refusal :=
  fun s => .next (s.modDie die (fun d =>
    if uncore then { d with uncoreReset := enter, reftime := 0 } else { d with coresReset := enter, reftime := 0 }))

end Sys2Proof.Machine
end

