-- ==== Sys2Proof/Machine/Ports.lean ====
section
/-!
DEFINITION. The host port and the peer ports (spec/24): port states, PORTSTAT and PORTFLT, the windows into device memory, the
root of trust and power states.
-/

namespace Sys2Proof.Machine

/-! ### Port states (R424, R427, R429, R447) -/

def PortSt.recovery (x : PortSt) : Bool := x == .failover || x == .retrain

/-- Whether part `i` of access `idx` of group `k` is outstanding on port `q`: a load or an atomic that order has let go, and a store on
its way to its home that a recovery of the port has held (R426). -/
def State.outstanding (s : State) (q : Nat) (held : Bool) (k : Nat) (g : Group) (idx i : Nat) (a : Access) (p : Part) : Bool :=
  targetOf p.pa == .peer q && s.inOrder k g idx i a p && (match a.op with
    | .load | .atomic _ => true
    | .store => held && a.leavesHome p.kind
    | .recv _ | .plane => false)

/-- The accesses of group `k` that are outstanding on port `q` are to complete with poison, with cause 1. -/
def markLost (s : State) (q : Nat) (held : Bool) (k : Nat) (g : Group) : Group :=
  { g with accs := ((List.range g.accs.length).zip g.accs).map (fun x =>
      { x.2 with parts := ((List.range x.2.parts.length).zip x.2.parts).map (fun y =>
          if s.outstanding q held k g x.1 y.1 x.2 y.2 then { y.2 with poison := some .unreachable } else y.2) }) }

/-- Port `q` has entered Down, out of a recovery where `held`: the accesses outstanding on it complete with poison, and running commands
that touch it take status 5 (R427). -/
def portFalls (s : State) (q : Nat) (held : Bool) : State :=
  let at_ := fun (pa : Nat) => targetOf pa == .peer q
  let s0 := s
  let s := { s with
    groups := s.groups.map (fun x => (x.1, markLost s0 q held x.1 x.2))
    cores := s.cores.map (fun c => (c.1, { c.2 with copies := c.2.copies.map (fun x =>
      match s0.group x.group with
      | some g => if x.running && x.touches s0 c.1 g at_ then x.timeOut s0 c.1 else x
      | none => x) })) }
  if !held then s
  else
    let late := s.cores.flatMap (fun c => (c.2.late.filter (fun y => at_ y.store.pa && y.acc.leavesHome y.store.kind)).map (fun y => (c.1, y)))
    let s := late.foldl (fun s y => storeHome (s.modCore y.1 (fun c => { c with late := c.late.erase y.2 })) y.2.store) s
    (s.dies.map (·.1)).foldl (pushDie (fun x => at_ x.pa)) s

/-- A port changes; a change of its state is reported to the host as a management event. -/
def State.modPort (s : State) (p : Nat) (f : Port → Port) : State :=
  let was := (s.port p).state
  let now := f (s.port p)
  let s := s.setPort p now
  if now.state = was then s
  else
    let s := { s with front := { s.front with mgmt := s.front.mgmt ++ [(p, now.state)] } }
    if now.state = .down then portFalls s p was.recovery else s

/-- A port enters Retrain. -/
def Port.toRetrain (p : Port) : Port := { p with state := .retrain, retrains := min 0xFFFF (p.retrains + 1), replays := 0 }

/-- A lane of a port fails, or exceeds its error budget: the spare takes its place if it is unused, else the port retrains. -/
def Port.laneFails (p : Port) (lane : BitVec 3) : Port :=
  match p.state with
  | .up => if p.spareUsed then p.toRetrain else { p with state := .failover, lane := lane }
  | .failover => p.toRetrain
  | .retrain | .down => p

/-- A failover ends: the spare carries the lane's traffic. -/
def Port.failedOver (p : Port) : Port :=
  match p.state with
  | .failover => { p with state := .up, spareUsed := true, badLane := p.lane }
  | _ => p

/-- A training ends; `spare` names the lane that the spare replaces, if it carries traffic. -/
def Port.trained (p : Port) (ok : Bool) (spare : Option (BitVec 3)) : Port :=
  match p.state with
  | .retrain =>
    if ok then { p with state := .up, spareUsed := spare.isSome, badLane := spare.getD 0 } else { p with state := .down }
  | _ => p

/-- A flit is replayed; `lapsed` says that the port's last replay was more than 1 µs ago. -/
def Port.replayed (p : Port) (lapsed : Bool) : Port :=
  match p.state with
  | .up =>
    let n := if lapsed then 1 else p.replays + 1
    if 16 < n then p.toRetrain else { p with replays := n }
  | _ => p

/-! ### Port registers (R429) -/

def portCode : PortSt → Nat
  | .up => 0
  | .failover => 1
  | .retrain => 2
  | .down => 3

/-- The port that PORTSEL names. -/
def State.portSel (s : State) : Nat := bits s.sup.portsel 5 0

def Port.stat (p : Port) : Word :=
  BitVec.ofNat 64 (portCode p.state + (if p.spareUsed then 4 else 0) + p.badLane.toNat * 8 + (if p.enable then 256 else 0) +
    p.retrains * 2 ^ 16 + p.infaults * 2 ^ 32)

def State.readPortstat (s : State) : Word := if s.portSel < 36 then (s.port s.portSel).stat else 0

def State.readPortflt (s : State) : Word :=
  if s.portSel < 36 then
    let p := s.port s.portSel
    BitVec.ofNat 64 (p.fltAddr.toNat + p.fltCause.toNat * 2 ^ 52)
  else 0

/-- A write of PORTSTAT: the cleared fields first, then ENABLE. -/
def Port.write (p : Port) (v : Word) : Port :=
  let p := if bits v 31 16 ≠ 0 then { p with retrains := 0 } else p
  let p := if bits v 47 32 ≠ 0 then { p with infaults := 0, fltAddr := 0, fltCause := 0 } else p
  if v.getLsbD 8 then
    if p.state = .down then { p with enable := true }.toRetrain else { p with enable := true }
  else { p with enable := false, state := .down }

/-- A write of PORTSTAT for the port that PORTSEL names; after a refused power-up every port stays Down (R431). -/
def writePortstat (s : State) (v : Word) : State :=
  if s.portSel < 36 then s.modPort s.portSel (fun p => if s.front.locked then p else p.write v) else s

/-! ### The windows (R430, R428) -/

/-- A write of BAR2MAP; one of heaps 24 to 31 is ignored as a whole. -/
def writeBar2map (s : State) (v : Word) : State :=
  if bits v 4 0 < 24 then { s with sup := { s.sup with bar2map := v &&& 0x11F } } else s

def writePeerwin (s : State) (v : Word) : State := { s with sup := { s.sup with peerwin := v &&& 0x1FFFF } }

/-! ### Requests of the host (R421, R430) -/

/-- A dword of BAR0 as the host reads it: QTABLE, QERR, the attestation mailbox; every other offset reads zero.  DESIGN CHOICE (log
entry 90): the doorbells read zero. -/
def State.bar0Byte (s : State) (a : Nat) : Byte :=
  let mail := fun (base : Nat) (x : Nat) => BitVec.ofNat 8 (x / 2 ^ (8 * (a - base)))
  if 0x20000 ≤ a ∧ a < 0x20040 then mail 0x20000 s.front.nonce.toNat
  else if 0x20040 ≤ a ∧ a < 0x20048 then mail 0x20040 s.front.mailbox
  else if 0x20100 ≤ a ∧ a < 0x202A1 then mail 0x20100 s.front.report.toNat
  else if s.front.locked then 0
  else if 0x08000 ≤ a ∧ a < 0x08008 then mail 0x08000 s.front.qtable.toNat
  else if 0x0C000 ≤ a ∧ a < 0x0C200 then mail 0x0C000 s.front.qerr.toNat
  else 0

/-- A write of QTABLE by the host (spec/03 R45). -/
def writeQtable (s : State) (v : Word) : State := { s with front := { s.front with qtable := v &&& 0x000FFFFFFFFF0000 } }

/-- The completion of a request reaches the host. -/
def State.answerHost (s : State) (r : HostReply) : State := { s with front := { s.front with reply := some r } }

/-- A request of the host to BAR2, at its home. -/
def bar2Access (s : State) (off : Nat) (req : HostReq) : State :=
  let a := bits s.sup.bar2map 4 0 * 2 ^ 36 + off
  let ok := fun n => s.sup.bar2map.getLsbD 8 && !s.front.locked && inHeap a n
  match req with
  | .read n =>
    if !ok n then s.answerHost .unsupported
    else if (poisonAt s a n).isSome then s.answerHost .poisoned
    else s.answerHost (.data ((List.range n).map (fun i => homeByte s (a + i))))
  | .write bs => if !ok bs.length then s.answerHost .unsupported else if (storePoison s a bs.length).isSome then s else writeHome s a bs
  | .other => s.answerHost .unsupported

/-- A request of the host; the writes of BAR0 that do something else than set QTABLE have events of their own. -/
def hostAccess (s : State) (spot : HostSpot) (req : HostReq) : State :=
  match spot, req with
  | .bar2 off, r => bar2Access s off.toNat r
  | .bar0 off, .read n => s.answerHost (.data ((List.range n).map (fun i => s.bar0Byte (off.toNat + i))))
  | .bar0 off, .write bs => if off = 0x08000 ∧ bs.length = 8 ∧ !s.front.locked then
      writeQtable s (BitVec.ofNat 64 (readLe (fun i => bs.getD i 0) 0 8)) else s
  | .bar0 _, .other => s.answerHost .unsupported
  | .elsewhere, _ => s.answerHost .unsupported

/-! ### Requests of peers (R428, R430) -/

/-- An inbound fault of a port is counted, the first since INFAULTS was cleared is kept, and the peer is answered with an error. -/
def inboundFault (s : State) (port addr cause : Nat) : State :=
  s.modPort port (fun p =>
    let p := if p.infaults = 0 then { p with fltAddr := BitVec.ofNat 52 addr, fltCause := BitVec.ofNat 4 cause } else p
    { p with infaults := min 0xFFFF (p.infaults + 1), reply := some .error })

def State.answerPeer (s : State) (port : Nat) (r : PeerReply) : State := s.modPort port (fun p => { p with reply := some r })

/-- Where `n` bytes at an inbound address land, or the fault's address and cause. -/
def inboundAt (s : State) (va n : Nat) (w : Want) : Except (Nat × Nat) Nat :=
  if !s.sup.peerwin.getLsbD 16 then .error (va, 1)
  else match xlat s noCore (bits s.sup.peerwin 15 0) va w true with
    | .error _ => .error (va, 1)
    | .ok p =>
      match targetOf p.pa with
      | .heap h =>
        if (s.die h).uncoreReset then .error (p.pa, 3)
        else if w != .write && poisoned s p.pa n then .error (p.pa, 2)
        else .ok p.pa
      | _ => .error (va, 1)

/-- The bytes that a request of a peer touches, and the permission that its kind needs. -/
def peerSize : PeerReq → Nat
  | .read n | .atomic _ n _ _ => n
  | .write bs => bs.length
def peerWant : PeerReq → Want
  | .read _ => .read
  | .write _ => .write
  | .atomic _ _ _ _ => .both

/-- The parts of an inbound request: one, or two where it crosses a page boundary; all translate and may be performed, or it faults. -/
def inboundParts (s : State) (va n : Nat) (w : Want) : Except (Nat × Nat) (List (Nat × Nat)) :=
  let m := firstPart va n
  match inboundAt s va m w with
  | .error e => .error e
  | .ok p =>
    if m = n then .ok [(p, n)]
    else match inboundAt s (va + m) (n - m) w with
      | .error e => .error e
      | .ok q => .ok [(p, m), (q, n - m)]

/-- Bytes written at the homes of physical parts. -/
def writeHomes (s : State) : List (Nat × Nat) → List Byte → State
  | [], _ => s
  | (pa, n) :: t, bs => writeHomes (writeHome s pa (bs.take n)) t (bs.drop n)

/-- An inbound request is performed at the home as an access of system scope, and answered.  DESIGN CHOICE (log entry 91): a misaligned
atomic is answered with an error and changes nothing. -/
def inbound (s : State) (port va : Nat) (req : PeerReq) : State :=
  match inboundParts s va (peerSize req) (peerWant req) with
  | .error (a, c) => inboundFault s port a c
  | .ok ps =>
    let old := readParts s ps
    match req with
    | .read n => s.answerPeer port (.data (leBytes n old))
    | .write bs => (writeHomes s ps bs).answerPeer port .done
    | .atomic f n x y =>
      if va % n ≠ 0 then s.answerPeer port .error
      else
        let new := (atomNew f (8 * n) old (x.toNat % 2 ^ (8 * n)) (y.toNat % 2 ^ (8 * n))).1
        let s := if f == .cas && old != x.toNat % 2 ^ (8 * n) then s else writeHomes s ps (leBytes n new)
        s.answerPeer port (.data (leBytes n old))

/-! ### Root of trust (R431, R432) -/

def State.firmware (s : State) : W32 := s.front.version.getD Config.bootVersion

/-- One link of the chain: SHA-512 of the previous value and a stage's digest. -/
def chainLink (prev digest : BitVec 512) : BitVec 512 := sha512 (leBytes 64 prev.toNat ++ leBytes 64 digest.toNat)

/-- The chain of the stages in force. -/
def State.chain (s : State) : BitVec 512 := s.front.stages.foldl chainLink Config.bootChain

/-- Whether an image is run: its digest is that of its contents, its signature holds, and its version is not below the rollback counter
(R431). -/
def imageRuns (i : Image) (digest : BitVec 512) (version : BitVec 32) : Bool :=
  i.signed && Config.rollback.toNat ≤ version.toNat && sha512 i.contents == digest

/-- An image that runs is a stage more; a refused one leaves the firmware as it was or, at power-up, leaves the module with every port
Down but the host's, and nothing in BAR0 but the mailbox. -/
def loadImage (s : State) (digest : BitVec 512) (version : BitVec 32) (i : Image) : State :=
  if imageRuns i digest version then
    { s with front := { s.front with
      stages := s.front.stages ++ [digest], version := some version, locked := s.front.locked && !i.powerUp } }
  else if i.powerUp then { s with ports := [], front := { s.front with locked := true } }
  else s

/-- The report of a nonce: bytes 0x000 to 0x11C, and the signature over them; byte 0 lies in bits 7:0. -/
def State.attest (s : State) : BitVec 3336 :=
  let body : BitVec 2280 :=
    (Config.identityKey ++ Config.serial ++ Config.rollback ++ s.firmware ++ s.chain ++ s.front.nonce : BitVec _)
  (Config.signature body ++ body : BitVec _)

/-! ### The events -/

/-- R424: a lane exceeds its error budget; in Failover, or with the spare in use, that is a second failure. -/
def execPortFailover (port : Nat) (lane : BitVec 3) : State → Host.Outcome State Fault Refusal :=
  fun s => .next (s.modPort port (fun p => p.laneFails lane))

/-- R424, R447. -/
def execPortFailoverComplete (port : Nat) : State → Host.Outcome State Fault Refusal :=
  fun s => .next (s.modPort port Port.failedOver)

/-- R424: a second lane or the spare fails, or replays exceed 16 in 1 µs. -/
def execPortRetrain (port : Nat) : State → Host.Outcome State Fault Refusal :=
  fun s => .next (s.modPort port (fun p => match p.state with
    | .up | .failover => p.toRetrain
    | .retrain | .down => p))

/-- R424, R447: training chooses its lanes afresh, or fails. -/
def execPortRetrainEnd (port : Nat) (ok : Bool) (spare : Option (BitVec 3)) :
    State → Host.Outcome State Fault Refusal :=
  fun s => .next (s.modPort port (fun p => p.trained ok spare))

/-- R424: from any state, without a retrain. -/
def execLossOfSignal (port : Nat) : State → Host.Outcome State Fault Refusal :=
  fun s => .next (s.modPort port (fun p => { p with state := .down }))

/-- R424. -/
def execPortFlitReplay (port : Nat) : State → Host.Outcome State Fault Refusal :=
  fun s => .next ((s.modPort port (fun p => p.replayed (Config.replaysLapsed s.fresh))).tickFresh)

/-- R429. -/
def execPortstatWrite (v : BitVec 64) : State → Host.Outcome State Fault Refusal :=
  fun s => .next (writePortstat s v)

/-- R430, R428: a request of a peer; a port carries traffic only while it is Up. -/
def execInboundPeerAccess (port : Nat) (addr : BitVec 44) (req : PeerReq) : State → Host.Outcome State Fault Refusal :=
  fun s => .next (if port < 36 && (s.port port).state == .up then inbound s port addr.toNat req else s)

/-- R421, R430. -/
def execBar2HostAccess (spot : HostSpot) (req : HostReq) : State → Host.Outcome State Fault Refusal :=
  fun s => .next (hostAccess s spot req)

/-- R430. -/
def execBar2mapWrite (v : BitVec 64) : State → Host.Outcome State Fault Refusal :=
  fun s => .next (writeBar2map s v)

/-- R430. -/
def execPeerwinWrite (v : BitVec 64) : State → Host.Outcome State Fault Refusal :=
  fun s => .next (writePeerwin s v)

/-- R432: a request written while a report is pending is ignored. -/
def execAttestationRequest (nonce : BitVec 512) : State → Host.Outcome State Fault Refusal :=
  fun s => .next (if s.front.mailbox = 1 then s else { s with front := { s.front with nonce := nonce, mailbox := 1 } })

/-- R432. -/
def execAttestationReport : State → Host.Outcome State Fault Refusal :=
  fun s => .next (if s.front.mailbox = 1 then { s with front := { s.front with report := s.attest, mailbox := 2 } } else s)

/-- R431: an image is run or refused. -/
def execFirmwareImageLoad (digest : BitVec 512) (version : BitVec 32) (image : Image) : State → Host.Outcome State Fault Refusal :=
  fun s => .next (loadImage s digest version image)

/-- R421. -/
def execPowerStateChange (d3 : Bool) : State → Host.Outcome State Fault Refusal :=
  fun s => .next { s with front := { s.front with d3 := d3 } }

end Sys2Proof.Machine
end

