-- ==== Sys2Proof/Machine/Preempt.lean ====
section
/-!
DEFINITION. Pre-emption (spec/21 R393 to R397): naming a team, the flush path, the save path, restarts.
-/

namespace Sys2Proof.Machine

/-! ### Naming a team (R394) -/

/-- The address of a team's save area (spec/02 R37). -/
def Launch.saveArea (l : Launch) (index : Nat) : Nat := l.savebase + index * l.savestride * 65536

def State.saveAddr (s : State) (t : Team) : Nat :=
  match s.grid t.grid with
  | some g => g.launch.saveArea t.index
  | none => 0

/-- The team that PREEMPTSEL and a save-area address name. -/
def State.teamNamed (s : State) (save : Word) : Option Nat :=
  (s.teams.find? (fun t => match s.grid t.2.grid with
    | some g => g.asid == bits s.sup.preemptsel 15 0 && g.launch.saveArea t.2.index == bits save 56 16 * 65536
    | none => false)).map (·.1)

/-- The write names a team, or none. -/
def nameTeam (s : State) (save : Word) : State :=
  let t := s.teamNamed save
  { s with sup := { s.sup with named := t, namedState := if t.isSome then 0 else 5 } }

/-- Whether a pre-empt of team `t` is on its way. -/
def State.preemptComing (s : State) (t : Nat) : Bool := s.signals.any (fun x => x.packet == .preempt t)

/-- STATE of PREEMPT: the team named last; one to which a pre-empt is on its way is stopping. -/
def State.preemptState (s : State) : Nat :=
  match s.sup.named with
  | none => s.sup.namedState
  | some t => match s.team t with
    | none => 5
    | some x => match x.status with
      | .running => if s.preemptComing t then 1 else 0
      | .saving => 1
      | .flushed => 2
      | .saved => 3
      | .restarting => 4
      | .ended => 5

/-- PATH of PREEMPT: whether the team named last took the save path when it was last pre-empted. -/
def State.preemptPath (s : State) : Bool := ((s.sup.named.bind s.team).map Team.path).getD false

def State.readPreempt (s : State) : Word :=
  BitVec.ofNat 64 (s.preemptState + (if s.preemptPath then 2 ^ 3 else 0))

/-! ### Stopping (R395) -/

/-- A group stops at its bundle boundary or between repeats, and is no longer resident. -/
def stopGroup (s : State) (k : Nat) : State :=
  match s.group k with
  | none => s
  | some g =>
    let s := leaveActive (withdraw s k) g.id.core k
    s.modGroup k (fun g => { g with
      pc := g.bundlePc
      bundle := none
      blocked := g.blocked.filter Block.outcome
      gstate := match g.gstate with | .active => .pending | x => x
      sched := { g.sched with yielded := false, prio := .normal } })

/-- Whether the flush path applies. -/
def State.mayFlush (s : State) (t : Nat) : Bool :=
  (s.groupsOf t).all (fun x => x.2.region.isSome &&
    match x.2.gstate with | .active | .pending | .dormant => true | _ => false)

/-! ### The flush path (R393) -/

/-- Registers touched in a region. -/
def Region.touched (r : Region) : List Reg :=
  ((List.range 32).filter (fun n => n ≠ 0 && r.stouched.getLsbD n)).map Reg.s ++
    ((List.range 32).filter (fun n => r.vtouched.getLsbD n)).map Reg.v

/-- The rows of a group take back the registers they were kept for. -/
def Core.rollRows (c : Core) (k : Nat) (r : Region) : Core :=
  let c := r.touched.foldl (fun c x => c.release k false x) c
  let back := fun (o : RowOwn) => some (if o.group = k ∧ o.kept then { o with kept := false } else o)
  (c.mapRows back).mapEnts back

/-- The system registers that a region records. -/
def SysRegs.back (now old : SysRegs) : SysRegs :=
  { now with
    mode := old.mode, fpx := old.fpx, seed := old.seed, lfsr := old.lfsr, rangeflag := old.rangeflag
    rangeaddr := old.rangeaddr, scrollpos := old.scrollpos, remoteerr := old.remoteerr }

/-- A group at the entry of its region again. -/
def Group.rollBack (g : Group) (r : Region) : Group :=
  { g with
    regs := { r.regs with pin := g.regs.pin }
    sys := g.sys.back r.sys
    accs := (g.accs.filter (fun a => a.ord < r.ord)).map (fun a => { a with dest := a.keep })
    fetchWait := none
    bundle := none
    rptdone := 0
    pc := r.entry
    blocked := none
    send := .none
    inMem := false
    region := some { r with stouched := 0, vtouched := 0 } }

/-- The scalar registers, which activation reads with the header (spec/05 R115). -/
def scalarRegs : List Reg := (List.range 32).map Reg.s

/-- One group of a flushed team: it is dormant at its region's entry.  DEDUCED (log entry 77): its header and scalars are written,
since its activation reads them. -/
def flushGroup (s : State) (k : Nat) : State :=
  let s := stopGroup s k
  match s.group k with
  | none => s
  | some g =>
    match g.region with
    | none => s
    | some r =>
      let s := s.modCore g.id.core (fun c => { c.rollRows k r with
        sfu := (c.sfu.filter (fun e => !(e.group == k && r.ord ≤ e.ord))).map (fun e =>
          if e.group = k then { e with dest := e.keep } else e) })
      let g' := g.rollBack r
      let s := s.setGroup k { g' with gstate := .dormant, sched := { g'.sched with tab := none } }
      let s := { s with signals := s.signals.filter (fun x => match x.packet with | .answer y _ => y != k | _ => true) }
      let s := if g.log.valid then clearLog s k else s
      (writeBackOf (r.touched.foldl (fun s x => restoreReg s k x) s) k 2 scalarRegs).1

/-! ### The save path (R396) -/

/-! ### Boundaries and deferred traps (R380) -/

/-- Whether a group stands at a boundary: before a bundle, between two of its repeats, or at a bundle that it has not been able to
issue, which it will issue anew.  DEDUCED (log entry 76): a bundle whose word waits counts as not begun (spec/04 R82). -/
def Group.between (g : Group) : Bool :=
  match g.bundle with
  | none => true
  | some b => b.begun || g.blocked.isSome

/-- Whether a trap may be taken: the group stands at a boundary, its team runs, and no answer to an offer is on its way. -/
def State.atBoundary (s : State) (k : Nat) (g : Group) : Bool :=
  g.between && (match g.send with | .answered _ => false | _ => true) &&
    !s.signals.any (fun x => match x.packet with | .answer y _ => y == k | _ => false) &&
    (match s.team g.id.team with | some t => t.status == .running | none => false)

/-- Whether a pending cause may be taken: the poisoned values that it reports have been written (spec/12 R264). -/
def Group.ripe (g : Group) (d : Deferred) : Bool :=
  match d.awaits with
  | none => true
  | some (o, l) => !(g.accs ++ g.log.access.toList).any (fun a => a.ord == o && a.parts.any (fun p => p.lane == l && !p.done))

/-- The pending cause of lowest code. -/
def Group.dueTrap (g : Group) : Option Deferred :=
  (g.pend.filter g.ripe).foldl (fun b d => match b with
    | none => some d
    | some x => if d.code < x.code then some d else some x) none

/-- The pending trap that is due is taken. -/
def takeDeferred (s : State) (k : Nat) : State :=
  match s.group k with
  | none => s
  | some g =>
    match g.dueTrap with
    | none => s
    | some d =>
      let resident := match g.gstate with | .active | .pending => true | _ => false
      if !resident || g.alive == 0 || !s.atBoundary k g then s
      else
        let s := s.setGroup k { g with pend := g.pend.erase d }
        enterTrap s k { code := d.code, info0 := d.info0, info1 := d.info1 } true g.bundlePc d.faultpc d.insn

/-- A cancelled command as it will be issued again: from its start, with the snapshot of its issue (spec/13 R285); the translation of a
raw packet's address is no part of that. -/
def Cmd.afresh (x : Cmd) : Cmd :=
  { x with early := if x.raw then none else x.early, pa := none, running := false, buf := [], outs := [], wrote := [], status := 0, short := false, lost := false, fpx := 0 }

/-- A command is cancelled with code 7, its destination as it stands (spec/13 R283); one without a completion word is kept for the
restart (spec/13 R285). -/
def cancelCmd (s : State) (core : Nat) (x : Cmd) : State :=
  match s.group x.group with
  | none => s
  | some g =>
    match x.cw with
    | none => s.modTeam x.team (fun t => { t with cmds := t.cmds ++ [x.afresh] })
    | some _ => (endCmd s core g x 7 (x.count s core)).tickFresh

def cancelAll (s : State) (t core : Nat) : State :=
  let mine := (s.core core).copies.filter (fun x => x.team == t)
  let s := s.modCore core (fun c => { c with copies := c.copies.filter (fun x => x.team != t) })
  mine.foldl (fun s x => cancelCmd s core x) s

/-- Writes of the team to its hive registers and rings that are in flight take effect. -/
def landTeam (s : State) (t core : Nat) : State :=
  let c := s.core core
  let s := (c.hiveW.filter (fun w => w.team == t)).foldl landHive s
  let s := (c.ringT.filter (fun w => w.team == t)).foldl landRing s
  s.modCore core (fun c => { c with
    hiveW := c.hiveW.filter (fun w => w.team != t), ringT := c.ringT.filter (fun w => w.team != t) })

/-- A pre-empt reaches team `t` (R395); one that does not run is unchanged. A group with a deferred trap due takes it first. -/
def preemptTeam (s : State) (t : Nat) : State :=
  match s.team t with
  | none => s
  | some x =>
    if x.status != .running then s
    else
      let ks := (s.groupsOf t).map (·.1)
      let s := ks.foldl takeDeferred s
      if s.mayFlush t then (ks.foldl flushGroup s).modTeam t (fun x => { x with status := .flushed, path := false })
      else
        let s := ks.foldl (fun s k => closeRegion (stopGroup s k) k) s
        cancelAll (s.modTeam t (fun x => { x with status := .saving, path := true })) t x.core

/-- A pre-empt of the named team. -/
def preempt (s : State) (save : Word) : State :=
  let s := nameTeam s save
  match s.sup.named with
  | none => s
  | some t => preemptTeam s t

/-- Whether a team that is being saved has drained: scrolls, matrix instructions, special-function entries, replies; no group stands on a
context fault, and no store that the save writes outward waits for a port. -/
def State.drained (s : State) (t : Nat) (x : Team) : Bool :=
  let c := s.core x.core
  !c.scrolls.any (fun y => y.team == t) && !c.mq.any (fun y => y.team == t) && !c.copies.any (fun y => y.team == t) &&
    (s.groupsOf t).all (fun g => !c.sfu.any (fun y => y.group == g.1) && !g.2.loadsPending && !g.2.asking && g.2.gstate != .ctxFault &&
      !s.pathStalled g.1 g.2 (g.2.ord + 1) .cluster)

/-- The context of a group goes to memory, its header with GSTATE 2; one that the supervisor has suspended is there already, and its
header then says that it is dormant. -/
def saveGroup (s : State) (k : Nat) : State :=
  match s.group k with
  | none => s
  | some g => match g.gstate with
    | .ctxFault => s
    | .suspended =>
      if !g.inMem then (writeBack (s.setGroup k { g with gstate := .dormant }) k 2).1
      else (match ctxStore s g g.id.base ({ g with gstate := .dormant }.hdrDword 2 0) with
      | .error e => ctxFault s k (cfCause e.2 2) e.1 .header
      | .ok s => s.modGroup k (fun g => { g with gstate := .dormant }))
    | _ => (writeBack s k 2).1

/-- The bytes of a save area that a save may write (spec/02 R37). -/
def Launch.saveBytes (l : Launch) : Nat := l.area * l.depth * 8 + l.accslots * 65536 + 4096

/-- Why the write of a save area fails, with its address: the cause of R246, or 4 for an uncorrectable error. -/
def State.saveFault (s : State) (asid va n : Nat) : Option (Nat × Nat) :=
  firstSome (fun i =>
    let a := va + 65536 * i
    match xlat s noCore asid a .write false with
    | .error e => some (a, e)
    | .ok p => if (storePoison s p.pa (min 65536 (n - 65536 * i))).isSome then some (a, 4) else none)
    (List.range ((n + 65535) / 65536))

/-- The save area holds what the device writes there. -/
def writeSave (s : State) (asid va n : Nat) : State :=
  ((List.range ((n + 65535) / 65536)).foldl (fun st i =>
    match xlat st noCore asid (va + 65536 * i) .write false with
    | .error _ => st
    | .ok p => writeHome st p.pa ((List.range (min 65536 (n - 65536 * i))).map (fun j => Config.saveByte s.fresh (65536 * i + j)))) s).tickFresh

/-- A saved group: its stores, and those whose values its loads have returned, have reached its die (spec/15 R314), its rows and
table entry are free. -/
def parkGroup (s : State) (k : Nat) : State :=
  let s := releaseStores s k .cluster
  match s.group k with
  | none => s
  | some g =>
    ((pushCore (fun x => x.seen.contains k) s g.id.core).modCore g.id.core (fun c => c.dropAll k g.regs.pin false)).modGroup k (fun g => { g with
      gstate := match g.gstate with | .active | .pending => .dormant | x => x
      sched := { g.sched with tab := none, prio := .normal } })

/-- The number by which a save knows an error of team `x` on its core: a plane word's key, or 98304 and on for a slot element. -/
def Team.lostAt (x : Team) (c : Core) (t : Nat) : ErrSite → Option Nat
  | .plane core k => if core = x.core ∧ (Tab.get c.plane k).any (fun w => w.own == t) then some k else none
  | .acc core p n => if core = x.core then
      ((List.range 12).find? (fun a => x.accHeld.getLsbD a && x.accPhys.getD a 12 == p)).map (fun a => 98304 + 16384 * a + n) else none
  | _ => none

/-- The site of such a number on a core. -/
def Team.siteOf (x : Team) (core n : Nat) : ErrSite :=
  if n < 98304 then .plane core n else .acc core (x.accPhys.getD ((n - 98304) / 16384) 0) ((n - 98304) % 16384)

/-- The words and slot elements of team `t` are checked as the save reads them, and its words leave the plane; what cannot be
corrected is known for the restart, and its granules of the save area are poisoned (spec/23 R411). -/
def takeWords (s : State) (t core va n asid : Nat) : State :=
  match s.team t with
  | none => s
  | some x0 =>
    let s := if s.errs.isEmpty then s else settleErrs s (fun e => (x0.lostAt (s.core core) t e).isSome)
    let bad := (s.errs.filter (·.marked)).filterMap (fun e => x0.lostAt (s.core core) t e.site)
    let mine := (s.core core).plane.filter (fun w => w.2.own == t)
    let s := bad.foldl (fun s i =>
      let a := va + 32 * (Config.saveGranule s.fresh i % (n / 32))
      match xlat s noCore asid a .write false with
      | .ok p => addPoison s p.pa
      | .error _ => s) s
    let s := noteUncorr s core bad.length
    let s := if bad.isEmpty then s else s.mend (fun e => (x0.lostAt (s.core core) t e).isSome)
    (s.modCore core (fun c => c.dropWords t (fun _ => true))).modTeam t (fun x => { x with plane := mine, lost := bad })

/-- The save finishes where the team has drained; a failed write of the save area ends the grid (R396). -/
def finishSave (s : State) (t : Nat) : State :=
  match s.team t with
  | none => s
  | some x =>
    if x.status != .saving || !s.drained t x then s
    else
      let ks := (s.groupsOf t).map (·.1)
      let s := ks.foldl saveGroup (landTeam s t x.core)
      if (s.groupsOf t).any (fun g => g.2.gstate == .ctxFault) then s
      else match s.grid x.grid with
        | none => s
        | some gr =>
          let va := gr.launch.saveArea x.index
          let n := gr.launch.saveBytes
          match s.saveFault gr.asid va n with
          | some (a, cause) =>
            endGrid (postEvent s { kind := 3, core := x.core, asid := gr.asid, base := va, addr := a, cause := cause }) x.grid 17 x.index
          | none =>
            let s := writeSave s gr.asid va n
            let s := ks.foldl parkGroup s
            redecide ((takeWords s t x.core va n gr.asid).modTeam t (fun x => { x with status := .saved })) x.core

/-! ### Restarts (R397) -/

/-- A team's groups are ready again. -/
def readyAll (s : State) (t : Nat) : State :=
  ((s.groupsOf t).map (·.1)).foldl (fun s k => s.modGroup k (fun g =>
    { g with sched := { g.sched with ready := (s.core g.id.core).clk, age := (s.core g.id.core).clk } })) s

/-- A restart reaches team `t`: a flushed one runs again, a saved one waits to be re-admitted. -/
def restartTeam (s : State) (t : Nat) : State :=
  match s.team t with
  | none => s
  | some x => match x.status with
    | .flushed => readyAll (s.modTeam t (fun x => { x with status := .running })) t
    | .saved => s.modTeam t (fun x => { x with status := .restarting })
    | _ => s

/-- A restart of the named team. -/
def restart (s : State) (save : Word) : State :=
  let s := nameTeam s save
  match s.sup.named with
  | none => s
  | some t => restartTeam s t

/-- What a saved team holds. -/
def State.savedHold (s : State) (t : Nat) (x : Team) : Vec8 :=
  match s.holdOf t x with
  | [a, b, c, d, _, f, g, h] => [a, b, c, d, x.plane.length, f, g, h]
  | v => v

/-- Whether a core can take a saved team back.  DEDUCED (log entry 78): its very plane words are free there, for they return to
their places and a word has one holder. -/
def State.takesBack (s : State) (t : Nat) (x : Team) (core : Nat) : Bool :=
  let hold := s.savedHold t x
  let books := s.books core t vzero8
  !(s.freeTeamSlots core).isEmpty && vle8 hold (available books) && safeBooks (books ++ [(s.claimOf x, hold)]) &&
    x.plane.all (fun w => (Tab.get (s.core core).plane w.1).isNone)

/-- The cores to which a saved team may return, best first. -/
def State.homes (s : State) (t : Nat) (x : Team) : List Nat :=
  if (s.core x.core).eps.any (fun e => e.2.team == t) then [x.core]
  else (List.range 6).map (fun i => 6 * clusterOf x.core + i)

/-- A saved team's words, slots and commands return on core `core`. -/
def bringBack (s : State) (t : Nat) (x : Team) (core : Nat) : State :=
  let slot := s.pickTeamSlot core
  let s := s.tickFresh
  let s := s.setTeam t { x with core := core, slot := slot, status := .running, plane := [], lost := [], cmds := [], accHeld := 0 }
  let s := s.modCore core (fun c => x.plane.foldl (fun c w =>
    ({ c with plane := Tab.set c.plane w.1 { w.2 with clr := false }, last := Tab.set c.last w.1 t }).wakeP (planeBank w.1)) c)
  let s := ((List.range 12).filter (fun a => x.accHeld.getLsbD a)).foldl (fun s a => grantSlot s core t a) s
  let s := s.modTeam t (fun y => { y with acc := x.acc, accClr := 0 })
  let s := match s.team t with
    | some y =>
      let s := if s.errs.isEmpty then s else s.mend (fun e => match e with
        | .plane c k => c == core && (Tab.get x.plane k).isSome
        | .acc c p _ => c == core && (List.range 12).any (fun a => y.accHeld.getLsbD a && y.accPhys.getD a 12 == p)
        | _ => false)
      { s with errs := s.errs ++ x.lost.map (fun i => { site := y.siteOf core i, marked := true : Err }) }
    | none => s
  let s := refreshPath s core .cluster
  let s := { s with groups := s.groups.map (fun (k, g) => (k, if g.id.team = t then { g with id := { g.id with core := core } } else g)) }
  let again := fun (y : Cmd) => match s.group y.group with
    | some g => { (if y.raw then y.packet s g else y) with so := !y.raw || (y.packet s g).so }.went s core g
    | none => y
  let s := s.modCore core (fun c => { c with
    copies := c.copies ++ (List.range x.cmds.length).filterMap (fun i => (x.cmds[i]?).map (fun y => { again y with seq := c.seq + i }))
    seq := c.seq + x.cmds.length })
  readyAll s t

/-- A team that is to restart is re-admitted. -/
def readmit (s : State) (t : Nat) : State :=
  match s.team t with
  | none => s
  | some x =>
    if x.status != .restarting then s
    else match (s.homes t x).find? (s.takesBack t x) with
      | none => s
      | some core => bringBack s t x core

/-- A write of PREEMPT by a group of core `core` (R394): the team is named, and the signal travels to its core in TC0 (spec/01
R21). -/
def writePreempt (s : State) (core : Nat) (v : Word) : State :=
  let send := fun (f : Nat → Packet) =>
    let s := nameTeam s v
    match s.sup.named with
    | none => s
    | some t => match s.team t with
      | none => s
      | some x => s.inject [(core, x.core, f t)]
  match bits v 1 0 with
  | 0 => send .preempt
  | 1 => send .restart
  | _ => s

/-! ### TC0 packets arrive (spec/01 R22) -/

/-- A signal from core `from_` takes effect at its destination. -/
def landSignal (s : State) (from_ : Nat) : Packet → State
  | .arrival gr l u t n =>
    let b := s.barrier gr l u
    if n != b.done + 1 || Tab.getD b.sent t 0 < n then s
    else settleUnit (s.setBarrier { b with arrived := if b.arrived.contains t then b.arrived else b.arrived ++ [t] }) gr l u from_
  | .release gr l u t n =>
    let b := s.barrier gr l u
    s.setBarrier { b with delivered := Tab.set b.delivered t (max n (Tab.getD b.delivered t 0)) }
  | .answer k v => answerSend s k v
  | .element k ord =>
    match s.group k with
    | none => s
    | some g =>
      match g.accs.findIdx? (fun a => a.ord == ord) with
      | none => s
      | some idx =>
        match g.accs[idx]? with
        | none => s
        | some a =>
          match a.parts.head? with
          | none => s
          | some p => donePart s k idx 0 p
  | .preempt t => preemptTeam s t
  | .restart t => restartTeam s t

/-! ### The events -/

/-- R395: the named team stops; it is flushed, or its save begins. -/
def execPreemptPreempt (save : BitVec 64) : State → Host.Outcome State Fault Refusal :=
  fun s => .next (preempt s save)

/-- R396: the save of a team finishes. -/
def execPreemptSaveComplete (team : Nat) : State → Host.Outcome State Fault Refusal :=
  fun s => .next (finishSave s team)

/-- R397: a flushed team runs again; a saved team waits to be re-admitted. -/
def execPreemptRestart (save : BitVec 64) : State → Host.Outcome State Fault Refusal :=
  fun s => .next (restart s save)

/-- spec/01 R22: a TC0 packet arrives; packets from one source to one destination keep their order. -/
def execSyncSignal (idx : Nat) : State → Host.Outcome State Fault Refusal :=
  fun s =>
    match s.signals[idx]? with
    | none => .next s
    | some x =>
      if s.mayArrive x.src x.dst x.seq then .next (landSignal { s with signals := dropAt s.signals idx } x.src x.packet) else .next s

/-- R397: a core takes a saved team back. -/
def execSavedTeamReadmission (team : Nat) : State → Host.Outcome State Fault Refusal :=
  fun s => .next (readmit s team)

end Sys2Proof.Machine
end

