-- ==== Sys2Proof/Machine/Front.lean ====
section
/-!
DEFINITION. The front end (spec/03): queues and completions, entries, admission and starts; the end of grids (spec/21 R400,
R401, R446); function-level and module reset (spec/24 R423, spec/05 R107).
-/

namespace Sys2Proof.Machine

def State.modQueue (s : State) (q : Nat) (f : Queue → Queue) : State := s.setQueue q (f (s.queue q))

/-! ### Completions (R50, R51) -/

/-- One completion entry is written at CPLNEXT: none where the write fails. -/
def postOne (s : State) (q : Nat) (token : Word) (status : Nat) : Option State :=
  match readDesc s q with
  | none => none
  | some d =>
    if !d.ok then none
    else
      let phase := if d.cplnext / d.size % 2 = 0 then 256 else 0
      match s.vwrite d.asid (d.cplbase + 16 * (d.cplnext % d.size)) (leBytes 8 token.toNat ++ leBytes 8 (status + phase)) with
      | none => none
      | some s => some (writeDesc s q 0x28 ((d.cplnext + 1) % 2 ^ 32))

/-- The completions that are due are written in order; one that fails holds the queue and those behind it. -/
def postDue (s : State) (q : Nat) : List (Word × Nat) → State
  | [] => s.modQueue q (fun x => { x with due := [], holdPost := false })
  | (token, status) :: rest =>
    match postOne s q token status with
    | some s => postDue s q rest
    | none => (setQerr s q).modQueue q (fun x => { x with due := (token, status) :: rest, holdPost := true })

def postAll (s : State) (q : Nat) : State := postDue s q (s.queue q).due

/-- A taken entry completes with a status; its completion falls due. -/
def finishEntry (s : State) (q index status : Nat) (posted : Bool) : State :=
  match (s.queue q).taken.find? (fun e => e.index == index) with
  | none => s
  | some e =>
    let s := s.modQueue q (fun x => { x with
      taken := x.taken.filter (fun e => e.index != index)
      due := if posted then x.due ++ [(e.token, status)] else x.due })
    if (s.queue q).holdPost then s else postAll s q

/-! ### Event dwords (R49) -/

/-- The status of a signal: an unsigned maximum into its event dword. -/
def signalDword (s : State) (q asid addr value : Nat) : State × Nat :=
  match s.vread asid addr 8 .both with
  | none => (setQerr s q, 12)
  | some v => match s.vwrite asid addr (leBytes 8 (max v value)) with
    | none => (setQerr s q, 12)
    | some s => (s, 0)

/-- The next taken entry that may complete by itself: a signal or an end entry whose earlier entries have. -/
def nextDone : List Taken → List Taken → Option Taken
  | _, [] => none
  | before, e :: t =>
    if (e.kind = 3 ∧ before.isEmpty) ∨ (e.kind = 4 ∧ before.all (fun x => x.kind != 1)) then some e
    else nextDone (before ++ [e]) t

/-- Signals and end entries of a queue complete as the entries before them do. -/
def settleEntries (s : State) (q : Nat) : Nat → State
  | 0 => s
  | n + 1 =>
    match nextDone [] (s.queue q).taken with
    | none => s
    | some e =>
      let r := if e.kind = 3 then
          (match readDesc s q with
          | some d => signalDword s q d.asid e.addr.toNat e.value.toNat
          | none => (setQerr s q, 12))
        else (s, 0)
      settleEntries (finishEntry r.1 q e.index r.2 true) q n

def complete (s : State) (q index status : Nat) (posted : Bool) : State :=
  let s := finishEntry s q index status posted
  settleEntries s q (s.queue q).taken.length

/-- A pending wait entry is freed: its queue has been disabled, or its launches have been ended.  DESIGN CHOICE (log entry 43): it
completes with a status that the spec does not give. -/
def freeWait (s : State) (q : Nat) : State :=
  match (s.queue q).taken.find? (fun e => e.kind == 2) with
  | some e => (complete s q e.index (Config.freedStatus s.fresh % 256) true).tickFresh
  | none => s

/-- A pending wait entry reads its event dword again, and completes where it holds the value; else that of a disabled queue is freed
(R44, R49). -/
def pollWait (s : State) (q : Nat) : State :=
  match (s.queue q).taken.find? (fun e => e.kind == 2), readDesc s q with
  | some e, some d =>
    let freed := fun s => if d.ok && !d.enable then freeWait s q else s
    match s.vread d.asid e.addr.toNat 8 .read with
    | none => freed (setQerr s q)
    | some v => if e.value.toNat ≤ v then complete s q e.index 0 true else freed s
  | some _, none => setQerr s q
  | none, _ => s

/-! ### Taking entries (R49, R51, R52) -/

/-- CPLHEAD is read; one that lies ahead of CPLNEXT, or too far behind it, holds the queue. -/
def readCplhead (s : State) (q : Nat) (d : Desc) : State :=
  let bad := d.size < ahead d.cplhead d.cplnext
  let s := s.modQueue q (fun x => { x with cplSeen := BitVec.ofNat 32 d.cplhead, holdCpl := bad })
  if bad then setQerr s q else s

def entryDw (e i : Nat) : Nat := e / 2 ^ (64 * i) % 2 ^ 64

/-- The head entry of a queue, as one number. -/
def headEntry (s : State) (d : Desc) : Option Nat := s.vread d.asid (d.ringbase + 64 * (d.head % d.size)) 64 .read

/-- Whether a queue is served and has an entry with room for its completion. -/
def State.served (s : State) (q : Nat) (d : Desc) : Bool :=
  let x := s.queue q
  let n := ahead d.head x.tail.toNat
  q ≤ 4095 && d.ok && d.enable && !x.holdHead && !x.holdCpl && !x.holdPost && 0 < n && n ≤ d.size &&
    ahead x.cplSeen.toNat d.head < d.size && !x.taken.any (fun e => e.kind == 2)

/-- The head entry of a queue where it can be taken. -/
def State.takeable (s : State) (q : Nat) : Option (Desc × Nat) :=
  match readDesc s q with
  | none => none
  | some d =>
    if !s.served q d then none
    else match headEntry s d with
      | none => none
      | some e => if e.testBit 4 && !(s.queue q).taken.isEmpty then none else some (d, e)

/-- Whether command processor q mod 16 takes from queue `q` next: highest effective priority, then round robin. -/
def State.chosen (s : State) (q : Nat) : Bool :=
  let last := Tab.getD s.front.lastServed (q % 16) 4095
  let turn := fun k => (k + 4095 - last) % 4096
  (s.front.queues.filter (fun x => x.1 % 16 == q % 16 && x.1 != q && (s.takeable x.1).isSome)).all (fun x =>
    s.effPrio x.1 < s.effPrio q || (s.effPrio x.1 == s.effPrio q && turn q < turn x.1))

def entryKind (e : Nat) : Nat := nbits e 3 0
def entryAddr (e : Nat) : Nat := nbits (entryDw e 1) 56 0

/-- Whether an entry completes with status 11 (R50). -/
def entryBad (e : Nat) : Bool :=
  let k := entryKind e
  4 < k || nbits (entryDw e 0) 63 5 != 0 || nbits (entryDw e 1) 63 57 != 0 || e / 2 ^ 256 != 0 ||
    ((k == 2 || k == 3) && entryAddr e % 8 != 0) || (k == 4 && (entryAddr e != 0 || entryDw e 2 != 0))

/-- The head entry is taken. -/
def takeHead (s : State) (q : Nat) (d : Desc) (e : Nat) : State :=
  let t : Taken := { index := d.head, kind := if entryBad e then 0 else entryKind e, token := BitVec.ofNat 64 (entryDw e 3)
                     addr := BitVec.ofNat 64 (entryAddr e), value := BitVec.ofNat 64 (entryDw e 2) }
  let s := s.modQueue q (fun x => { x with taken := x.taken ++ [t], raise := 0 })
  let s := { s with front := { s.front with lastServed := Tab.set s.front.lastServed (q % 16) q } }
  writeDesc s q 0x18 ((d.head + 1) % 2 ^ 32)

/-- A queue whose doorbell has been written is found with a descriptor that cannot be read or breaks R46: it is not served. -/
def noteBroken (s : State) (q : Nat) : State := if (Tab.get s.front.queues q).isSome then setQerr s q else s

/-- The event of an entry of a kind that `p` names: a head that cannot be read holds the queue; one that can be taken and is
chosen is taken, and acts by `body`. -/
def entryEvent (s : State) (q : Nat) (p : Nat → Bool) (body : State → Desc → Nat → State) : State :=
  match readDesc s q with
  | none => noteBroken s q
  | some d =>
    if !d.ok then noteBroken s q
    else if s.served q d && (headEntry s d).isNone then (setQerr s q).modQueue q (fun x => { x with holdHead := true })
    else match s.takeable q with
      | none => s
      | some (d, e) =>
        if !p (entryKind e) || !s.chosen q then s
        else
          let s := takeHead s q d e
          if entryBad e then complete s q d.head 11 true else body s d e

/-! ### Entries -/

/-- A launch entry: its record is read and checked; the grid exists, or the entry completes with the refusal. -/
def launchGrid (s : State) (q : Nat) (d : Desc) (e : Nat) : State :=
  let addr := entryAddr e
  match s.vread d.asid addr 192 .read with
  | none => complete s q d.head 1 true
  | some rec =>
    let l := parseLaunch rec
    match refusal rec addr l d.supv with
    | some c => complete s q d.head c true
    | none =>
      let id := s.nextId
      let g : Grid := { queue := q, index := d.head, token := BitVec.ofNat 64 (entryDw e 3), asid := d.asid, supv := d.supv
                        launch := l, coresident := l.coresident, since := id }
      let s := { s.setGrid id g with nextId := id + 1 }
      s.modQueue q (fun x => { x with taken := x.taken.map (fun t => if t.index = d.head then { t with grid := some id } else t) })

/-- An end entry: every grid launched earlier from the queue is ended. -/
def endAll (s : State) (q : Nat) (d : Desc) : State :=
  let ids := ((s.queue q).taken.filter (fun t => t.index != d.head)).filterMap (·.grid)
  let s := ids.foldl (fun s id => endGrid s id 17 0) s
  settleEntries s q (s.queue q).taken.length

/-- A doorbell: TAIL is taken unless it lies too far beyond HEAD, CPLHEAD is read, and every pending wait reads again.  DESIGN CHOICE
(log entry 43): a doorbell whose value is ignored does not read CPLHEAD, which the next poll does. -/
def doorbell (s : State) (q : Nat) (tail : W32) : State :=
  if 4095 < q ∨ s.front.locked then s
  else
    let s := match readDesc s q with
      | none => setQerr s q
      | some d =>
        if !d.ok || d.size < ahead d.head tail.toNat then setQerr s q
        else readCplhead (s.modQueue q (fun x => { x with tail := tail })) q d
    s.front.queues.foldl (fun s x => pollWait s x.1) s

/-! ### Ends of grids (R400, R401, R446) -/

/-- Whether a store waiting in a view is the grid's. -/
def Grid.owns (g : Grid) (x : Store) : Bool := g.past.contains x.group

/-- Every write of a grid is performed at device scope. -/
def flushGrid (s : State) (g : Grid) : State :=
  let s := (s.cores.map (·.1)).foldl (fun s c => pushCore g.owns s c) s
  (s.dies.map (·.1)).foldl (fun s d => pushDie g.owns s d) s

/-- Whether a write of a grid, or one that it would take with it, cannot reach its home yet. -/
def State.flushStalled (s : State) (g : Grid) : Bool :=
  s.cores.any (fun c => c.2.late.any (fun y => g.owns y.store)) ||
    s.waits.any (fun y => s.barred true g.owns y && (g.owns y || !y.lent.isEmpty || s.waits.any (fun x => g.owns x && x.near y)))

/-- The status a grid ends with, once it has none of its teams. -/
def State.endStatus (s : State) (id : Nat) (g : Grid) : Option Nat :=
  match g.ended with
  | some x => some x
  | none => if !g.waits && !s.teams.any (fun t => t.2.grid == id) then some 0 else none

/-- A core forgets the retired slots of a grid. -/
def Core.forgetGrid (c : Core) (id : Nat) : Core :=
  { c with gone := c.gone.filter (fun y => y.1 != id) }

/-- A grid is gone: its writes are flushed, its completion falls due, and an event follows an abort or an end. -/
def closeGrid (s : State) (id : Nat) (g : Grid) (status : Nat) (posted : Bool) : State :=
  let s := flushGrid s g
  let s := { s with cores := s.cores.map (fun (c : Nat × Core) => (c.1, c.2.forgetGrid id)) }
  let s := { s with grids := Tab.erase s.grids id, barriers := s.barriers.filter (fun b => b.grid != id) }
  let s := complete s g.queue g.index status posted
  let s := if status = 17 && !(s.queue g.queue).taken.any (fun t => t.kind == 1) then freeWait s g.queue else s
  if status = 16 ∨ status = 17 then
    postEvent s { kind := 4, core := g.endCore, asid := g.asid, base := g.launch.saveArea g.endTeam, addr := 0, cause := status }
  else s

/-! ### Resets -/

/-- Every grid is lost (R423): its completion is posted only in D0; one whose writes wait for a port closes when they are done. -/
def loseGrids (s : State) : State :=
  let ids := s.grids.map (·.1)
  let s := ids.foldl (fun s id => endGrid s id 18 0) s
  ids.foldl (fun s id => match s.grid id with
    | some g => if s.flushStalled g then s else closeGrid s id g (g.ended.getD 18) (!s.front.d3)
    | none => s) s

/-- ENABLE of every queue descriptor is cleared: bit 0 of the byte at offset 0x0A. -/
def clearEnables (s : State) : State :=
  let base := descAddr s 0
  if !inHeap base 262144 then s
  else
    (s.mem.filter (fun c => base ≤ c.1 && c.1 < base + 262144 && (c.1 - base) % 64 == 0x0A)).foldl
      (fun s c => writeHomeByte s c.1 (homeByte s c.1 &&& 0xFE)) s

def functionLevelReset (s : State) : State :=
  let s := clearEnables (loseGrids s)
  { s with front := { s.front with qerr := 0, admitted := [] } }

/-- What a core keeps across a module reset: its repairs (spec/23 R413). -/
def Core.repairsOnly (c : Core) : Core :=
  { mapCol := c.mapCol, mapRow := c.mapRow
    ras := { colSpare := c.ras.colSpare, rowSpare := c.ras.rowSpare, arrSpares := c.ras.arrSpares, matSpares := c.ras.matSpares } }

/-- Module reset: grids are lost, and everything but device memory, repairs and the root of trust takes its reset value. -/
def moduleReset (s : State) : State :=
  let s := loseGrids s
  { State.reset with
    mem := s.mem
    poison := s.poison
    errs := s.errs.filter (fun e => match e.site with
      | .hbm _ | .matRow _ _ => true
      | _ => false)
    cores := s.cores.map (fun (c, x) => (c, x.repairsOnly))
    front := { State.reset.front with
      nonce := s.front.nonce, mailbox := s.front.mailbox, report := s.front.report, stages := s.front.stages
      version := s.front.version, locked := s.front.locked, reply := s.front.reply, mgmt := s.front.mgmt }
    nextId := s.nextId
    agenda := s.agenda
    fresh := s.fresh }

/-! ### The events -/

/-- R47, R49, R51. -/
def execDoorbellWrite (q : Nat) (tail : BitVec 32) : State → Host.Outcome State Fault Refusal :=
  fun s => .next (doorbell s q tail)

/-- R45, R49, R51: the queues of the cleared bits are served again, and a failed completion is written again. -/
def execQerrClear (m : Nat) (bits : BitVec 64) : State → Host.Outcome State Fault Refusal :=
  fun s =>
    if 64 ≤ m ∨ s.front.locked then .next s
    else
      let qs := ((List.range 64).filter (fun i => bits.getLsbD i)).map (fun i => 64 * m + i)
      .next (qs.foldl (fun s q =>
        let s := { s with front := { s.front with qerr := setBit s.front.qerr q false } }
        if (s.queue q).holdHead || (s.queue q).holdPost then
          postAll (s.modQueue q (fun x => { x with holdHead := false })) q
        else s) s)

/-- R49: an entry of kind 0 completes when it is taken, and one of kind 5 to 15 with status 11. -/
def execNothingEntry (q : Nat) : State → Host.Outcome State Fault Refusal :=
  fun s => .next (entryEvent s q (fun k => k == 0 || 4 < k) (fun s d _ => complete s q d.head 0 true))

/-- R49, R42, R55. -/
def execLaunchEntry (q : Nat) : State → Host.Outcome State Fault Refusal :=
  fun s => .next (entryEvent s q (· == 1) (fun s d e => launchGrid s q d e))

/-- R49. -/
def execWaitEntry (q : Nat) : State → Host.Outcome State Fault Refusal :=
  fun s => .next (entryEvent s q (· == 2) (fun s _ _ => pollWait s q))

/-- R49. -/
def execWaitEntryPoll (q : Nat) : State → Host.Outcome State Fault Refusal :=
  fun s => .next (pollWait s q)

/-- R49: a signal acts once every earlier entry has completed. -/
def execSignalEntry (q : Nat) : State → Host.Outcome State Fault Refusal :=
  fun s => .next (entryEvent s q (· == 3) (fun s _ _ => settleEntries s q (s.queue q).taken.length))

/-- R49. -/
def execEndEntry (q : Nat) : State → Host.Outcome State Fault Refusal :=
  fun s => .next (entryEvent s q (· == 4) (fun s d _ => endAll s q d))

/-- R51. -/
def execCplheadPoll (q : Nat) : State → Host.Outcome State Fault Refusal :=
  fun s =>
    match readDesc s q with
    | some d => .next (if !d.ok then noteBroken s q else if q ≤ 4095 then readCplhead s q d else s)
    | none => .next (noteBroken s q)

/-- R52: a head that has been ready for 2 ms and was not taken. -/
def execPriorityAging (q : Nat) : State → Host.Outcome State Fault Refusal :=
  fun s =>
    match s.takeable q with
    | some (d, _) =>
      .next (if d.prio + (s.queue q).raise < 3 then s.modQueue q (fun x => { x with raise := x.raise + 1 }) else s)
    | none => .next s

/-- R53 to R59. -/
def execUnitAdmission (grid : Nat) : State → Host.Outcome State Fault Refusal :=
  fun s => .next (admitUnit s grid)

/-- R59: a unit that has waited 100 µs. -/
def execUnitReservation (grid : Nat) : State → Host.Outcome State Fault Refusal :=
  fun s => .next (s.modGrid grid (fun g => if g.waits then { g with reserves := true } else g))

/-- R60: a distributor starts the team of its row that was admitted first. -/
def execTeamStart (dist : Nat) : State → Host.Outcome State Fault Refusal :=
  fun s =>
    let here := fun t => match s.team t with
      | some x => dieOf x.core / 6 == dist && x.status == .running && !x.started
      | none => false
    match s.front.admitted.find? here with
    | none => .next s
    | some t =>
      let s := { s with front := { s.front with admitted := s.front.admitted.filter (· != t) } }
      .next (s.modTeam t (fun x => { x with started := true }))

/-- R61: the team's next ordinary group begins, where its context pool has a free slot (R36). -/
def execGroupStart (team : Nat) : State → Host.Outcome State Fault Refusal :=
  fun s =>
    match s.team team with
    | none => .next s
    | some x =>
      match s.grid x.grid with
      | none => .next s
      | some g =>
        if !x.started || x.status != .running || g.launch.ordinary ≤ x.begun then .next s
        else
          let r := g.launch.roleAt x.begun
          match startGroup s team { num := x.begun, role := r, entry := g.launch.entry r } with
          | none => .next s
          | some s => .next (s.modTeam team (fun x => { x with begun := x.begun + 1 }))

/-- R400, R401 step 5, R446. -/
def execGridEnd (grid : Nat) : State → Host.Outcome State Fault Refusal :=
  fun s =>
    match s.grid grid with
    | none => .next s
    | some g =>
      match s.endStatus grid g with
      | none => .next s
      | some status => .next (if s.flushStalled g then s else closeGrid s grid g status (status != 18 || !s.front.d3))

/-- spec/24 R423. -/
def execFunctionLevelReset : State → Host.Outcome State Fault Refusal :=
  fun s => .next (functionLevelReset s)

/-- spec/05 R107, spec/19 R360, spec/24 R423. -/
def execModuleReset : State → Host.Outcome State Fault Refusal :=
  fun s => .next (moduleReset s)

end Sys2Proof.Machine
end

