-- ==== Sys2Proof/Machine/SysReg.lean ====
section
/-!
DEFINITION. System registers (spec/04 R80, spec/07 R150, R151): `srd`, `swr`, `srdv`, and writes of registers as events.
-/

namespace Sys2Proof.Machine

/-! ### Waits of the sticky registers (R150) -/

/-- What a read or write of system register `n` waits for: every earlier instruction that can change it. -/
def State.stickyWait (s : State) (k : Nat) (g : Group) (n : Nat) : Option Block :=
  if g.stickyParked n then some .parked
  else if s.stickyBusy k g n then some (.sticky n)
  else none

/-! ### Reads -/

/-- PERFLVL of a core's cluster. -/
def State.perflvl (s : State) (core : Nat) : Word :=
  let x := s.cluster (clusterOf core)
  BitVec.ofNat 64 (x.code.toNat / 4 + x.code.toNat % 4 * 4 + x.cap / 4 * 16)

/-- LANEPOS of the last lane of a footprint. -/
def lanePosEnd (foot : Nat) : Nat := 31 + (6 * foot - 1) * 256

/-- A supervisor register as core `core` reads it. -/
def State.readSup (s : State) (core n : Nat) : Word :=
  match n with
  | 1024 => s.sup.astable
  | 1025 => s.sup.barstag
  | 1026 => s.front.qtable
  | 1027 => readPerfcap s core
  | 1028 => s.sup.slewctl
  | 1029 => s.sup.sysevq
  | 1030 => s.sup.sysHead ++ s.sup.sysTail
  | 1031 => s.sup.preemptsel
  | 1032 => s.readPreempt
  | 1033 => (s.core core).ras.read
  | 1034 => s.sup.portsel
  | 1035 => s.readPortstat
  | 1036 => s.readPortflt
  | 1037 => s.sup.bar2map
  | 1038 => s.sup.peerwin
  | _ => 0

/-- A system register as group `g` reads it. -/
def State.readReg (s : State) (g : Group) (n : Nat) : Word :=
  match n with
  | 0 => g.sys.mode
  | 1 => g.sys.fpx
  | 2 => BitVec.ofNat 64 (lanePosEnd g.id.foot)
  | 3 => BitVec.ofNat 64 g.groupId
  | 4 => BitVec.ofNat 64 (s.teamId g)
  | 16 => (match s.team g.id.team with | some t => t.ready | none => 0)
  | 17 => g.sys.rangeflag
  | 18 => g.sys.rangeaddr
  | 19 => g.sys.scrollpos
  | 20 => g.sys.remoteerr
  | 21 => g.sys.seed
  | 22 => g.sys.compand
  | 23 => s.perflvl g.id.core
  | 24 => BitVec.ofNat 64 (s.core g.id.core).clk
  | 25 => BitVec.ofNat 64 (s.die (dieOf g.id.core)).reftime
  | 26 => g.sys.wdlimit
  | 27 => g.sys.fillercyc
  | 28 => g.sys.traprec
  | n =>
    if 8 ≤ n && n < 16 then BitVec.ofNat 64 (s.levelId g (n - 8)) else s.readSup g.id.core n

/-- REFTIME of a die has advanced when it is read. -/
def tickRef (s : State) (core : Nat) : State :=
  (s.modDie (dieOf core) (fun d => { d with reftime := d.reftime + Config.refAdvance s.fresh })).tickFresh

/-! ### Writes -/

/-- A write of a supervisor register by a group of core `core`. -/
def writeSup (s : State) (core n : Nat) (v : Word) : State :=
  match n with
  | 1024 => { s with sup := { s.sup with astable := v &&& 0x000FFFFFFFFFF000 } }
  | 1025 => { s with sup := { s.sup with barstag := v &&& 0xFFFF } }
  | 1026 => writeQtable s v
  | 1027 => writePerfcap s v
  | 1028 => writeSlewctl s v
  | 1029 => { s with sup := { s.sup with sysevq := v &&& 0x000FFFFFFFFFF01F } }
  | 1030 => { s with sup := { s.sup with sysHead := (v >>> 32).setWidth 32 } }
  | 1031 => { s with sup := { s.sup with preemptsel := v &&& 0xFFFF } }
  | 1032 => writePreempt s core v
  | 1033 => writeRasstat s core v
  | 1034 => { s with sup := { s.sup with portsel := v &&& 0x3F } }
  | 1035 => writePortstat s v
  | 1037 => writeBar2map s v
  | 1038 => writePeerwin s v
  | _ => s

/-- The place in the system block of a register that a group may write (spec/05 R93). -/
def sysPlace : Nat → Nat
  | 0 => 0x1108
  | 1 => 0x1110
  | 17 => 0x1128
  | 19 => 0x1138
  | 20 => 0x1140
  | 21 => 0x1148
  | 22 => 0x1158
  | 26 => 0x1160
  | 28 => 0x1178
  | _ => 0

/-- A write of SEED loads LFSR too (spec/08 R173, R175). -/
def Group.setSeed (g : Group) (v : Word) : Group :=
  { g with sys := { g.sys with seed := v &&& 0xFFFFFFFF, lfsr := lfsrOf (v.setWidth 32) } }

/-- A write of one of the group's own system registers. -/
def Group.writeReg (g : Group) (n : Nat) (v : Word) : Group :=
  if n = 21 then g.setSeed v else g.setSys (sysPlace n) v.toNat

def sticky (i : BitVec 11) (k : Nat) (g : Group) (s : State) : Gate :=
  match s.stickyWait k g i.toNat with
  | some b => .wait b s
  | none => .pass

/-! ### The instructions and events -/

/-- R150, R151: D := the register. -/
def execSrd (d : BitVec 5) (i : BitVec 11) : State → Host.Outcome State Fault Refusal :=
  issue (encSrd d i) (fun g => needS g [] (some (sr d)) false false) (sticky i)
    (fun k g s =>
      let s := if i = 25 then tickRef s g.id.core else s
      { s := s.modGroup k (fun g' => g'.setS d.toNat (s.readReg g i.toNat)) })

/-- R150: the register := A; a write of PREEMPT acts once the group has gone on. -/
def execSwr (a : BitVec 5) (l : Bool) (i : BitVec 11) : State → Host.Outcome State Fault Refusal :=
  issue (encSwr a l i) (fun g => needS g [(sr a, l)] none false false) (sticky i)
    (fun k g s =>
      let v := g.sreg a.toNat
      if i.toNat < 1024 then { s := s.modGroup k (fun g' => g'.writeReg i.toNat v) }
      else if i = 1032 then { s := s, last := fun s => writeSup s g.id.core 1032 v }
      else { s := writeSup s g.id.core i.toNat v })

/-- R150: in every alive lane, D := that lane's LANEPOS. -/
def execSrdv (d : BitVec 5) : State → Host.Outcome State Fault Refusal :=
  issue (encSrdv d) (fun g => { needV g [] (vr d) false false 0 with lane := some (g.full &&& g.alive) }) noGate
    (onGroup (fun g g' => g'.setV g d.toNat (g.full &&& g.alive) (fun l => BitVec.ofNat 64 (l % 32 + l / 32 * 256))))

/-- spec/16 R339. -/
def execBarstagWrite (v : BitVec 64) : State → Host.Outcome State Fault Refusal :=
  fun s => .next (writeSup s 0 1025 v)

/-- spec/08 R175. -/
def execSeedWrite (group : Nat) (v : BitVec 64) : State → Host.Outcome State Fault Refusal :=
  fun s => .next (s.modGroup group (fun g => g.setSeed v))

/-- spec/21 R382. -/
def execSysevptrWrite (v : BitVec 64) : State → Host.Outcome State Fault Refusal :=
  fun s => .next (writeSup s 0 1030 v)

/-- R80: a supervisor register. -/
def execRegisterWrite (core : Nat) (num : BitVec 11) (v : BitVec 64) : State → Host.Outcome State Fault Refusal :=
  fun s => .next (writeSup s core num.toNat v)

end Sys2Proof.Machine
end

