-- ==== Sys2Proof/Machine/System.lean ====
section
/-!
DEFINITION. Traps and their handlers, the supervisor's control of groups, regions, generations, retirement (spec/21, spec/05 R119,
R120, spec/12 R245, R257 to R260).
-/

namespace Sys2Proof.Machine

/-! ### A handler's view of the context it serves (R387) -/

/-- The register element at an offset of a context of `k` sectors. -/
def regAt (k off : Nat) : Option (Reg × Nat) :=
  let o := off - 0x1400
  if 0x1000 ≤ off ∧ off < 0x1100 then some (.s ((off - 0x1000) / 8), 0)
  else if 0x1400 ≤ off ∧ o < 0xC000 * k then some (.v (o % 0xC000 / 0x600), 192 * (o / 0xC000) + o % 0x600 / 8)
  else none

/-- The log row and lane at an offset beyond the sector blocks (spec/12 R261). -/
def logAt (k off : Nat) : Nat × Nat :=
  let o := off - 0x1400 - 0xC000 * k
  (o % 0xC00 / 0x600, 192 * (o / 0xC00) + o % 0x600 / 8)

def Group.element (g : Group) (r : Reg) (l : Nat) : Word :=
  match r with
  | .s n => g.sreg n
  | .v n => g.vreg n l

/-- Whether an offset lies in the trap record. -/
def inRecord (off : Nat) : Bool := 0x400 ≤ off && off < 0x800

/-- The dword of group `x`'s context at an offset. -/
def State.ctxDword (s : State) (g : Group) (off : Nat) : Nat :=
  match regAt g.id.foot off with
  | some (r, l) => if g.live r then (g.element r l).toNat else 0
  | none =>
    if inRecord off then lookupDw g.recDwords (off - 0x400)
    else if off < 0xB00 then g.hdrDword (gstateCode .handler) off
    else if off < 0x1000 then lookupDw g.log.dwords off
    else if off < 0x1400 then s.sysDword g off
    else
      let (j, l) := logAt g.id.foot off
      ((if j = 0 then g.log.row0 else g.log.row1).getD l 0).toNat

/-- The address in memory that an access to an offset reaches, where the dword is not in the device. -/
def State.ctxPlace (s : State) (x : Nat) (g : Group) (off : Nat) : Option Nat :=
  match regAt g.id.foot off with
  | some (r, _) => if !g.live r || (s.core g.id.core).cached x g.id.foot r then none else some (g.id.base + off)
  | none =>
    if inRecord off then some (g.recBase + (off - 0x400))
    else if 0xB00 ≤ off && off < 0x1000 || 0x1400 ≤ off then some (g.id.base + off)
    else none

/-- What is damaged of the cached word that an access to an offset reads or writes (spec/23 R409). -/
def State.ctxErrs (s : State) (x : Nat) (g : Group) (off : Nat) : List Err :=
  match regAt g.id.foot off with
  | some (r, l) => if g.live r then (s.regErrs x g.id.core r).filter (fun e => match r with | .s _ => true | .v _ => e.lane == l) else []
  | none => []

/-- A dword is written into the context area as well, at offset `off` with value `v`. -/
def putCtx (s : State) (g : Group) (off v : Nat) : Except (Nat × Bool) State :=
  ctxStore s g (if inRecord off then g.recBase + (off - 0x400) else g.id.base + off) v

/-- The same where memory holds the exact context. -/
def putExact (s : State) (g : Group) (off v : Nat) : Except (Nat × Bool) State :=
  if g.inMem then putCtx s g off v else .ok s

/-- A dead register becomes live with the value zero. -/
def Group.zeroReg (g : Group) : Reg → Group
  | .s n => g.setS n 0
  | .v n => ((g.putV n (List.replicate g.lanes 0)).setLive (.v n) true).setEmpty (.v n) false

/-- One element of a register of group `x` is written. -/
def ctxElement (s : State) (x : Nat) (g : Group) (off : Nat) (r : Reg) (l : Nat) (v : Word) : Except (Nat × Bool) State :=
  if r = .s 0 then .ok s
  else
    let g1 := if g.live r then g else g.zeroReg r
    let g1 := { g1 with regs := g1.regs.putLane g.id.foot r l v }
    let s := mendRows (s.setGroup x g1) x g (s.core g.id.core) r (fun i => !g.live r || i == l)
    if (s.core g.id.core).cached x g.id.foot r then
      putExact (s.modCore g.id.core (fun c => c.touch x true r)) g1 off v.toNat
    else if g.live r then putCtx s g1 off v.toNat
    else spillReg s x g1 r

/-- A write of SLIVE and VLIVE: registers become dead, or live with the value zero. -/
def ctxLive (s : State) (x : Nat) (g : Group) (v : Word) : Except (Nat × Bool) State :=
  let want := fun r => match r with
    | Reg.s n => v.getLsbD n
    | Reg.v n => v.getLsbD (32 + n)
  let rs := allRegs.filter (· != .s 0)
  let gone := rs.filter (fun r => g.live r && !want r)
  let come := rs.filter (fun r => !g.live r && want r)
  let s := dropPending s x g.id.core gone
  let s := turnRows (s.modGroup x (fun g => g.freeAll gone)) x g gone []
  let s := s.modGroup x (fun g => come.foldl Group.zeroReg g)
  match s.group x with
  | none => .ok s
  | some g1 =>
    (come.foldl (fun (a : Except (Nat × Bool) State) r => a.bind (fun s =>
      if (s.core g.id.core).cached x g.id.foot r then .ok (s.modCore g.id.core (fun c => c.touch x true r))
      else spillReg s x g1 r)) (.ok s)).bind (fun s => putExact s g1 0x008 (g1.hdrDword 0 0x008))

/-- The address of lane `l` of an access. -/
def Access.laneAddr (a : Access) (l : Nat) : Nat :=
  match a.parts.find? (fun p => p.lane == l) with
  | some p => p.va - p.off
  | none => 0

/-- The parked lanes of `l` in an access take a new address and value. -/
def Access.redo (a : Access) (l addr : Nat) (v : Word) : Access :=
  if a.bits = 0 || !a.parts.any (fun p => p.lane == l) then a
  else { a with parts := a.parts.filter (fun p => p.lane < l) ++ laneParts (a.bits / 8) (l, addr, v) ++
           a.parts.filter (fun p => l < p.lane) }

/-- A write of a log row: the lane is replayed with the new index or data; a form with an immediate index has no row 0 and keeps its
address. -/
def OpLog.putRow (x : OpLog) (j l : Nat) (v : Word) : OpLog :=
  let old := if j = 0 then x.row0 else x.row1
  if old.length ≤ l then x
  else
    let x := if j = 0 then { x with row0 := setAt old l v } else { x with row1 := setAt old l v }
    { x with access := x.access.map (fun a =>
        a.redo l (if x.row0.isEmpty then a.laneAddr l else addrOf x.base (x.row0.getD l 0).toNat) (x.row1.getD l 0)) }

/-- One dword of group `x`'s context is written: RO fields, S fields and reserved bits keep their values. -/
def ctxWrite (s : State) (x : Nat) (g : Group) (off : Nat) (v : Word) : Except (Nat × Bool) State :=
  match regAt g.id.foot off with
  | some (r, l) => ctxElement s x g off r l v
  | none =>
    let into := fun (g1 : Group) (put : State → Group → Nat → Nat → Except (Nat × Bool) State) =>
      let s := s.setGroup x g1
      put s g1 off (s.ctxDword g1 off)
    if off = 0x008 then ctxLive s x g v
    else if off = 0x400 then into { g with rptdone := bits v 13 8 } putCtx
    else if off = 0x408 ∨ off = 0x1100 then
      let g1 := g.setSys 0x1100 v.toNat
      putCtx (s.setGroup x { g1 with trap := { g1.trap with retpc := g1.pc }, send := .none }) g1 0x408 g1.pc.toNat
    else if 0x800 ≤ off ∧ off < 0xAA0 then
      let p := (off - 0x800) / 0x60
      let i := (off - 0x800) % 0x60 / 8
      let m := maskOf g.lanes (fun l => if l / 64 = i then v.getLsbD (l % 64) else bit (g.regs.p.getD p 0) l)
      into { g with regs := { g.regs with p := setPad 0 g.regs.p p m } } putExact
    else if off = 0xB00 then into { g with log := { g.log with abandon := v.getLsbD 1 } } putCtx
    else if off = 0x1160 ∨ off = 0x1178 then .ok s
    else if 0x1108 ≤ off ∧ off < 0x1400 then into (g.setSys off v.toNat) putExact
    else if 0x1400 ≤ off then
      let (j, l) := logAt g.id.foot off
      into { g with log := g.log.putRow j l v } putCtx
    else .ok s

/-! ### The failed access is made again (spec/05 R106, R390) -/

/-- One held access is made again; a failure holds it anew, with a new event. -/
def retryOne (s : State) (k : Nat) (h : Held) : State :=
  match s.group k with
  | none => s
  | some g =>
    match h with
    | .fill r => fillReg s k r (match g.blocked with | some (.fill _ l) => l | _ => [])
    | .spill r _ =>
      match spillRegs s k g [r] with
      | .error e => ctxFault s k (cfCause e.2.2 2) e.2.1 (.spill e.1 (sectorAt g e.2.1))
      | .ok s => s
    | .restore r => restoreReg s k r
    | .header => (writeBack s k (gstateCode g.before)).1
    | .start => writeStart s k
    | .activate => (activateContext s k).1
    | .write va v clear => producerWrite s k va v clear
    | .note (.flags f) => resultFlags s k (g.held.filter (fun h => match h with | .write _ _ _ => false | _ => true)).length f
    | .note n => s.setGroup k (g.take n)
    | .entered n => if g.inMem then settleNote s k n else s
    | .record => writeRecord s k
    | .log => writeLog s k
    | .served =>
      if !(s.ctxErrs k g (g.cfaddr - g.id.base)).isEmpty then noteUncorr (ctxFault s k 4 g.cfaddr .served) g.id.core 1
      else match ctxLoad s g g.cfaddr with
      | .error e => ctxFault s k (cfCause e.2 1) e.1 .served
      | .ok _ => s
    | .servedWrite off v =>
      match ctxWrite s k g off v with
      | .error e => ctxFault s k (cfCause e.2 2) e.1 (.servedWrite off v)
      | .ok s => s
    | .resume => (resumeGroup s k .resume).1
    | .refused => (resumeGroup s k .refused).1

/-- Every held access of group `k` is made again. -/
def retryHeld (s : State) (k : Nat) : State :=
  match s.group k with
  | none => s
  | some g =>
    let s := s.setGroup k { g with held := [] }
    let s := g.held.foldl (fun s h => retryOne s k h) s
    if g.held.any (fun h => h == .resume || h == .refused) then s else leaveFault s k

/-! ### Handler instructions (R386 to R389) -/

/-- The group that handler `g` serves, and its state, where sA names its slot. -/
def State.serving (s : State) (g : Group) (a : BitVec 5) : Option (Nat × Group) :=
  match g.id.serves with
  | none => none
  | some x => match s.group x with
    | none => none
    | some y => if (g.sreg a.toNat).toNat = y.id.base then some (x, y) else none

def accessFault (v : Word) : Gate := .trap { code := 26, info0 := v }

/-- The check of `ctxrd` and `ctxwr`. -/
def ctxGate (a b : BitVec 5) (write : Option (BitVec 5)) (_ : Nat) (g : Group) (s : State) : Gate :=
  let off := (g.sreg b.toNat).toNat
  match s.serving g a with
  | none => accessFault (g.sreg b.toNat)
  | some (x, y) =>
    if off % 8 ≠ 0 ∨ 0x1400 + 0xCC00 * y.id.foot ≤ off then accessFault (g.sreg b.toNat)
    else if y.gstate = .ctxFault then .wait .served s
    else
      let waits := match regAt y.id.foot off with
        | some (r, _) => if y.empty r then some r else none
        | none => none
      let bad := s.ctxErrs x y off
      match waits with
      | some r => .wait (.awaits r) s
      | none =>
        match write with
        | none =>
          if bad.any (fun e => !e.marked) then .wait .rebuild (bad.foldl (fun s e => requestRebuild s e.site) s)
          else if !bad.isEmpty then .wait .served (noteUncorr (ctxFault s x 4 (y.id.base + off) .served) y.id.core 1)
          else
          (match s.ctxPlace x y off with
          | none => .pass
          | some va => match ctxLoad s y va with
            | .ok _ => .pass
            | .error e => .wait .served (ctxFault s x (cfCause e.2 1) e.1 .served))
        | some d =>
          if (match regAt y.id.foot off with
            | some (r, l) => s.writeHeld x y.id.core y.id.foot r (fun i => !y.live r || i == l)
            | none => false) then .wait .rebuild s
          else match ctxWrite s x y off (g.sreg d.toNat) with
          | .ok _ => .pass
          | .error e => .wait .served (ctxFault s x (cfCause e.2 2) e.1 (.servedWrite off (g.sreg d.toNat)))

/-- The check of `tret`. -/
def tretGate (a b : BitVec 5) (_ : Nat) (g : Group) (s : State) : Gate :=
  match s.serving g a with
  | none => accessFault (g.sreg b.toNat)
  | some (_, y) =>
    if 1 < (g.sreg b.toNat).toNat then accessFault (g.sreg b.toNat)
    else if y.gstate = .ctxFault then .wait .served s
    else .pass

/-- Group `x` is no longer suspended for a handler: pending, or dormant where it has no table entry. -/
def unsuspend (s : State) (x : Nat) : State :=
  s.modGroup x (fun y =>
    let clk := (s.core y.id.core).clk
    { y with
      gstate := if y.sched.tab.isSome then .pending else .dormant
      blocked := none
      sched := { y.sched with pend := clk, ready := clk, age := clk } })

/-- The logged instruction of group `x` is finished before RETPC issues (spec/12 R259). -/
def finishLogged (s : State) (x : Nat) : State :=
  match s.group x with
  | none => s
  | some y =>
    if !y.log.valid then s
    else if y.log.abandon then abandonParked s x
    else retryParked s x

/-- Every lane of group `x` exits (R388 action 1). -/
def killGroup (s : State) (x : Nat) : State :=
  match s.group x with
  | none => s
  | some y => unsuspend (dropPending (s.modGroup x (fun y =>
      { y with alive := 0, log := {}, pend := [], held := [], region := none })) x y.id.core allRegs) x

/-! ### Naming a group by its slot (R119, R120, R390) -/

/-- The group of core `c` whose slot begins at `base`.  DESIGN CHOICE (log entry 95): of two in different address spaces, the one that
started first. -/
def State.inSlot (s : State) (c base : Nat) (p : Group → Bool) : Option (Nat × Group) :=
  s.groups.find? (fun x => x.2.id.core == c && x.2.id.base == base && p x.2)

/-- Whether a producer of group `x` is in flight. -/
def State.producing (s : State) (x : Nat) (y : Group) : Bool :=
  let c := s.core y.id.core
  y.loadsPending || c.sfu.any (fun e => e.group == x) || c.hiveW.any (fun w => w.group == x && w.add.isSome) || y.asking

/-- A group that `grpsusp` is stopping: it issues no more, and its context is not yet in memory. -/
def Group.stopping (y : Group) : Bool := y.gstate == .suspended && !y.inMem

/-- The group that a `grpsusp` of group `k` suspends, or its status where there is none. -/
def State.suspTarget (s : State) (k : Nat) (g : Group) (a : BitVec 5) : Except Nat (Nat × Group) :=
  match s.inSlot g.id.core (g.sreg a.toNat).toNat (fun _ => true) with
  | none => .error (if (s.core g.id.core).gone.any (fun x => x.2 == (g.sreg a.toNat).toNat) then 2 else 1)
  | some (x, y) =>
    if x = k then .error 3
    else if y.stopping then .ok (x, y)
    else match y.gstate with
      | .ctxFault => .error (if g.blocked = some .drain then 4 else 2)
      | .suspended | .handler => .error 2
      | .active | .pending | .dormant => .ok (x, y)

/-- Steps 3 to 5 of R119: the status, and the state. -/
def suspendGroup (s : State) (x : Nat) : State × Nat :=
  let (s, ok) := writeBack (s.modGroup x (fun y => { y with gstate := if y.sched.tab.isSome then .pending else .dormant })) x
    (gstateCode .suspended)
  if !ok then (s, 4)
  else match s.group x with
    | none => (s, 0)
    | some y =>
      ((s.modCore y.id.core (fun c => c.dropAll x y.regs.pin true)).modGroup x (fun y => { y with
        gstate := .suspended, sched := { y.sched with tab := none, prio := .normal } }), 0)

/-! ### Generations (spec/12 R245, R258, R259) -/

/-- Whether an access of an address space translated under an older generation has not been performed. -/
def State.olderOut (s : State) (asid : Nat) (gen : W32) : Bool :=
  let old := fun (x : Store) => x.asid == asid && x.gen != gen
  s.groups.any (fun x => x.2.id.asid == asid && x.2.accs.any (fun a => a.parts.any (fun p => !p.done && p.gen != gen))) ||
    s.cores.any (fun c => c.2.view.wait.any old || c.2.late.any (fun y => old y.store) || c.2.copies.any (fun x => x.pa.isSome && (match s.group x.group with
      | some y => y.id.asid == asid
      | none => false))) ||
    s.dies.any (fun d => d.2.view.wait.any old)

/-- The generation of an address space rises; where it wraps, every cached translation of the space is cleared. -/
def raiseGen (s : State) (asid : Nat) : State :=
  let s := { s with gens := Tab.set s.gens asid (s.gen asid + 1) }
  if s.gen asid = 0 then
    { s with cores := s.cores.map (fun (c, x) => (c, { x with tlb := x.tlb.filter (fun e => e.asid != asid) })) }
  else s

/-- Every parked access of an address space is tried again; a fetch that waited takes its word no older than now (spec/02 R39). -/
def retryAll (s : State) (asid : Nat) : State :=
  (s.groups.filter (fun x => x.2.id.asid == asid)).foldl (fun s x =>
    let s := if x.2.log.valid && !x.2.log.failed then retryParked s x.1 else s
    let s := if x.2.fetchWait.isSome then refreshPath s x.2.id.core .device else s
    s.modGroup x.1 (fun y => { y with fetchWait := match y.fetchWait with
      | some f => if f.failed then some f else none
      | none => none })) s

/-- Every parked access whose faulting address lies in a page fails. -/
def failPage (s : State) (asid page : Nat) : State :=
  (s.groups.filter (fun x => x.2.id.asid == asid)).foldl (fun s x =>
    let y := x.2
    let s := if y.log.valid && !y.log.failed && y.log.faddr / 65536 == page then
        writeLog (pendTrap (s.modGroup x.1 (fun y => { y with log := { y.log with failed := true } })) x.1 {
          code := 16, faultpc := y.log.bundlepc, insn := y.log.insn, info0 := BitVec.ofNat 64 y.log.faddr
          info1 := BitVec.ofNat 64 y.log.cause }) x.1
      else s
    s.modGroup x.1 (fun y => { y with fetchWait := y.fetchWait.map (fun f =>
      if f.addr / 65536 = page then { f with failed := true } else f) })) s

/-- Whether the operands of `asgen` are refused with status 2. -/
def asgenBad (a b : Word) : Bool :=
  bits a 63 16 != 0 || bits b 15 2 != 0 || bits b 63 57 != 0 || (bits b 1 0 != 3 && bits b 56 16 != 0)

/-- The wait of a raise: the accesses in flight under the generation before it. -/
def asgenGate (a b : BitVec 5) (_ : Nat) (g : Group) (s : State) : Gate :=
  let v := g.sreg a.toNat
  let act := bits (g.sreg b.toNat) 1 0
  let asid := bits v 15 0
  if asgenBad v (g.sreg b.toNat) || (act != 0 && act != 2) then .pass
  else
    let s := if g.blocked = some .drain then s else raiseGen s asid
    if s.olderOut asid (s.gen asid) then .wait .drain s else .pass

/-- The action of `asgen`. -/
def asgenDo (g : Group) (s : State) (a b : Word) : State :=
  let act := bits b 1 0
  let asid := bits a 15 0
  let s := if (act = 0 ∨ act = 2) ∧ g.blocked ≠ some .drain then raiseGen s asid else s
  if act = 1 ∨ act = 2 then retryAll s asid
  else if act = 3 then failPage s asid (bits b 56 16)
  else s

/-! ### Regions (R391) -/

/-- A region opens at the next bundle. -/
def openRegion (k : Nat) (g : Group) (s : State) : State :=
  let s := s.modCore g.id.core (fun c => { c with
    sfu := c.sfu.map (fun e => if e.group = k then { e with keep := e.dest } else e) })
  s.modGroup k (fun y => { y with
    accs := y.accs.map (fun a => { a with keep := a.dest })
    region := some { entry := g.pc + 4, regs := y.regs, sys := y.sys, stouched := 0, vtouched := 0, ord := y.ord } })

/-! ### Watchdogs (R350) -/

/-- Whether the group's watchdog has run out. -/
def Group.barks (g : Group) : Bool := g.sys.wdlimit != 0 && g.sys.wdlimit.toNat ≤ g.sys.wdcount.toNat

/-- A watchdog trap at the word that waits, `w`. -/
def takeWatchdog (s : State) (k : Nat) (w : W32) : State :=
  match s.group k with
  | none => s
  | some g =>
    let runs := match g.gstate with | .active | .pending | .dormant => true | _ => false
    if !runs || g.alive == 0 || !g.barks || !s.atBoundary k g then s
    else
      let s := s.setGroup k (g.take (.put 0x1168 0))
      enterTrap s k { code := 25, info0 := g.sys.wdlimit } false g.bundlePc g.bundlePc w

/-! ### Fetch (spec/04 R66, spec/02 R39, spec/12 R257, R259) -/

inductive Fetched where
  | word (w : W32) (s : State)
  | trap (t : Trap)
  | wait (b : Block) (s : State)

/-- The word of a group at its pc. A fetch that completes with poison gives all ones, as a load does (spec/12 R262). -/
def fetch (s : State) (k : Nat) (g : Group) : Fetched :=
  let pc := g.pc.toNat
  let l := match s.grid g.id.grid with | some x => x.launch | none => {}
  if pc % 4 ≠ 0 ∨ pc < l.imgbase + 256 ∨ l.imgbase + 4 * l.imgwords ≤ pc then .trap { code := 4, info0 := g.pc }
  else match g.fetchWait.filter (fun f => f.addr == pc) with
  | some f => if f.failed then .trap { code := 4, info0 := g.pc, info1 := BitVec.ofNat 64 f.cause } else .wait .parked s
  | none =>
    match xlat s g.id.core g.id.asid pc .fetch (!g.id.supv) with
    | .ok p =>
      let s := noteXlat (s.modGroup k (fun g => { g with fetchWait := none })) g.id.core g.id.asid pc
      if !(s.badLines g.id.core p.pa 4).isEmpty then .wait .rebuild (mendLines s g.id.core p.pa 4)
      else
      (match poisonAt s p.pa 4 with
      | some c => .word 0xFFFFFFFF (noteRemote s k (g.ord, 768) c false pc g.bundlePc 0)
      | none => .word (BitVec.ofNat 32 (readLe (coreByte s g.id.core) p.pa 4)) s)
    | .error c =>
        let s := s.modGroup k (fun g => { g with fetchWait := some { addr := pc, cause := c } })
        .wait .parked (postEvent s { kind := 2, core := g.id.core, asid := g.id.asid, base := g.id.base, addr := pc, cause := c })

/-! ### Retirement (R398, R399) -/

/-- Whether a group with no alive lane has nothing outstanding. -/
def State.mayRetire (s : State) (k : Nat) (g : Group) : Bool :=
  g.alive &&& g.full == 0 && !g.log.valid && !g.loadsPending && !(s.core g.id.core).engineBusy k &&
    (match g.gstate with | .active | .pending | .dormant => true | _ => false) && s.atBoundary k g

/-- A team whose last group has gone retires: it leaves, or, where it is resident, it gives up what it holds. -/
def retireTeam (s : State) (t : Nat) : State :=
  match s.team t with
  | none => s
  | some x =>
    match s.grid x.grid with
    | none => s
    | some g =>
      if !(s.groupsOf t).isEmpty || !x.started || x.begun < g.launch.ordinary then s
      else if g.launch.resident then
        redecide (releaseAll (s.modTeam t (fun x => { x with hive := tabulate 16 (fun i => Config.lostHive (16 * s.fresh + i)) })) t).tickFresh
          x.core
      else clearTeam (settleAll (s.modTeam t (fun x => { x with status := .ended })) t) t

/-- The context of a group that retires: every register dead and none pinned; its header and the rest are written, since memory
holds it from now on (R95), the trap record where it lies in the slot; whether that completed. -/
def spendContext (s : State) (k : Nat) (g : Group) : State × Bool :=
  let spill := if g.recBase = g.id.base + 0x400 then spillHeader else spillBlocks
  match spill s g.spent (gstateCode .dormant) with
  | .ok s => (s, true)
  | .error e => (ctxFault s k (cfCause e.2 2) e.1 .header, false)

/-- Group `k` retires: it leaves every barrier, and its team with its last group; after each release waiting requests are decided
again (spec/06 R141). -/
def retireGroup (s : State) (k : Nat) (g : Group) : State :=
  let (s, ok) := spendContext (closeRegion s k) k g
  if !ok then s
  else
    let s := match g.id.serves with
      | some x => killGroup s x
      | none => s
    let s := removeGroup s k
    let s := s.modCore g.id.core (fun c => { c.acqAt 0 with gone := c.gone ++ [(g.id.grid, g.id.base)] })
    let s := redecide s g.id.core
    retireTeam (settleAll s g.id.team) g.id.team

/-! ### Events to the supervisor (R382) -/

/-- The four dwords of an event at index `tail` of a ring of `2^log`. -/
def SysEvent.dwords (e : SysEvent) (tail log : Nat) : List Nat :=
  [e.kind + (if tail / 2 ^ log % 2 = 0 then 2 ^ 8 else 0) + e.core % 2 ^ 10 * 2 ^ 16 + e.asid % 2 ^ 16 * 2 ^ 48, e.base % 2 ^ 57,
   e.addr % 2 ^ 57, e.cause]

/-- The oldest event is posted, where the ring has room. -/
def postSysEvent (s : State) : State :=
  let log := bits s.sup.sysevq 4 0
  let tail := s.sup.sysTail.toNat
  match s.sysev with
  | [] => s
  | e :: rest =>
    if log < 4 ∨ 12 < log ∨ ahead s.sup.sysHead.toNat tail = 2 ^ log then s
    else
      let a := bits s.sup.sysevq 51 12 * 4096 + 32 * (tail % 2 ^ log)
      if !inHeap a 32 || (storePoison s a 32).isSome then s
      else
        let s := writeHome s a ((e.dwords tail log).flatMap (leBytes 8))
        { s with sysev := rest, sup := { s.sup with sysTail := s.sup.sysTail + 1 } }

/-! ### The instructions and events -/

/-- R387: D := a dword of the context that the handler serves. -/
def execCtxrd (d a b : BitVec 5) : State → Host.Outcome State Fault Refusal :=
  issue (encCtxrd d a b) (fun g => needS g [(sr a, false), (sr b, false)] (some (sr d)) false false) (ctxGate a b none)
    (fun k g s => { s := match s.serving g a with
      | some (x, y) =>
        let off := (g.sreg b.toNat).toNat
        let s := match regAt y.id.foot off with
          | some (.v n, l) => s.modCore y.id.core (fun c => c.readRow x n (l / 192))
          | _ => s
        s.modGroup k (fun g' => g'.setS d.toNat (BitVec.ofNat 64 (s.ctxDword y off)))
      | none => s })

/-- R387: a dword of that context := D. -/
def execCtxwr (d a b : BitVec 5) : State → Host.Outcome State Fault Refusal :=
  issue (encCtxwr d a b) (fun g => needS g [(sr a, false), (sr b, false), (sr d, false)] none false false) (ctxGate a b (some d))
    (fun _ g s => { s := match s.serving g a with
      | some (x, y) => (match ctxWrite s x y (g.sreg b.toNat).toNat (g.sreg d.toNat) with
        | .ok s => s
        | .error _ => s)
      | none => s })

/-- R388: the group that the handler serves resumes or retires, and the handler retires. -/
def execTret (a b : BitVec 5) : State → Host.Outcome State Fault Refusal :=
  issue (encTret a b) (fun g => needS g [(sr a, false), (sr b, false)] none false false) (tretGate a b)
    (fun k g s => { s := match s.serving g a with
      | some (x, _) =>
        let s := if g.sreg b.toNat = 0 then finishLogged (unsuspend s x) x else killGroup s x
        dropPending (s.modGroup k (fun g' => { g' with alive := 0, id := { g'.id with serves := none } })) k g.id.core allRegs
      | none => s })

/-- R390: the failed accesses of a group are made again, or its grid is ended. -/
def execSret (d a b : BitVec 5) : State → Host.Outcome State Fault Refusal :=
  issue (encSret d a b) (fun g => needS g [(sr a, false), (sr b, false)] (some (sr d)) false false) noGate
    (fun k g s =>
      let b := g.sreg b.toNat
      let out := fun (s : State) (v : Nat) => s.modGroup k (fun g' => g'.setS d.toNat (BitVec.ofNat 64 v))
      if b &&& 0xFFFF0000FFFCFC00 != 0 || 1 < bits b 17 16 then { s := out s 2 }
      else match s.inSlot (bits b 9 0) (g.sreg a.toNat).toNat (fun y => y.id.asid == bits b 47 32) with
        | none => { s := out s 1 }
        | some (x, y) =>
          if bits b 17 16 = 0 then
            if y.gstate = .ctxFault then { s := out (retryHeld s x) 0 } else { s := out s 1 }
          else
            { s := out s 0
              last := fun s => endGrid s y.id.grid 17 (match s.team y.id.team with | some t => t.index | none => 0) })

/-- R391: after the group's scrolls, an open region closes and a new one opens at the next bundle. -/
def execIdem : State → Host.Outcome State Fault Refusal :=
  issue encIdem (fun _ => { closes := true })
    (fun k g s =>
      let c := s.core g.id.core
      if c.scrollOf k || c.hiveW.any (fun w => w.group == k && w.add.isSome) then .wait .earlier s else .pass)
    (fun k g s => { s := openRegion k g s })

/-- R391: an open region closes. -/
def execIdemEnd : State → Host.Outcome State Fault Refusal :=
  issue encIdemEnd (fun _ => { closes := true }) noGate (fun _ _ s => { s := s })

/-- spec/05 R119: a group of this core is suspended, with its exact context in memory; D receives the status. -/
def execGrpsusp (d a : BitVec 5) : State → Host.Outcome State Fault Refusal :=
  issue (encGrpsusp d a) (fun g => { needS g [(sr a, false)] (some (sr d)) false false with closes := true })
    (fun k g s => match s.suspTarget k g a with
      | .error _ => .pass
      | .ok (x, y) =>
        let s' := if y.stopping then s
          else (closeRegion (stopGroup s x) x).modGroup x (fun y => { y with gstate := .suspended, inMem := false })
        if s.producing x y then .wait .drain s' else .pass)
    (fun k g s =>
      let r := match s.suspTarget k g a with
        | .error n => (s, n)
        | .ok (x, _) => suspendGroup (closeRegion (stopGroup s x) x) x
      { s := r.1.modGroup k (fun g' => g'.setS d.toNat (BitVec.ofNat 64 r.2)) })

/-- spec/05 R120: a suspended group of this core takes its context from memory and is dormant; D receives the status. -/
def execGrpres (d a : BitVec 5) : State → Host.Outcome State Fault Refusal :=
  issue (encGrpres d a) (fun g => needS g [(sr a, false)] (some (sr d)) false false) noGate
    (fun k g s =>
      let r := match s.inSlot g.id.core (g.sreg a.toNat).toNat (fun y => y.gstate == .suspended && y.inMem) with
        | none => (s, 1)
        | some (x, _) => resumeGroup s x .resume
      { s := r.1.modGroup k (fun g' => g'.setS d.toNat (BitVec.ofNat 64 r.2)) })

/-- spec/12 R245: raises a generation, retries or fails parked accesses; D receives the status. -/
def execAsgen (d a b : BitVec 5) : State → Host.Outcome State Fault Refusal :=
  issue (encAsgen d a b) (fun g => { needS g [(sr a, false), (sr b, false)] (some (sr d)) false false with closes := true }) (asgenGate a b)
    (fun k g s =>
      let bad := asgenBad (g.sreg a.toNat) (g.sreg b.toNat)
      let s := if bad then s else asgenDo g s (g.sreg a.toNat) (g.sreg b.toNat)
      { s := s.modGroup k (fun g' => g'.setS d.toNat (if bad then 2 else 0)) })

/-- R385 step 3: the handler of the team's first waiting trap starts, where the context pool has a free slot. -/
def execHandlerStart (team : Nat) : State → Host.Outcome State Fault Refusal :=
  fun s =>
    match s.team team with
    | none => .next s
    | some t =>
      match t.handlers, s.grid t.grid with
      | x :: rest, some gr =>
        (match s.group x with
        | none => .next (s.modTeam team (fun t => { t with handlers := rest }))
        | some y =>
          if y.gstate != .handler || t.status != .running then .next s
          else match startGroup s team {
              num := t.nextNum, role := y.id.role, entry := gr.launch.entrytrap, serves := some x
              args := some (BitVec.ofNat 64 y.id.base, BitVec.ofNat 64 y.trap.cause) } with
            | none => .next s
            | some s => .next (s.modTeam team (fun t => { t with handlers := rest, nextNum := t.nextNum + 1 })))
      | _, _ => .next s

/-- R380: at a bundle boundary the pending trap of lowest code is taken. -/
def execDeferredTrap (group : Nat) : State → Host.Outcome State Fault Refusal :=
  fun s => .next (takeDeferred s group)

/-- spec/16 R350. -/
def execWatchdogExpiry (group : Nat) : State → Host.Outcome State Fault Refusal :=
  fun s =>
    match s.group group with
    | none => .next s
    | some g => .next (takeWatchdog s group (match fetch s group g with | .word w _ => w | _ => 0))

/-- R382. -/
def execSystemEventPost : State → Host.Outcome State Fault Refusal :=
  fun s => .next (postSysEvent s)

/-- R398, R399; a handler that retires without `tret` retires the group it serves (R388). -/
def execGroupRetire (group : Nat) : State → Host.Outcome State Fault Refusal :=
  fun s =>
    match s.group group with
    | none => .next s
    | some g => .next (
        if !s.mayRetire group g then s
        else if (s.core g.id.core).acqPast 0 then elapse s g.id.core 1
        else retireGroup s group g)

end Sys2Proof.Machine
end

