-- ==== Sys2Proof/Machine/Sched.lean ====
section
/-!
DEFINITION. Residency and the active set (spec/05 R113 to R115, spec/06 R123 to R127), fills (spec/05 R101), special-function
results (spec/09 R201), bank power states (spec/05 R109, R110).
-/

namespace Sys2Proof.Machine

/-- The ready dormant group that became ready first (R115). -/
def State.nextDormant (s : State) (core : Nat) : Option (Nat × Group) :=
  firstBy (fun a b => a.2.sched.ready < b.2.sched.ready) (s.readyIn core .dormant)

/-! ### Activation and demotion (R114, R115) -/

/-- A dormant group takes table entry `i`; its parked access is tried again first (spec/12 R260). -/
def activate (s : State) (k i : Nat) : State :=
  let (s, ok) := activateContext s k
  if !ok then s
  else
    let s := s.modGroup k (fun g => { g with
      gstate := .pending, inMem := false, sched := { g.sched with tab := some i, pend := (s.core g.id.core).clk } })
    match s.group k with
    | none => s
    | some g => if g.log.valid && !g.log.failed then retryParked s k else s

/-- Whether a resident group may be demoted, once its `hadd` has landed (spec/07 R153): one in GSTATE 3 that would be pending is blocked on its context fault. -/
def State.demotable (s : State) (k : Nat) (g : Group) : Bool :=
  g.sched.tab.isSome && s.teamRuns g && !(s.core g.id.core).hiveW.any (fun w => w.group == k && w.add.isSome) && (g.gstate == .ctxFault && g.before == .pending || g.gstate == .pending &&
    (g.sched.yielded || match g.blocked with
      | some b => s.stillBlocked k g b && (match b with
        | .barrier _ | .recv _ | .send | .answer | .ring _ _ _ | .tagAny _ | .tagAll _ | .served => true
        | _ => false)
      | none => false))

/-- The residency that a demotion leaves: dormant, or dormant once a context fault is resolved (R113). -/
def Group.demoted (g : Group) (clk : Nat) : Group :=
  { g with
    gstate := if g.gstate = .ctxFault then .ctxFault else .dormant
    before := .dormant
    sched := { g.sched with tab := none, prio := .normal, yielded := false, ready := clk } }

/-- Group `k` is demoted: its context goes to memory, and it is dormant.  Where the write-back fails the group stays pending,
from now on, in GSTATE 3. -/
def demote (s : State) (k : Nat) : State :=
  match s.group k with
  | none => s
  | some g =>
    let clk := (s.core g.id.core).clk
    let gs := if g.gstate = .ctxFault then GState.ctxFault else .dormant
    let (s, ok) := writeBack ((closeRegion s k).modGroup k Group.toBoundary) k (gstateCode gs)
    if ok then s.modGroup k (fun g => g.demoted clk) else s.modGroup k (fun g => { g with sched := { g.sched with pend := clk } })

/-- The pending group that is demoted: the one pending longest, then the lower table entry. -/
def State.nextDemoted (s : State) (core : Nat) : Option (Nat × Group) :=
  firstBy (fun a b => a.2.sched.pend < b.2.sched.pend ||
      (a.2.sched.pend == b.2.sched.pend && a.2.sched.tab.getD 64 < b.2.sched.tab.getD 64))
    (s.groups.filter (fun x => x.2.id.core == core && s.demotable x.1 x.2))

/-! ### Swaps (R124, R125) -/

/-- A group of the active set that waits on a long-latency dependence. -/
def State.stalled (s : State) (k : Nat) : Bool :=
  match s.group k with
  | none => false
  | some g => g.longWait && (match g.blocked with | some b => s.stillBlocked k g b | none => false)

/-- The position that a swap fills: a free one, else that of a stalled group. -/
def State.swapPlace (s : State) (core : Nat) : Option (Nat × Option Nat) :=
  let l := (s.core core).active
  match (List.range 8).find? (fun i => l.getD i none == none) with
  | some i => some (i, none)
  | none => ((List.range 8).find? (fun i => match l.getD i none with
      | some k => s.stalled k
      | none => false)).map (fun i => (i, l.getD i none))

/-- A swap: a ready pending group enters a free position, or that of a stalled group, which is pending from now on. -/
def swap (s : State) (core : Nat) : State :=
  match s.nextPending core, s.swapPlace core with
  | some (k, _), some (i, none) => enterActive s core i k
  | some (k, _), some (i, some x) => swapOut s core i x k (fun g => g)
  | _, _ => s

/-- While a position of a core's active set is free and a ready pending group exists, the group that R125 chooses enters it at
once (R124); at most `n` groups enter. -/
def fillActive (s : State) (core : Nat) : Nat → State
  | 0 => s
  | n + 1 =>
    match (List.range 8).find? (fun i => (s.core core).active.getD i none == none), s.nextPending core with
    | some i, some (k, _) => fillActive (enterActive s core i k) core n
    | _, _ => s

/-- Every core's free positions are filled. -/
def fillAll (s : State) : State := (s.cores.map (·.1)).foldl (fun s c => fillActive s c 8) s

/-- A group stamped with the clock at which it became ready. -/
def Group.stampReady (g : Group) (clk : Nat) : Group := { g with sched := { g.sched with ready := clk } }

/-- A group that was ready before the step. -/
def State.wasReady (old : State) (k : Nat) : Bool :=
  match old.group k with
  | some o => old.readyGroup k o
  | none => true

/-- Groups that have become ready are stamped with their core's clock. -/
def noteReady (old s : State) : State :=
  { s with groups := s.groups.map (fun (x : Nat × Group) =>
      (x.1, if s.readyGroup x.1 x.2 && !old.wasReady x.1 then x.2.stampReady (s.core x.2.id.core).clk else x.2)) }

/-! ### Banks (R109) -/

/-- Whether a bank may rest: it is full, and what lives in it belongs to groups, or teams, of which none is active. -/
def State.mayRest (s : State) (core bank : Nat) (plane : Bool) : Bool :=
  let c := s.core core
  let active := fun (p : Group → Bool) => s.groups.any (fun x => x.2.gstate == .active && p x.2)
  let rests := fun (k : Nat) => match s.group k with
    | some g => g.gstate == .pending || g.gstate == .dormant
    | none => true
  if plane then
    c.pstate bank == .full && c.copies.isEmpty && c.mq.isEmpty && c.scrolls.isEmpty &&
      c.plane.all (fun w => planeBank w.1 != bank || !w.2.live || !active (fun g => g.id.team == w.2.own))
  else
    c.lstate bank == .full && c.rows.all (fun r => laneBank r.1 != bank || r.2.vacant || rests r.2.group)

/-- A bank of core `core` is off. -/
def State.offSite (s : State) (core : Nat) : ErrSite → Bool
  | .lane c x row _ => c == core && (s.core core).lstate (laneBank (64 * x + row)) == .off
  | .plane c key => c == core && (s.core core).pstate (planeBank key) == .off
  | _ => false

/-- Banks of a core that hold nothing live any more go off, with the errors in them (R109, spec/23 R408). -/
def settleBanks (s : State) (core : Nat) : State :=
  let s := s.modCore core (fun c => c.sleepL.sleepP)
  if s.errs.isEmpty then s else s.mend (s.offSite core)

/-- The banks of every core on which a clock has passed since `old`: frees and allocations of one clock are taken together
(R109). -/
def settleClocks (old s : State) : State :=
  ((s.cores.map (·.1)).filter (fun c => (old.core c).clk != (s.core c).clk)).foldl settleBanks s

/-! ### The events -/

/-- R115. -/
def execGroupActivation (core : Nat) : State → Host.Outcome State Fault Refusal :=
  fun s =>
    match s.freeTab core, s.nextDormant core with
    | some i, some (k, _) => .next (activate s k i)
    | _, _ => .next s

/-- R114: the table is full and a dormant group is ready. -/
def execDemotion (core : Nat) : State → Host.Outcome State Fault Refusal :=
  fun s =>
    match s.freeTab core, s.nextDormant core, s.nextDemoted core with
    | none, some _, some (k, _) => .next (demote s k)
    | _, _, _ => .next s

/-- R124, R125. -/
def execSchedulerSwap (core : Nat) : State → Host.Outcome State Fault Refusal :=
  fun s => .next (swap s core)

/-- R101: a register that a group waits for is filled. -/
def execRegisterFill (group : Nat) : State → Host.Outcome State Fault Refusal :=
  fun s =>
    match s.group group with
    | none => .next s
    | some g =>
      match g.blocked, g.gstate with
      | some (.fill rs keep), .active => .next ((fillMissing s group rs keep).tickFresh)
      | some (.fill rs keep), .pending => .next ((fillMissing s group rs keep).tickFresh)
      | _, _ => .next s

/-- spec/09 R201: an entry's results retire into its owner, and it leaves the queue. -/
def execSfuResult (core idx : Nat) : State → Host.Outcome State Fault Refusal :=
  fun s =>
    match (s.core core).sfu[idx]? with
    | none => .next s
    | some e =>
      if (match e.dest, s.group e.group with | some n, some g => s.writeHeld e.group core g.id.foot (.v n) (bit e.mask) | _, _ => false) then .next s
      else
      let s := s.modCore core (fun c => { c with sfu := dropAt c.sfu idx })
      let ls := lanesOf 768 e.mask
      let s := match e.keep with
        | some n => keepFull (ls.foldl (fun s l => keepLane s e.group (some (.v n)) l (e.vals.getD l 0)) s) e.group (some (.v n))
        | none => s
      match e.dest with
      | none => .next s
      | some n =>
        let n0 := s.heldOf e.group
        let s := ls.foldl (fun s l => retireLane s e.group (.v n) l (e.vals.getD l 0)) s
        .next (retireFull (resultFlags s e.group n0 e.flags) e.group (.v n))

/-- R110. -/
def execBankWake (core : Nat) (plane : Bool) (bank : Nat) : State → Host.Outcome State Fault Refusal :=
  fun s => .next (s.modCore core (fun c =>
    let wakes := fun (b : Bank) => b == .waking || b == .rousing
    if plane then (if wakes (c.pstate bank) then { c with pbank := Tab.set c.pbank bank .full } else c)
    else (if wakes (c.lstate bank) then { c with lbank := Tab.set c.lbank bank .full } else c)))

/-- R109. -/
def execBankRetention (core : Nat) (plane : Bool) (bank : Nat) : State → Host.Outcome State Fault Refusal :=
  fun s =>
    if !s.mayRest core bank plane then .next s
    else .next (s.modCore core (fun c =>
      if plane then { c with pbank := Tab.set c.pbank bank .retention } else { c with lbank := Tab.set c.lbank bank .retention }))

end Sys2Proof.Machine
end

