-- ==== Sys2Proof/Machine/Dispatch.lean ====
section
/-!
DEFINITION. The dispatch: one arm for each constructor of Instr, each a direct call of that instruction's meaning.
-/

namespace Sys2Proof.Machine

def exec (i : Instr) (s : State) : Host.Outcome State Fault Refusal :=
  match i with
  | .add d a b l m e x => Sys2Proof.Machine.execAdd d a b l m e x s
  | .sub d a b l m e x => Sys2Proof.Machine.execSub d a b l m e x s
  | .and d a b l m e x => Sys2Proof.Machine.execAnd d a b l m e x s
  | .or d a b l m e x => Sys2Proof.Machine.execOr d a b l m e x s
  | .xor d a b l m e x => Sys2Proof.Machine.execXor d a b l m e x s
  | .andn d a b l m e x => Sys2Proof.Machine.execAndn d a b l m e x s
  | .shl d a b l m e x => Sys2Proof.Machine.execShl d a b l m e x s
  | .shrI d a b l m e x => Sys2Proof.Machine.execShrI d a b l m e x s
  | .shrN d a b l m e x => Sys2Proof.Machine.execShrN d a b l m e x s
  | .rotl d a b l m e x => Sys2Proof.Machine.execRotl d a b l m e x s
  | .rotr d a b l m e x => Sys2Proof.Machine.execRotr d a b l m e x s
  | .mul d a b l m e x => Sys2Proof.Machine.execMul d a b l m e x s
  | .mulhI d a b l m e x => Sys2Proof.Machine.execMulhI d a b l m e x s
  | .mulhN d a b l m e x => Sys2Proof.Machine.execMulhN d a b l m e x s
  | .minI d a b l m e x => Sys2Proof.Machine.execMinI d a b l m e x s
  | .minN d a b l m e x => Sys2Proof.Machine.execMinN d a b l m e x s
  | .maxI d a b l m e x => Sys2Proof.Machine.execMaxI d a b l m e x s
  | .maxN d a b l m e x => Sys2Proof.Machine.execMaxN d a b l m e x s
  | .divI d a b l m e x => Sys2Proof.Machine.execDivI d a b l m e x s
  | .divN d a b l m e x => Sys2Proof.Machine.execDivN d a b l m e x s
  | .remI d a b l m e x => Sys2Proof.Machine.execRemI d a b l m e x s
  | .remN d a b l m e x => Sys2Proof.Machine.execRemN d a b l m e x s
  | .clz d a l e x => Sys2Proof.Machine.execClz d a l e x s
  | .ctz d a l e x => Sys2Proof.Machine.execCtz d a l e x s
  | .popc d a l e x => Sys2Proof.Machine.execPopc d a l e x s
  | .brev d a l e x => Sys2Proof.Machine.execBrev d a l e x s
  | .bswap d a l e x => Sys2Proof.Machine.execBswap d a l e x s
  | .abs d a l e x => Sys2Proof.Machine.execAbs d a l e x s
  | .addsI d a b l m e x => Sys2Proof.Machine.execAddsI d a b l m e x s
  | .subsI d a b l m e x => Sys2Proof.Machine.execSubsI d a b l m e x s
  | .seq d a b l m e x => Sys2Proof.Machine.execSeq d a b l m e x s
  | .sne d a b l m e x => Sys2Proof.Machine.execSne d a b l m e x s
  | .sltI d a b l m e x => Sys2Proof.Machine.execSltI d a b l m e x s
  | .sltN d a b l m e x => Sys2Proof.Machine.execSltN d a b l m e x s
  | .sleI d a b l m e x => Sys2Proof.Machine.execSleI d a b l m e x s
  | .sleN d a b l m e x => Sys2Proof.Machine.execSleN d a b l m e x s
  | .cmovnz d a b l m e x => Sys2Proof.Machine.execCmovnz d a b l m e x s
  | .cmovz d a b l m e x => Sys2Proof.Machine.execCmovz d a b l m e x s
  | .addi d a l imm => Sys2Proof.Machine.execAddi d a l imm s
  | .andi d a l imm => Sys2Proof.Machine.execAndi d a l imm s
  | .ori d a l imm => Sys2Proof.Machine.execOri d a l imm s
  | .xori d a l imm => Sys2Proof.Machine.execXori d a l imm s
  | .shli d a l imm => Sys2Proof.Machine.execShli d a l imm s
  | .shriI d a l imm => Sys2Proof.Machine.execShriI d a l imm s
  | .shriN d a l imm => Sys2Proof.Machine.execShriN d a l imm s
  | .sltiI d a l imm => Sys2Proof.Machine.execSltiI d a l imm s
  | .sltiN d a l imm => Sys2Proof.Machine.execSltiN d a l imm s
  | .seqi d a l imm => Sys2Proof.Machine.execSeqi d a l imm s
  | .muli d a l imm => Sys2Proof.Machine.execMuli d a l imm s
  | .rotli d a l imm => Sys2Proof.Machine.execRotli d a l imm s
  | .bfxI d a l n p => Sys2Proof.Machine.execBfxI d a l n p s
  | .bfxN d a l n p => Sys2Proof.Machine.execBfxN d a l n p s
  | .bfi d a l n p => Sys2Proof.Machine.execBfi d a l n p s
  | .lea2 d a b l m e x => Sys2Proof.Machine.execLea2 d a b l m e x s
  | .lea4 d a b l m e x => Sys2Proof.Machine.execLea4 d a b l m e x s
  | .lea8 d a b l m e x => Sys2Proof.Machine.execLea8 d a b l m e x s
  | .lea16 d a b l m e x => Sys2Proof.Machine.execLea16 d a b l m e x s
  | .mov d a l e => Sys2Proof.Machine.execMov d a l e s
  | .srd d imm => Sys2Proof.Machine.execSrd d imm s
  | .swr a l imm => Sys2Proof.Machine.execSwr a l imm s
  | .hrd d h => Sys2Proof.Machine.execHrd d h s
  | .hwr a l h => Sys2Proof.Machine.execHwr a l h s
  | .hadd d a l h => Sys2Proof.Machine.execHadd d a l h s
  | .srdv d => Sys2Proof.Machine.execSrdv d s
  | .fadd r d a b l m e => Sys2Proof.Machine.execFadd r d a b l m e s
  | .fsub r d a b l m e => Sys2Proof.Machine.execFsub r d a b l m e s
  | .fmul r d a b l m e => Sys2Proof.Machine.execFmul r d a b l m e s
  | .fdiv r d a b l m e => Sys2Proof.Machine.execFdiv r d a b l m e s
  | .ffma r d a b l m e => Sys2Proof.Machine.execFfma r d a b l m e s
  | .fsqrt r d a l e => Sys2Proof.Machine.execFsqrt r d a l e s
  | .fcvtF32I64 r d a l e => Sys2Proof.Machine.execFcvtF32I64 r d a l e s
  | .fcvtI64F32 r d a l e => Sys2Proof.Machine.execFcvtI64F32 r d a l e s
  | .br o => Sys2Proof.Machine.execBr o s
  | .bz r o => Sys2Proof.Machine.execBz r o s
  | .bnz r o => Sys2Proof.Machine.execBnz r o s
  | .blt r o => Sys2Proof.Machine.execBlt r o s
  | .bge r o => Sys2Proof.Machine.execBge r o s
  | .bany r o => Sys2Proof.Machine.execBany r o s
  | .ball r o => Sys2Proof.Machine.execBall r o s
  | .bnone r o => Sys2Proof.Machine.execBnone r o s
  | .call d o => Sys2Proof.Machine.execCall d o s
  | .callr d a l e => Sys2Proof.Machine.execCallr d a l e s
  | .ret a l e => Sys2Proof.Machine.execRet a l e s
  | .exit q => Sys2Proof.Machine.execExit q s
  | .yield => Sys2Proof.Machine.execYield s
  | .enq d a b l m e => Sys2Proof.Machine.execEnq d a b l m e s
  | .trap imm => Sys2Proof.Machine.execTrap imm s
  | .pand d a b q => Sys2Proof.Machine.execPand d a b q s
  | .por d a b q => Sys2Proof.Machine.execPor d a b q s
  | .pxor d a b q => Sys2Proof.Machine.execPxor d a b q s
  | .pandn d a b q => Sys2Proof.Machine.execPandn d a b q s
  | .pnot d a q => Sys2Proof.Machine.execPnot d a q s
  | .pmov d a q => Sys2Proof.Machine.execPmov d a q s
  | .pset d a q l e => Sys2Proof.Machine.execPset d a q l e s
  | .pfirst d a q => Sys2Proof.Machine.execPfirst d a q s
  | .vadd w d a b q l m e x => Sys2Proof.Machine.execVadd w d a b q l m e x s
  | .vsub w d a b q l m e x => Sys2Proof.Machine.execVsub w d a b q l m e x s
  | .vmul w d a b q l m e x => Sys2Proof.Machine.execVmul w d a b q l m e x s
  | .vminI w d a b q l m e => Sys2Proof.Machine.execVminI w d a b q l m e s
  | .vminN w d a b q l m e => Sys2Proof.Machine.execVminN w d a b q l m e s
  | .vmaxI w d a b q l m e => Sys2Proof.Machine.execVmaxI w d a b q l m e s
  | .vmaxN w d a b q l m e => Sys2Proof.Machine.execVmaxN w d a b q l m e s
  | .vabsdI w d a b q l m e => Sys2Proof.Machine.execVabsdI w d a b q l m e s
  | .vabsdN w d a b q l m e => Sys2Proof.Machine.execVabsdN w d a b q l m e s
  | .vavgI w d a b q l m e => Sys2Proof.Machine.execVavgI w d a b q l m e s
  | .vavgN w d a b q l m e => Sys2Proof.Machine.execVavgN w d a b q l m e s
  | .vshl w d a b q l m e x => Sys2Proof.Machine.execVshl w d a b q l m e x s
  | .vshrI w d a b q l m e => Sys2Proof.Machine.execVshrI w d a b q l m e s
  | .vshrN w d a b q l m e => Sys2Proof.Machine.execVshrN w d a b q l m e s
  | .vneg w d a q l e x => Sys2Proof.Machine.execVneg w d a q l e x s
  | .vabs w d a q l e x => Sys2Proof.Machine.execVabs w d a q l e x s
  | .vaddI64 d a b q l m e x => Sys2Proof.Machine.execVaddI64 d a b q l m e x s
  | .vsubI64 d a b q l m e x => Sys2Proof.Machine.execVsubI64 d a b q l m e x s
  | .vmulI64 d a b q l m e x => Sys2Proof.Machine.execVmulI64 d a b q l m e x s
  | .vminI64 d a b q l m e => Sys2Proof.Machine.execVminI64 d a b q l m e s
  | .vminN64 d a b q l m e => Sys2Proof.Machine.execVminN64 d a b q l m e s
  | .vmaxI64 d a b q l m e => Sys2Proof.Machine.execVmaxI64 d a b q l m e s
  | .vmaxN64 d a b q l m e => Sys2Proof.Machine.execVmaxN64 d a b q l m e s
  | .vshlI64 d a b q l m e x => Sys2Proof.Machine.execVshlI64 d a b q l m e x s
  | .vshrI64 d a b q l m e => Sys2Proof.Machine.execVshrI64 d a b q l m e s
  | .vshrN64 d a b q l m e => Sys2Proof.Machine.execVshrN64 d a b q l m e s
  | .vand d a b q l m e => Sys2Proof.Machine.execVand d a b q l m e s
  | .vor d a b q l m e => Sys2Proof.Machine.execVor d a b q l m e s
  | .vxor d a b q l m e => Sys2Proof.Machine.execVxor d a b q l m e s
  | .vandn d a b q l m e => Sys2Proof.Machine.execVandn d a b q l m e s
  | .vnot d a q l e => Sys2Proof.Machine.execVnot d a q l e s
  | .vpopc d a q l e => Sys2Proof.Machine.execVpopc d a q l e s
  | .vaddi w d a q l imm => Sys2Proof.Machine.execVaddi w d a q l imm s
  | .vshli w d a q l imm => Sys2Proof.Machine.execVshli w d a q l imm s
  | .vshriI w d a q l imm => Sys2Proof.Machine.execVshriI w d a q l imm s
  | .vshriN w d a q l imm => Sys2Proof.Machine.execVshriN w d a q l imm s
  | .vceq w d a b q l m e x => Sys2Proof.Machine.execVceq w d a b q l m e x s
  | .vcne w d a b q l m e x => Sys2Proof.Machine.execVcne w d a b q l m e x s
  | .vclt w d a b q l m e x => Sys2Proof.Machine.execVclt w d a b q l m e x s
  | .vcle w d a b q l m e x => Sys2Proof.Machine.execVcle w d a b q l m e x s
  | .vdot4I8 d a b q l m e x => Sys2Proof.Machine.execVdot4I8 d a b q l m e x s
  | .vdot4N8 d a b q l m e x => Sys2Proof.Machine.execVdot4N8 d a b q l m e x s
  | .vdot2I16 d a b q l m e x => Sys2Proof.Machine.execVdot2I16 d a b q l m e x s
  | .vdot2N16 d a b q l m e x => Sys2Proof.Machine.execVdot2N16 d a b q l m e x s
  | .vmadI16 d a b q l m e x => Sys2Proof.Machine.execVmadI16 d a b q l m e x s
  | .vmadI32 d a b q l m e x => Sys2Proof.Machine.execVmadI32 d a b q l m e x s
  | .vmadI64 d a b q l m e x => Sys2Proof.Machine.execVmadI64 d a b q l m e x s
  | .vaddminI16 d a b q l m e x => Sys2Proof.Machine.execVaddminI16 d a b q l m e x s
  | .vaddmaxI16 d a b q l m e x => Sys2Proof.Machine.execVaddmaxI16 d a b q l m e x s
  | .vaddminI32 d a b q l m e x => Sys2Proof.Machine.execVaddminI32 d a b q l m e x s
  | .vaddmaxI32 d a b q l m e x => Sys2Proof.Machine.execVaddmaxI32 d a b q l m e x s
  | .vaddminF32 d a b q l m e => Sys2Proof.Machine.execVaddminF32 d a b q l m e s
  | .vaddmaxF32 d a b q l m e => Sys2Proof.Machine.execVaddmaxF32 d a b q l m e s
  | .vsel d a b q l m e => Sys2Proof.Machine.execVsel d a b q l m e s
  | .vaddF32 r d a b q l m e => Sys2Proof.Machine.execVaddF32 r d a b q l m e s
  | .vsubF32 r d a b q l m e => Sys2Proof.Machine.execVsubF32 r d a b q l m e s
  | .vmulF32 r d a b q l m e => Sys2Proof.Machine.execVmulF32 r d a b q l m e s
  | .vdivF32 r d a b q l m e => Sys2Proof.Machine.execVdivF32 r d a b q l m e s
  | .vsqrtF32 r d a q l e => Sys2Proof.Machine.execVsqrtF32 r d a q l e s
  | .vminF32 d a b q l m e => Sys2Proof.Machine.execVminF32 d a b q l m e s
  | .vmaxF32 d a b q l m e => Sys2Proof.Machine.execVmaxF32 d a b q l m e s
  | .vfcltF32 d a b q l m e => Sys2Proof.Machine.execVfcltF32 d a b q l m e s
  | .vfcleF32 d a b q l m e => Sys2Proof.Machine.execVfcleF32 d a b q l m e s
  | .vfceqF32 d a b q l m e => Sys2Proof.Machine.execVfceqF32 d a b q l m e s
  | .vfmaF32 r d a b q l m e x => Sys2Proof.Machine.execVfmaF32 r d a b q l m e x s
  | .vfmsF32 r d a b q l m e x => Sys2Proof.Machine.execVfmsF32 r d a b q l m e x s
  | .vfmaw r d a b q l m e x => Sys2Proof.Machine.execVfmaw r d a b q l m e x s
  | .vaddHalf t r d a b q l m e => Sys2Proof.Machine.execVaddHalf t r d a b q l m e s
  | .vsubHalf t r d a b q l m e => Sys2Proof.Machine.execVsubHalf t r d a b q l m e s
  | .vmulHalf t r d a b q l m e => Sys2Proof.Machine.execVmulHalf t r d a b q l m e s
  | .vfmaHalf t r d a b q l m e => Sys2Proof.Machine.execVfmaHalf t r d a b q l m e s
  | .vfnmaHalf t r d a b q l m e => Sys2Proof.Machine.execVfnmaHalf t r d a b q l m e s
  | .vminHalf t d a b q l m e => Sys2Proof.Machine.execVminHalf t d a b q l m e s
  | .vmaxHalf t d a b q l m e => Sys2Proof.Machine.execVmaxHalf t d a b q l m e s
  | .vfcltHalf t d a b q l m e => Sys2Proof.Machine.execVfcltHalf t d a b q l m e s
  | .vfcleHalf t d a b q l m e => Sys2Proof.Machine.execVfcleHalf t d a b q l m e s
  | .vfceqHalf t d a b q l m e => Sys2Proof.Machine.execVfceqHalf t d a b q l m e s
  | .vcvt t d a src q l r x => Sys2Proof.Machine.execVcvt t d a src q l r x s
  | .vqpack r d a p q l e x => Sys2Proof.Machine.execVqpack r d a p q l e x s
  | .vqunpack r d a p q l e x => Sys2Proof.Machine.execVqunpack r d a p q l e x s
  | .vqscale r d a b q l m e => Sys2Proof.Machine.execVqscale r d a b q l m e s
  | .vrcp d a q l e => Sys2Proof.Machine.execVrcp d a q l e s
  | .vrsqrt d a q l e => Sys2Proof.Machine.execVrsqrt d a q l e s
  | .vsqrtSfu d a q l e => Sys2Proof.Machine.execVsqrtSfu d a q l e s
  | .vexp2 d a q l e => Sys2Proof.Machine.execVexp2 d a q l e s
  | .vlog2 d a q l e => Sys2Proof.Machine.execVlog2 d a q l e s
  | .vsin d a q l e => Sys2Proof.Machine.execVsin d a q l e s
  | .vcos d a q l e => Sys2Proof.Machine.execVcos d a q l e s
  | .vtanh d a q l e => Sys2Proof.Machine.execVtanh d a q l e s
  | .vsigm d a q l e => Sys2Proof.Machine.execVsigm d a q l e s
  | .verf d a q l e => Sys2Proof.Machine.execVerf d a q l e s
  | .vcmulF32 d a b q l m e => Sys2Proof.Machine.execVcmulF32 d a b q l m e s
  | .vcmulcF32 d a b q l m e => Sys2Proof.Machine.execVcmulcF32 d a b q l m e s
  | .vcmulBf16 d a b q l m e => Sys2Proof.Machine.execVcmulBf16 d a b q l m e s
  | .vbflyF32 d a b q l m e => Sys2Proof.Machine.execVbflyF32 d a b q l m e s
  | .vbflyBf16 d a b q l m e => Sys2Proof.Machine.execVbflyBf16 d a b q l m e s
  | .vlread d a b q l m e => Sys2Proof.Machine.execVlread d a b q l m e s
  | .vshlx d a b q l m e => Sys2Proof.Machine.execVshlx d a b q l m e s
  | .vshrx d a b q l m e => Sys2Proof.Machine.execVshrx d a b q l m e s
  | .vshly d a b q l m e => Sys2Proof.Machine.execVshly d a b q l m e s
  | .vshry d a b q l m e => Sys2Proof.Machine.execVshry d a b q l m e s
  | .vsubsel d a b q l m e => Sys2Proof.Machine.execVsubsel d a b q l m e s
  | .vrotx d a b q l m e => Sys2Proof.Machine.execVrotx d a b q l m e s
  | .vmatch d a k q l e => Sys2Proof.Machine.execVmatch d a k q l e s
  | .vballot d a q => Sys2Proof.Machine.execVballot d a q s
  | .vredaddI64 d a q l e => Sys2Proof.Machine.execVredaddI64 d a q l e s
  | .vredaddF32 d a q l e => Sys2Proof.Machine.execVredaddF32 d a q l e s
  | .vredminI64 d a q l e => Sys2Proof.Machine.execVredminI64 d a q l e s
  | .vredmaxI64 d a q l e => Sys2Proof.Machine.execVredmaxI64 d a q l e s
  | .vredminF32 d a q l e => Sys2Proof.Machine.execVredminF32 d a q l e s
  | .vredmaxF32 d a q l e => Sys2Proof.Machine.execVredmaxF32 d a q l e s
  | .vscanaddI64 d a q l e => Sys2Proof.Machine.execVscanaddI64 d a q l e s
  | .vscanaddF32 d a q l e => Sys2Proof.Machine.execVscanaddF32 d a q l e s
  | .vscanmaxI64 d a q l e => Sys2Proof.Machine.execVscanmaxI64 d a q l e s
  | .vpcount d a q => Sys2Proof.Machine.execVpcount d a q s
  | .vmov d a q l e => Sys2Proof.Machine.execVmov d a q l e s
  | .vbcast d a q l e => Sys2Proof.Machine.execVbcast d a q l e s
  | .vextr d a b l m e => Sys2Proof.Machine.execVextr d a b l m e s
  | .vmovi d q imm => Sys2Proof.Machine.execVmovi d q imm s
  | .pld d h j z q l => Sys2Proof.Machine.execPld d h j z q l s
  | .pst d z q l => Sys2Proof.Machine.execPst d z q l s
  | .pwinSumI32 d k z q l => Sys2Proof.Machine.execPwinSumI32 d k z q l s
  | .pwinSumF32 d k z q l => Sys2Proof.Machine.execPwinSumF32 d k z q l s
  | .pwinMaxI32 d k z q l => Sys2Proof.Machine.execPwinMaxI32 d k z q l s
  | .pwinMaxF32 d k z q l => Sys2Proof.Machine.execPwinMaxF32 d k z q l s
  | .pwinMinI32 d k z q l => Sys2Proof.Machine.execPwinMinI32 d k z q l s
  | .pwinMinF32 d k z q l => Sys2Proof.Machine.execPwinMinF32 d k z q l s
  | .scroll h d r e src => Sys2Proof.Machine.execScroll h d r e src s
  | .scrollResume h d r e src => Sys2Proof.Machine.execScrollResume h d r e src s
  | .pzero a l e => Sys2Proof.Machine.execPzero a l e s
  | .pfill a b l m e => Sys2Proof.Machine.execPfill a b l m e s
  | .pcopy a b l m e => Sys2Proof.Machine.execPcopy a b l m e s
  | .phnd d a b l m e => Sys2Proof.Machine.execPhnd d a b l m e s
  | .pclip d a b l m e => Sys2Proof.Machine.execPclip d a b l m e s
  | .vgather k w d b imm q l v src => Sys2Proof.Machine.execVgather k w d b imm q l v src s
  | .vscatter k w d b imm q l v src => Sys2Proof.Machine.execVscatter k w d b imm q l v src s
  | .ld k w d b imm l v src => Sys2Proof.Machine.execLd k w d b imm l v src s
  | .st k w d b imm l v src => Sys2Proof.Machine.execSt k w d b imm l v src s
  | .tld d b imm v src => Sys2Proof.Machine.execTld d b imm v src s
  | .tst d b imm l v src => Sys2Proof.Machine.execTst d b imm l v src s
  | .lflush b => Sys2Proof.Machine.execLflush b s
  | .aadd d b imm l v src => Sys2Proof.Machine.execAadd d b imm l v src s
  | .aand d b imm l v src => Sys2Proof.Machine.execAand d b imm l v src s
  | .aor d b imm l v src => Sys2Proof.Machine.execAor d b imm l v src s
  | .axor d b imm l v src => Sys2Proof.Machine.execAxor d b imm l v src s
  | .aminI d b imm l v src => Sys2Proof.Machine.execAminI d b imm l v src s
  | .aminN d b imm l v src => Sys2Proof.Machine.execAminN d b imm l v src s
  | .amaxI d b imm l v src => Sys2Proof.Machine.execAmaxI d b imm l v src s
  | .amaxN d b imm l v src => Sys2Proof.Machine.execAmaxN d b imm l v src s
  | .aswap d b imm l v src => Sys2Proof.Machine.execAswap d b imm l v src s
  | .acas d b imm l v src => Sys2Proof.Machine.execAcas d b imm l v src s
  | .aaddf d b imm v src => Sys2Proof.Machine.execAaddf d b imm v src s
  | .lds k w d b imm q l => Sys2Proof.Machine.execLds k w d b imm q l s
  | .sts k w d b imm q l => Sys2Proof.Machine.execSts k w d b imm q l s
  | .pfc b imm => Sys2Proof.Machine.execPfc b imm s
  | .pfd b imm => Sys2Proof.Machine.execPfd b imm s
  | .cwb b imm => Sys2Proof.Machine.execCwb b imm s
  | .cinv b imm => Sys2Proof.Machine.execCinv b imm s
  | .cwbinv b imm => Sys2Proof.Machine.execCwbinv b imm s
  | .cpyGp a t c => Sys2Proof.Machine.execCpyGp a t c s
  | .cpyPg a t c => Sys2Proof.Machine.execCpyPg a t c s
  | .cpyPp a t c => Sys2Proof.Machine.execCpyPp a t c s
  | .cpyGg a t c => Sys2Proof.Machine.execCpyGg a t c s
  | .waitAny d a => Sys2Proof.Machine.execWaitAny d a s
  | .waitAll d a => Sys2Proof.Machine.execWaitAll d a s
  | .tagfind d a => Sys2Proof.Machine.execTagfind d a s
  | .tagclr a => Sys2Proof.Machine.execTagclr a s
  | .nmv a t c => Sys2Proof.Machine.execNmv a t c s
  | .nmrd a t c => Sys2Proof.Machine.execNmrd a t c s
  | .nmwr a t c => Sys2Proof.Machine.execNmwr a t c s
  | .nmwrm a t c => Sys2Proof.Machine.execNmwrm a t c s
  | .mma a src m n q r c => Sys2Proof.Machine.execMma a src m n q r c s
  | .accz src n q => Sys2Proof.Machine.execAccz src n q s
  | .accld h src n c r q => Sys2Proof.Machine.execAccld h src n c r q s
  | .accrd h src n c r q => Sys2Proof.Machine.execAccrd h src n c r q s
  | .mfence => Sys2Proof.Machine.execMfence s
  | .mwait src => Sys2Proof.Machine.execMwait src s
  | .bar l => Sys2Proof.Machine.execBar l s
  | .barArrive l => Sys2Proof.Machine.execBarArrive l s
  | .barWait l => Sys2Proof.Machine.execBarWait l s
  | .fence src k => Sys2Proof.Machine.execFence src k s
  | .ringWait g src p => Sys2Proof.Machine.execRingWait g src p s
  | .ringSig g src => Sys2Proof.Machine.execRingSig g src s
  | .ringTest d g src p => Sys2Proof.Machine.execRingTest d g src p s
  | .send a e l => Sys2Proof.Machine.execSend a e l s
  | .recv d e => Sys2Proof.Machine.execRecv d e s
  | .trysend d a e l => Sys2Proof.Machine.execTrysend d a e l s
  | .chstat d e => Sys2Proof.Machine.execChstat d e s
  | .acqW a k => Sys2Proof.Machine.execAcqW a k s
  | .acqF d a k => Sys2Proof.Machine.execAcqF d a k s
  | .rel a k => Sys2Proof.Machine.execRel a k s
  | .setperf a => Sys2Proof.Machine.execSetperf a s
  | .setperfV a => Sys2Proof.Machine.execSetperfV a s
  | .pdrop a => Sys2Proof.Machine.execPdrop a s
  | .ctxrd d a b => Sys2Proof.Machine.execCtxrd d a b s
  | .ctxwr d a b => Sys2Proof.Machine.execCtxwr d a b s
  | .idem => Sys2Proof.Machine.execIdem s
  | .idemEnd => Sys2Proof.Machine.execIdemEnd s
  | .tret a b => Sys2Proof.Machine.execTret a b s
  | .vkill d a => Sys2Proof.Machine.execVkill d a s
  | .skill d a => Sys2Proof.Machine.execSkill d a s
  | .sret d a b => Sys2Proof.Machine.execSret d a b s
  | .grpsusp d a => Sys2Proof.Machine.execGrpsusp d a s
  | .grpres d a => Sys2Proof.Machine.execGrpres d a s
  | .asgen d a b => Sys2Proof.Machine.execAsgen d a b s
  | .rpt n d a b src => Sys2Proof.Machine.execRpt n d a b src s
  | .wide p => Sys2Proof.Machine.execWide p s
  | .mod src o c t => Sys2Proof.Machine.execMod src o c t s
  | .sched y p src => Sys2Proof.Machine.execSched y p src s
  | .doorbellWrite q tail => Sys2Proof.Machine.execDoorbellWrite q tail s
  | .qerrClear m bits => Sys2Proof.Machine.execQerrClear m bits s
  | .nothingEntry q => Sys2Proof.Machine.execNothingEntry q s
  | .launchEntry q => Sys2Proof.Machine.execLaunchEntry q s
  | .waitEntry q => Sys2Proof.Machine.execWaitEntry q s
  | .waitEntryPoll q => Sys2Proof.Machine.execWaitEntryPoll q s
  | .signalEntry q => Sys2Proof.Machine.execSignalEntry q s
  | .endEntry q => Sys2Proof.Machine.execEndEntry q s
  | .cplheadPoll q => Sys2Proof.Machine.execCplheadPoll q s
  | .priorityAging q => Sys2Proof.Machine.execPriorityAging q s
  | .unitAdmission grid => Sys2Proof.Machine.execUnitAdmission grid s
  | .unitReservation grid => Sys2Proof.Machine.execUnitReservation grid s
  | .teamStart dist => Sys2Proof.Machine.execTeamStart dist s
  | .groupStart team => Sys2Proof.Machine.execGroupStart team s
  | .arrivalLaunch core ep => Sys2Proof.Machine.execArrivalLaunch core ep s
  | .groupActivation core => Sys2Proof.Machine.execGroupActivation core s
  | .demotion core => Sys2Proof.Machine.execDemotion core s
  | .schedulerSwap core => Sys2Proof.Machine.execSchedulerSwap core s
  | .registerFill group => Sys2Proof.Machine.execRegisterFill group s
  | .loadReply group idx part reply => Sys2Proof.Machine.execLoadReply group idx part reply s
  | .sfuResult core idx => Sys2Proof.Machine.execSfuResult core idx s
  | .bankWake core plane bank => Sys2Proof.Machine.execBankWake core plane bank s
  | .bankRetention core plane bank => Sys2Proof.Machine.execBankRetention core plane bank s
  | .storeDrain group idx => Sys2Proof.Machine.execStoreDrain group idx s
  | .storePush view idx => Sys2Proof.Machine.execStorePush view idx s
  | .viewRefresh view addr => Sys2Proof.Machine.execViewRefresh view addr s
  | .syncSignal idx => Sys2Proof.Machine.execSyncSignal idx s
  | .barrierReleaseInjection idx => Sys2Proof.Machine.execBarrierReleaseInjection idx s
  | .channelOfferArrival idx => Sys2Proof.Machine.execChannelOfferArrival idx s
  | .scrollExecute core => Sys2Proof.Machine.execScrollExecute core s
  | .copyCommandStart core spot => Sys2Proof.Machine.execCopyCommandStart core spot s
  | .copyCommandComplete core spot => Sys2Proof.Machine.execCopyCommandComplete core spot s
  | .rawPacketComplete core spot => Sys2Proof.Machine.execRawPacketComplete core spot s
  | .matrixBegin what => Sys2Proof.Machine.execMatrixBegin what s
  | .matrixComplete core spot => Sys2Proof.Machine.execMatrixComplete core spot s
  | .slewWindowStart core => Sys2Proof.Machine.execSlewWindowStart core s
  | .granuleSlot core => Sys2Proof.Machine.execGranuleSlot core s
  | .perfMoveComplete cluster => Sys2Proof.Machine.execPerfMoveComplete cluster s
  | .dwellBoundary => Sys2Proof.Machine.execDwellBoundary s
  | .mmcCapChange cluster code => Sys2Proof.Machine.execMmcCapChange cluster code s
  | .perfcapWrite v => Sys2Proof.Machine.execPerfcapWrite v s
  | .slewctlWrite v => Sys2Proof.Machine.execSlewctlWrite v s
  | .barstagWrite v => Sys2Proof.Machine.execBarstagWrite v s
  | .seedWrite group v => Sys2Proof.Machine.execSeedWrite group v s
  | .preemptPreempt save => Sys2Proof.Machine.execPreemptPreempt save s
  | .preemptSaveComplete team => Sys2Proof.Machine.execPreemptSaveComplete team s
  | .preemptRestart save => Sys2Proof.Machine.execPreemptRestart save s
  | .savedTeamReadmission team => Sys2Proof.Machine.execSavedTeamReadmission team s
  | .watchdogExpiry group => Sys2Proof.Machine.execWatchdogExpiry group s
  | .deferredTrap group => Sys2Proof.Machine.execDeferredTrap group s
  | .handlerStart team => Sys2Proof.Machine.execHandlerStart team s
  | .systemEventPost => Sys2Proof.Machine.execSystemEventPost s
  | .sysevptrWrite v => Sys2Proof.Machine.execSysevptrWrite v s
  | .groupRetire group => Sys2Proof.Machine.execGroupRetire group s
  | .gridEnd grid => Sys2Proof.Machine.execGridEnd grid s
  | .rebuildComplete die => Sys2Proof.Machine.execRebuildComplete die s
  | .classifierEntryExpiry die idx => Sys2Proof.Machine.execClassifierEntryExpiry die idx s
  | .arrayRepair die idx => Sys2Proof.Machine.execArrayRepair die idx s
  | .scrubRead idx => Sys2Proof.Machine.execScrubRead idx s
  | .rotatingRowCheck core row => Sys2Proof.Machine.execRotatingRowCheck core row s
  | .hbmPatrolScrub addr => Sys2Proof.Machine.execHbmPatrolScrub addr s
  | .timingReplay at_ => Sys2Proof.Machine.execTimingReplay at_ s
  | .linkFlitReplay link => Sys2Proof.Machine.execLinkFlitReplay link s
  | .fabricWireRepair link => Sys2Proof.Machine.execFabricWireRepair link s
  | .rasstatWrite core v => Sys2Proof.Machine.execRasstatWrite core v s
  | .portFailover port lane => Sys2Proof.Machine.execPortFailover port lane s
  | .portFailoverComplete port => Sys2Proof.Machine.execPortFailoverComplete port s
  | .portRetrain port => Sys2Proof.Machine.execPortRetrain port s
  | .portRetrainEnd port ok spare => Sys2Proof.Machine.execPortRetrainEnd port ok spare s
  | .lossOfSignal port => Sys2Proof.Machine.execLossOfSignal port s
  | .portstatWrite v => Sys2Proof.Machine.execPortstatWrite v s
  | .remoteAccessTimeout group idx part => Sys2Proof.Machine.execRemoteAccessTimeout group idx part s
  | .hostRequestCompletion group idx part reply => Sys2Proof.Machine.execHostRequestCompletion group idx part reply s
  | .inboundPeerAccess port addr req => Sys2Proof.Machine.execInboundPeerAccess port addr req s
  | .bar2HostAccess spot req => Sys2Proof.Machine.execBar2HostAccess spot req s
  | .bar2mapWrite v => Sys2Proof.Machine.execBar2mapWrite v s
  | .peerwinWrite v => Sys2Proof.Machine.execPeerwinWrite v s
  | .functionLevelReset => Sys2Proof.Machine.execFunctionLevelReset s
  | .moduleReset => Sys2Proof.Machine.execModuleReset s
  | .attestationRequest nonce => Sys2Proof.Machine.execAttestationRequest nonce s
  | .attestationReport => Sys2Proof.Machine.execAttestationReport s
  | .firmwareImageLoad digest version image => Sys2Proof.Machine.execFirmwareImageLoad digest version image s
  | .registerWrite core num v => Sys2Proof.Machine.execRegisterWrite core num v s
  | .clearingComplete core => Sys2Proof.Machine.execClearingComplete core s
  | .softError site => Sys2Proof.Machine.execSoftError site s
  | .dieReset die uncore enter => Sys2Proof.Machine.execDieReset die uncore enter s
  | .portFlitReplay port => Sys2Proof.Machine.execPortFlitReplay port s
  | .powerStateChange d3 => Sys2Proof.Machine.execPowerStateChange d3 s

end Sys2Proof.Machine
end

