-- ==== Sys2Proof/Machine/Turn.lean ====
section
/-!
DEFINITION. Turns: whose turn it is (spec/06 R122, R123), what a group's turn is: a trap at a boundary, a fetch, the word of the
repeat now due (spec/04 R83 to R85) and what it decodes to; and what every step ends with.
-/

namespace Sys2Proof.Machine

/-! ### Repeats (spec/04 R83) -/

/-- The word of repeat `i`: each stepped field is moved by `i` strides. -/
def stepWord (w : W32) (r : RptHint) (i : Nat) : W32 :=
  let n := i * r.stride
  let by_ := fun (b : Bool) (lo : Nat) => if b then n * 2 ^ lo else 0
  w + BitVec.ofNat 32 (by_ r.d 17 + by_ r.a 12 + by_ r.b 7)

/-- Whether the stepped fields of repeat `i` are numbers a field can hold. -/
def stepFits (w : W32) (r : RptHint) (i : Nat) : Bool :=
  let n := i * r.stride
  (!r.d || bits w 21 17 + n < 32) && (!r.a || bits w 16 12 + n < 32) && (!r.b || bits w 11 7 + n < 32)

/-! ### A group's turn -/

/-- What a turn comes to: an instruction to perform, or a state reached without one. -/
inductive Prep where
  | exec (i : Instr) (s : State)
  | next (s : State)

/-- A hint or a prefix, which is no instruction and is never repeated (R82, R83). -/
def isHint (w : W32) : Bool := 0x3E ≤ opOf w

/-- A bundle whose repeats are all done is complete where its instruction is due (R85). -/
def Group.rptOver (g : Group) (w : W32) : Bool :=
  !isHint w && match g.bundle with
  | some b => (match b.rpt with | some r => r.n ≤ g.rptdone | none => false)
  | none => false

/-- The word due: the word at pc, or its repeat; none where a stepped field has no such number. -/
def Group.wordDue (g : Group) (w : W32) : Option W32 :=
  if isHint w then some w
  else match g.bundle with
  | some b =>
    (match b.rpt with
    | some r => if stepFits w r g.rptdone then some (stepWord w r g.rptdone) else none
    | none => some w)
  | none => some w

/-- The fetched word of group `k` is decoded (R66, R81); one that is no instruction takes trap 1. -/
noncomputable def dispatchWord (s : State) (k : Nat) (g : Group) (w : W32) : Prep :=
  if g.rptOver w then
    .next (s.modGroup k (fun y => { y with rptdone := 0, bundle := none, pc := y.pc + 4, blocked := none }))
  else match g.wordDue w with
  | none => .next (takeTrap s k w { code := 1 })
  | some w' =>
    match decode w' with
    | .error _ => .next (takeTrap s k w' { code := 1 })
    | .ok i => .exec i { s with cur := some k }

/-- The turn of group `k`: the trap that is due at this boundary (spec/21 R380, spec/16 R350), else its next word. -/
noncomputable def groupTurn (s : State) (k : Nat) : Prep :=
  match s.group k with
  | none => .next s
  | some g =>
    if !s.canIssue g then .next s
    else if g.dueTrap.isSome && s.atBoundary k g then .next (takeDeferred s k)
    else match fetch s k g with
    | .trap t => .next (takeTrap s k 0 t)
    | .wait b s => .next (stall s g.id.core k b)
    | .word w s' =>
      if g.barks && s.atBoundary k g then .next (takeWatchdog s k w)
      else dispatchWord s' k g w

/-! ### Whose turn it is -/

/-- The oldest of them; the lower place where ages are equal (R123). -/
def oldest : List (Nat × Nat × Nat) → Option (Nat × Nat × Nat)
  | [] => none
  | x :: t =>
    match oldest t with
    | none => some x
    | some y => if y.1 < x.1 || (y.1 == x.1 && y.2.1 < x.2.1) then some y else some x

/-- The group that issues where no turn is set: of the first core of the table that has one, the oldest ready. -/
def State.defaultIssuer (s : State) : Option (Nat × Nat) :=
  firstSome (fun c => (oldest (s.issuers c.1)).map (fun x => (c.1, x.2.2))) s.cores

/-- A clock passes on every core that has work. -/
def tickAll (s : State) : State := (s.cores.map (·.1)).foldl (fun s c => elapse s c 1) s

/-- The group of the core of group `k` that issues before `k`, where `k` can take a turn: the oldest that is ready and may still
issue in this clock (R123). -/
def State.elder (s : State) (k : Nat) : Option Nat :=
  match s.group k with
  | none => none
  | some g =>
    if !s.canIssue g then none
    else match oldest (s.issuers g.id.core) with
      | some x => if x.2.2 = k then none else some x.2.2
      | none => none

/-- Whose turn it is: the head of the agenda, but that a group set there waits while an older one of its core is ready in the same
clock (R123); else the oldest ready group of a core, whose rotation then moves on; else one event that nobody has set, if
any. -/
def State.turn (s : State) : Option Turn × State :=
  match s.agenda with
  | t :: rest =>
    match t with
    | .issue k => (match s.elder k with
      | some x => (some (.issue x), s)
      | none => (some t, { s with agenda := rest }))
    | .event _ => (some t, { s with agenda := rest })
  | [] =>
    match s.defaultIssuer with
    | some (c, k) =>
      (some (.issue k), s.modCore c (fun x => { x with rot := if 1 < (s.issuers c).length then (x.rot + 1) % 8 else x.rot }))
    | none => ((Config.outside s.fresh).map Turn.event, (tickAll s).tickFresh)

/-- What a turn comes to. An encoded instruction is no event. -/
noncomputable def takeTurn (s : State) : Option Turn → Prep
  | none => .next s
  | some (.issue k) => groupTurn s k
  | some (.event i) => if (encode i).isSome then .next s else .exec i { s with cur := none }

/-! ### The end of a step -/

/-- Groups with a context page fault stand at a boundary (spec/05 R106). -/
def settleFaults (s : State) : State :=
  { s with groups := s.groups.map (fun (x : Nat × Group) =>
      (x.1, if x.2.gstate == .ctxFault && x.2.bundle.isSome then x.2.toBoundary else x.2)) }

/-- Releases that have come due take effect on every core (spec/06 R139). -/
def settleReleases (s : State) : State := (s.cores.map (·.1)).foldl settleRels s

/-- The array slots of every core on which a clock has passed since `old` (spec/19 R366). -/
def settlePasses (old s : State) : State :=
  ((s.cores.map (·.1)).filter (fun c => (old.core c).clk != (s.core c).clk)).foldl settleSlots s

/-- What every step ends with: releases that have come due take effect, slots of the array have passed, context memory follows the contexts it holds (spec/05
R95), banks with nothing live go off (R109), clusters start to move where E has changed (spec/19 R362), slack lasts while it holds (spec/19 R369), newly ready groups are stamped, and
free positions of the active sets are filled (spec/06 R124, R125). -/
def afterStep (old s : State) : State :=
  let s := settleClocks old (settleFaults (syncContexts old (settlePasses old (settleReleases s))))
  { fillAll (noteReady old (keepSlack (settlePerf s))) with cur := none }

/-! ### A program placed from outside -/

/-- The role that may issue a word. -/
def roleFor (w : W32) : Role :=
  let op := opOf w
  if 0x34 ≤ op && op ≤ 0x36 then .matrix else if op == 0x30 || op == 0x32 then .copy else .vector

/-- A launch of one group of one role, whose image lies at 0x10000 and whose first word is the image's word 64. -/
def loadedLaunch (r : Role) : Launch :=
  { imgbase := 0x10000, imgwords := 80, entryvec := 64, entrymat := 64, entrycpy := 64
    ctxbase := 0x20000, ctxslots := 1, ctxstride := 1
    ncpy := if r = .copy then 1 else 0, nmat := if r = .matrix then 1 else 0, nvec := if r = .vector then 1 else 0 }

/-- The bytes a loader leaves: an address-space descriptor at 0 (spec/12 R240), two tables below its root, a leaf that maps
the first GiB onto itself for every access (R242), and the word at 0x10100. -/
def loadedCells (w : W32) : List (Nat × Nat × Nat) :=
  [(0x0, 8, 0x1001), (0x1000, 8, 0x2001), (0x2000, 8, 0x3001), (0x3000, 8, 0x3F), (0x10100, 4, w.toNat)]

/-- Bytes placed at an address. -/
def placeBytes (m : List Host.Cell) (a : Nat) : List Byte → List Host.Cell
  | [] => m
  | b :: t => placeBytes (writeByte m a b) (a + 1) t

/-- A group that runs the word first: its grid (supervisor where the word is privileged), its team, itself in position 0 of
core 0, older than every other and with every slot free, and its turn next. -/
def State.loadWord (s : State) (w : W32) : State :=
  let r := roleFor w
  let l := loadedLaunch r
  let gr : Grid := { queue := 0, index := 0, token := 0, asid := 0, supv := privileged w, launch := l, coresident := false, next := 1 }
  let t : Team := { grid := s.nextId, index := 0, core := 0, slot := 0, started := true, begun := 1, nextNum := 1, key := 0 }
  let k := s.nextId + 2
  let g := s.newborn (s.nextId + 1) t gr { num := 0, role := r, entry := 64 } 0
  let s := { s with
    mem := (loadedCells w).foldl (fun m (x : Nat × Nat × Nat) => placeBytes m x.1 (leBytes x.2.1 x.2.2)) s.mem
    nextId := s.nextId + 3
    agenda := .issue k :: s.agenda
    sup := { s.sup with astable := 0 }
    grids := Tab.set s.grids s.nextId gr
    teams := Tab.set s.teams (s.nextId + 1) t
    groups := Tab.set s.groups k { g with gstate := .active, sched := { g.sched with tab := some 0, age := 0 } } }
  let s := s.modCore 0 (fun c => { c with
    active := setPad none c.active 0 (some k), rot := 0, slots := 0, issued := [], tried := [], planeLate := false })
  seatScalars (s.modDie 0 (fun d => { d with coresReset := false })) k g

end Sys2Proof.Machine
end

