-- ==== Sys2Proof/Machine/Step.lean ====
section
/-!
DEFINITION. One step: the turn that is due, what it comes to, and what every step ends with.
-/

namespace Sys2Proof.Machine

/-- What an outcome becomes at the end of a step that began in `old`. -/
def closeStep (old : State) : Host.Outcome State Fault Refusal → Host.Outcome State Fault Refusal
  | .next s => .next (afterStep old s)
  | .fault f => .fault f
  | .refused r => .refused r

/-- What a turn comes to is performed. -/
def runPrep : Prep → Host.Outcome State Fault Refusal
  | .exec i s => exec i s
  | .next s => .next s

noncomputable def step (s : State) : Host.Outcome State Fault Refusal :=
  closeStep s (runPrep (takeTurn s.turn.2 s.turn.1))

/-- `s` with the word loaded as the next to issue: bits of the first 32 only, since every instruction is one word. -/
def State.withFetchWord (s : State) (nbits w : Nat) : State := s.loadWord (BitVec.ofNat 32 (w % 2 ^ min nbits 32))

end Sys2Proof.Machine
end

