-- ==== Sys2Proof/Safety.lean ====
section
/-!
DEFINITION. What counts as a safe run, and the words in which statements are made: when a word can issue, and what every
word that issues may change beside its own effect.
-/

namespace Sys2Proof.Machine

/-- The memory of the homes is in its canonical form. -/
def Safe (s : State) : Prop := memWf s.mem = true

/-- It is the turn of group `k`, which is `g`. -/
def Issuer (s : State) (k : Nat) (g : Group) : Prop := s.cur = some k ∧ s.group k = some g

/-- Nothing holds back word `w` of group `k`, which names the registers `n`: its issue slots are free (spec/06 R121), no
access of the group that it waits for is under way (spec/12 R257, spec/15 R320), its hints and prefix, its privilege and its
role permit it (spec/02 R29), it has a lane to act on (spec/04 R71), and its registers are live, full, cached, awake and
undamaged, with room for those it writes (spec/06 R122, spec/21 R380). -/
structure Clear (s : State) (k : Nat) (g : Group) (w : W32) (n : Need) : Prop where
  issuer : Issuer s k g
  slots : s.slotFree k g w = true
  held : s.heldBack w g = none
  legal : wordTrap w g = none
  lanes : n.lane ≠ some 0
  regs : regHold s k g n = .go

/-- No hive write and no ring signal is on its way in a core. -/
def Core.quiet (c : Core) : Prop := c.hiveW = [] ∧ c.ringT = []

/-- A group without what every word that issues may change: where it goes on, what held it back, its scheduling, its
watchdog's count with the note of it for a context in memory, and its open region. -/
def Group.still (g : Group) : Group :=
  { g with
    gstate := .dormant, pc := 0, bundle := none, rptdone := 0, blocked := none, inbar := 0
    sys := { g.sys with wdcount := 0 }, notes := [], sched := {}, region := none }

/-- A core without what every word that issues may change: clocks, issue slots and what else belongs to one clock, the active set,
the register caches, special-function results on their way, and counts of replays. -/
def Core.still (c : Core) : Core :=
  { c with
    active := [], clk := 0, slots := 0, issued := [], tried := [], acqRank := 0, planeLate := false, rows := [], sents := [], lbank := [], sfu := []
    ras := { c.ras with replays := [] } }

/-- A die without the rebuilds that wait in it, and the scrubs that wait for them. -/
def Die.still (d : Die) : Die := { d with rebuilds := [], scrubs := [] }

/-- The state without its tables of groups, cores, dies and teams, its errors and the counter of free values. -/
def State.still (s : State) : State := { s with groups := [], cores := [], dies := [], teams := [], errs := [], fresh := 0 }

/-- The group with other system registers. -/
def Group.withSys (g : Group) (x : SysRegs) : Group := { g with sys := x }

/-- Where a group stands in its program: its pc, the bundle it is in, and the repeats that are done (spec/04 R82, R83). -/
def Group.place (g : Group) : Word × Option Bundle × Nat := (g.pc, g.bundle, g.rptdone)

/-- Where a group that has issued its word goes on: at the next repeat of the word, at the next word, or at `dest` (R83). -/
def Group.nextPlace (g : Group) (dest : Option Word) : Word × Option Bundle × Nat := (advance g 0 dest).place

/-- Group `g'` goes on where the word that `g` has issued leaves it; one that has yielded between two repeats of a bundle stands at the
boundary there, and reads its bundle again (spec/04 R82, R85). -/
def Group.goesTo (g : Group) (dest : Option Word) (g' : Group) : Prop :=
  g'.place = g.nextPlace dest ∨ g'.place = (advance g 0 dest).toBoundary.place

/-- `t` is `s` but for what every word that issues may change. -/
structure GoesOn (s t : State) : Prop where
  rest : t.still = s.still
  group : ∀ j, (t.group j).map Group.still = (s.group j).map Group.still
  core : ∀ c, (t.core c).still = (s.core c).still
  die : ∀ d, (t.die d).still = (s.die d).still
  team : ∀ j, t.team j = s.team j

/-- A group whose registers `rs` take nothing from accesses under way. -/
def Group.discardAll (g : Group) (rs : List Reg) : Group := rs.foldl Group.discard g

/-- The group that an instruction's own effect starts from: registers that its marks name are free (spec/04 R72), and nothing
under way reaches a register that it frees or writes (spec/05 R104). -/
def Group.begun (g : Group) (n : Need) : Group := (g.discardAll (n.frees ++ n.dests)).freeAll n.frees

/-- Every byte of memory, as its home, each die and each core see it, is the same in both states. -/
def SameBytes (s t : State) : Prop :=
  ∀ a, homeByte t a = homeByte s a ∧ (∀ d, dieByte t d a = dieByte s d a) ∧ (∀ c, coreByte t c a = coreByte s c a)

/-- No store of group `k` waits in a view. -/
def Unwaited (s : State) (k : Nat) : Prop :=
  (∀ e ∈ s.cores, ∀ x ∈ e.2.view.wait, x.group ≠ k) ∧ ∀ e ∈ s.dies, ∀ x ∈ e.2.view.wait, x.group ≠ k

/-- Beside group `k`, `t` is `s` but for what every word that issues may change: every other group, every byte of memory,
every core, die and team, and the rest of the machine stay as they were. -/
structure Elsewhere (s t : State) (k : Nat) : Prop where
  rest : t.still = s.still
  group : ∀ j, j ≠ k → (t.group j).map Group.still = (s.group j).map Group.still
  core : ∀ c, (t.core c).still = (s.core c).still
  die : ∀ d, (t.die d).still = (s.die d).still
  team : ∀ j, t.team j = s.team j
  bytes : SameBytes s t

/-- Word `i` of group `k` completes, leaves of the group what `P` says, and leaves the rest alone. -/
def Leaves (i : Instr) (s : State) (k : Nat) (P : Group → Prop) : Prop :=
  ∃ t g', exec i s = .next t ∧ t.group k = some g' ∧ Elsewhere s t k ∧ P g'

/-- The word `w` that instruction `i` stands for issues from a state in which nothing holds it back, and no hive write or ring
signal is on its way in the core. -/
structure Ready (i : Instr) (s : State) (k : Nat) (g : Group) (n : Need) : Prop where
  clear : ∀ w, encode i = some w → Clear s k g w n
  word : (encode i).isSome = true
  quiet : (s.core g.id.core).quiet

/-- The value of a register in a lane; a scalar has one value for all lanes. -/
def Group.value (g : Group) (r : Reg) (l : Nat) : Word :=
  match r with
  | .s n => g.sreg n
  | .v n => g.vreg n l

/-- Bit `l` of predicate `j`, as it is held. -/
def Group.predBit (g : Group) (j l : Nat) : Bool := bit (g.regs.p.getD (j - 1) 0) l

/-- What an instruction that names the registers `n` leaves of group `g` beside its own effect: registers that it neither frees
nor writes are as they were, those that its marks free are dead; every predicate but `q`, the alive mask, the pins and the
saved trap are as they were; the system registers are `sys` but for the watchdog's count; the group goes on at its next word,
or at `dest`. -/
structure Kept (g : Group) (n : Need) (q : Option Nat) (sys : SysRegs) (dest : Option Word) (g' : Group) : Prop where
  same : g'.id = g.id ∧ g'.alive = g.alive ∧ g'.regs.pin = g.regs.pin ∧ g'.trap = g.trap ∧ g'.pend = g.pend
  sys : g'.sys = { sys with wdcount := g'.sys.wdcount }
  kept : ∀ r, r ∉ n.dests → r ∉ n.frees →
    g'.live r = g.live r ∧ g'.empty r = g.empty r ∧ ∀ l, g'.value r l = g.value r l
  freed : ∀ r, r ∈ n.frees → r ∉ n.dests → r ≠ .s 0 → g'.live r = false
  preds : ∀ j l, 0 < j → some j ≠ q → l < g.lanes → g'.predBit j l = g.predBit j l
  place : g.goesTo dest g'

/-- The same, and the registers that it writes are live and full. -/
structure Framed (g : Group) (n : Need) (q : Option Nat) (sys : SysRegs) (dest : Option Word) (g' : Group) : Prop where
  kept : Kept g n q sys dest g'
  written : ∀ r, r ∈ n.dests → g'.live r = true ∧ g'.empty r = false

/-- The same, and the registers that it will write are live and empty: their values are still to come (spec/05 R104). -/
structure Awaiting (g : Group) (n : Need) (dest : Option Word) (g' : Group) : Prop where
  kept : Kept g n none g.sys dest g'
  awaited : ∀ r, r ∈ n.dests → g'.live r = true ∧ g'.empty r = true

/-- An instruction whose effect lies in the registers of its group: from every state in which it is ready it completes, keeps
what `Framed` names, leaves the system registers `sys`, and what it writes is as `P` says. -/
def RegOp (i : Instr) (need : Group → Need) (q : Option Nat) (sys : Group → SysRegs) (P : Group → Group → Prop) : Prop :=
  ∀ s k g, Ready i s k g (need g) → Leaves i s k (fun g' => Framed g (need g) q (sys g) none g' ∧ P g g')

/-- Word `i` of group `k` completes, and `P` says what of the state, and of the group, it leaves. -/
def Does (i : Instr) (s : State) (k : Nat) (P : State → Group → Prop) : Prop :=
  ∃ t g', exec i s = .next t ∧ t.group k = some g' ∧ P t g'

/-- The same as `RegOp` for an instruction that goes on at the address that `dest` names, if any: a branch, a call, a return. -/
def JumpOp (i : Instr) (need : Group → Need) (dest : Group → Option Word) (P : Group → Group → Prop) : Prop :=
  ∀ s k g, Ready i s k g (need g) → Leaves i s k (fun g' => Framed g (need g) none g.sys (dest g) g' ∧ P g g')

/-- Lane register `d` after a write of `f` under predicate `q`: lanes outside the effective mask keep their values, or hold
zero where the register was dead (spec/04 R71, spec/05 R97). -/
def LaneValues (g : Group) (d : BitVec 5) (q : BitVec 3) (f : Nat → Word) (g' : Group) : Prop :=
  ∀ l, l < g.lanes → g'.vreg d.toNat l =
    if bit (g.eff q.toNat) l then f l else if g.live (vr d) then g.vreg d.toNat l else 0

/-- Predicate `d` after a write of `f` under predicate `q` (R71); a write of q0 has no effect (R69). -/
def PredValues (g : Group) (d q : BitVec 3) (f : Nat → Bool) (g' : Group) : Prop :=
  d ≠ 0 → ∀ l, l < g.lanes → g'.predBit d.toNat l = if bit (g.eff q.toNat) l then f l else g.predBit d.toNat l

/-- Scalar `d` after a write of `v`; a write of s0 is discarded (R69). -/
def ScalarValue (d : BitVec 5) (v : Word) (g' : Group) : Prop := g'.sreg d.toNat = if d = 0 then 0 else v

/-- A scalar result of 64 bits, or of 32 where `x`, which keeps bits 63:32 of a live destination (spec/07 R144). -/
def ScalarResult (g : Group) (n : Need) (d : BitVec 5) (x : Bool) (v : Nat) (g' : Group) : Prop :=
  ScalarValue d (BitVec.ofNat 64 (if x then
    v % 2 ^ 32 + (if g.live (sr d) && !n.frees.contains (sr d) then bits (g.sreg d.toNat) 63 32 * 2 ^ 32 else 0) else v)) g'

/-! ### Scalar instructions -/

/-- The registers of a scalar instruction of format A with two sources: a 32-bit result reads a live destination that it
does not free. -/
def scalarNeed (d a b : BitVec 5) (l m e x : Bool) (g : Group) : Need :=
  needS g [(sr a, l), (sr b, m)] (some (sr d)) (g.keeps x d (freed [(sr a, l), (sr b, m)])) e

/-- A scalar instruction with two sources puts `f w a b` in its destination, where `w` is its width and `a`, `b` are the low
`w` bits of its sources. -/
def Scalar2 (i : BitVec 5 → BitVec 5 → BitVec 5 → Bool → Bool → Bool → Bool → Instr) (f : Nat → Nat → Nat → Nat) : Prop :=
  ∀ d a b l m e x, RegOp (i d a b l m e x) (scalarNeed d a b l m e x) none Group.sys (fun g g' =>
    ScalarResult g (scalarNeed d a b l m e x g) d x (f (widthOf x) (g.sw x a) (g.sw x b)) g')

/-- The same with one source. -/
def Scalar1 (i : BitVec 5 → BitVec 5 → Bool → Bool → Bool → Instr) (f : Nat → Nat → Nat) : Prop :=
  ∀ d a l e x,
    let need := fun (g : Group) => needS g [(sr a, l)] (some (sr d)) (g.keeps x d (freed [(sr a, l)])) e
    RegOp (i d a l e x) need none Group.sys (fun g g' => ScalarResult g (need g) d x (f (widthOf x) (g.sw x a)) g')

/-- An instruction of format IS puts `f a i` in its destination, where `i` is its immediate. -/
def ScalarI (i : BitVec 5 → BitVec 5 → Bool → BitVec 11 → Instr) (f : Word → Word → Word) : Prop :=
  ∀ d a l n, RegOp (i d a l n) (fun g => needS g [(sr a, g.markIS l)] (some (sr d)) false false) none Group.sys
    (fun g g' => ScalarValue d (f (g.sreg a.toNat) (g.immIS n l)) g')

/-- An instruction that puts `v g` in scalar `d`. -/
def ScalarOut (i : Instr) (d : BitVec 5) (srcs : List (Reg × Bool)) (reads e : Bool) (v : Group → Word) : Prop :=
  RegOp i (fun g => needS g srcs (some (sr d)) reads e) none Group.sys (fun g g' => ScalarValue d (v g) g')

/-- A conditional move: the low bits of `a` where those of `b` satisfy `c`, else `d` as it was; `d` is read in every case. -/
def ScalarMove (i : Instr) (d a b : BitVec 5) (l m e x : Bool) (c : Nat → Prop) : Prop :=
  let need := fun (g : Group) => needS g [(sr a, l), (sr b, m)] (some (sr d)) true e
  RegOp i need none Group.sys (fun g g' =>
    (c (g.sw x b) → ScalarResult g (need g) d x (g.sw x a) g') ∧ (¬ c (g.sw x b) → ScalarValue d (g.sreg d.toNat) g'))

/-- The value of a truth. -/
def truth (p : Prop) [Decidable p] : Nat := if p then 1 else 0

/-! ### Lane instructions -/

/-- The elements of width `w` of lane register `d` after a write of `f` under predicate `q`: element `e` of lane `l` is
`f l e` modulo `2^w` (spec/08 R164) in the lanes of the effective mask; the other lanes as in `LaneValues`. -/
def LaneElems (g : Group) (d : BitVec 5) (q : BitVec 3) (w : Nat) (f : Nat → Nat → Nat) (g' : Group) : Prop :=
  ∀ l, l < g.lanes → ∀ e, e < 64 / w → elem w (g'.vreg d.toNat l) e =
    if bit (g.eff q.toNat) l then f l e % 2 ^ w else if g.live (vr d) then elem w (g.vreg d.toNat l) e else 0

/-- A lane instruction that raises no flags: element `e` of width `w` of lane `l` becomes `v g l e`. -/
def LaneOp (i : Instr) (d : BitVec 5) (q : BitVec 3) (srcs : List (Reg × Bool)) (reads e : Bool) (w : Nat)
    (v : Group → Nat → Nat → Nat) : Prop :=
  RegOp i (fun g => needV g srcs (vr d) reads e q.toNat) none Group.sys (fun g g' => LaneElems g d q w (v g) g')

/-- A lane instruction with two lane sources. -/
def Lane2 (i : BitVec 5 → BitVec 5 → BitVec 5 → BitVec 3 → Bool → Bool → Bool → Instr) (w : Nat) (f : Nat → Nat → Nat) : Prop :=
  ∀ d a b q l m e, LaneOp (i d a b q l m e) d q [(vr a, l), (vr b, m)] false e w
    (fun g j k => f (elem w (g.vreg a.toNat j) k) (elem w (g.vreg b.toNat j) k))

/-- A lane instruction with one lane source. -/
def Lane1 (i : BitVec 5 → BitVec 5 → BitVec 3 → Bool → Bool → Instr) (w : Nat) (f : Nat → Nat) : Prop :=
  ∀ d a q l e, LaneOp (i d a q l e) d q [(vr a, l)] false e w (fun g j k => f (elem w (g.vreg a.toNat j) k))

/-- A lane instruction with an immediate. -/
def LaneI (i : BitVec 5 → BitVec 5 → BitVec 3 → Bool → BitVec 8 → Instr) (w : Nat) (f : Nat → BitVec 8 → Nat) : Prop :=
  ∀ d a q l n, LaneOp (i d a q l n) d q [(vr a, l)] false false w (fun g j k => f (elem w (g.vreg a.toNat j) k) n)

/-- A lane instruction with two lane sources that reads its destination: `f a b d k` is element `k`, from the elements of
width `w` of the lane's words `a` and `b`, and from element `k` of `d`. -/
def Lane3 (i : BitVec 5 → BitVec 5 → BitVec 5 → BitVec 3 → Bool → Bool → Bool → Instr) (w : Nat)
    (f : Word → Word → Nat → Nat → Nat) : Prop :=
  ∀ d a b q l m e, LaneOp (i d a b q l m e) d q [(vr a, l), (vr b, m)] true e w
    (fun g j k => f (g.vreg a.toNat j) (g.vreg b.toNat j) (elem w (g.vreg d.toNat j) k) k)

/-- The system registers after a lane instruction that rounds in mode `m`: the flags of `n` elements of each lane of the
effective mask are ORed into FPX.FLAGS (spec/08 R180), and the generator steps once where the mode is stochastic (R173). -/
def floatSys (g : Group) (q : BitVec 3) (n : Nat) (m : Rnd) (v : Nat → Nat → Nat × Fx) : SysRegs :=
  { g.sys with
    fpx := g.sys.fpx ||| BitVec.ofNat 64 (orFlags g.lanes (g.eff q.toNat) (fun l =>
      (List.range n).foldl (fun a e => a ||| (v l e).2) fxNone)).toNat
    lfsr := stepped m g.sys.lfsr }

/-- A lane instruction whose results round or raise flags: `v g l e` gives element `e` of `n`, and its flags; elements above
them become zero. -/
def LaneFloat (i : Instr) (d : BitVec 5) (q : BitVec 3) (srcs : List (Reg × Bool)) (reads e : Bool) (w n : Nat)
    (m : Group → Rnd) (v : Group → Nat → Nat → Nat × Fx) : Prop :=
  RegOp i (fun g => needV g srcs (vr d) reads e q.toNat) none (fun g => floatSys g q n (m g) (v g))
    (fun g g' => LaneElems g d q w (fun l k => if k < n then (v g l k).1 else 0) g')

/-- A float instruction on two lane sources of format `f`: `op m r a b` in the mode that RM chooses, with the draw of element
number `8l + e` (R174). -/
def Float2 (f : Fmt) (i : Rm → BitVec 5 → BitVec 5 → BitVec 5 → BitVec 3 → Bool → Bool → Bool → Instr)
    (op : Rnd → Nat → Nat → Nat → Nat × Fx) : Prop :=
  ∀ r d a b q l m e, LaneFloat (i r d a b q l m e) d q [(vr a, l), (vr b, m)] false e f.width (64 / f.width) (fun g => g.rnd r)
    (fun g j k => op (g.rnd r) (g.draw (8 * j + k)) (elem f.width (g.vreg a.toNat j) k) (elem f.width (g.vreg b.toNat j) k))

/-- The same with the destination as a third operand. -/
def Float3 (f : Fmt) (i : Rm → BitVec 5 → BitVec 5 → BitVec 5 → BitVec 3 → Bool → Bool → Bool → Instr)
    (op : Rnd → Nat → Nat → Nat → Nat → Nat × Fx) : Prop :=
  ∀ r d a b q l m e, LaneFloat (i r d a b q l m e) d q [(vr a, l), (vr b, m)] true e f.width (64 / f.width) (fun g => g.rnd r)
    (fun g j k => op (g.rnd r) (g.draw (8 * j + k)) (elem f.width (g.vreg a.toNat j) k) (elem f.width (g.vreg b.toNat j) k)
      (elem f.width (g.vreg d.toNat j) k))

/-- An exact instruction on floats, which may raise flags and does not step the generator. -/
def FloatExact (f : Fmt) (i : BitVec 5 → BitVec 5 → BitVec 5 → BitVec 3 → Bool → Bool → Bool → Instr)
    (op : Nat → Nat → Nat × Fx) : Prop :=
  ∀ d a b q l m e, LaneFloat (i d a b q l m e) d q [(vr a, l), (vr b, m)] false e f.width (64 / f.width) (fun _ => .rne)
    (fun g j k => op (elem f.width (g.vreg a.toNat j) k) (elem f.width (g.vreg b.toNat j) k))

/-- A lane instruction whose lanes take whole words: `f g l` in lane `l`. -/
def LaneWord (i : Instr) (d : BitVec 5) (q : BitVec 3) (srcs : List (Reg × Bool)) (e : Bool) (f : Group → Nat → Word) : Prop :=
  RegOp i (fun g => needV g srcs (vr d) false e q.toNat) none Group.sys (fun g g' => LaneValues g d q (f g) g')

/-- A predicate instruction: bit `l` of predicate `d` becomes `f g l`, and the flags of `x g` are raised in the lanes of the
effective mask. -/
def PredOp (i : Instr) (d q : BitVec 3) (srcs : List (Reg × Bool)) (e : Bool) (f : Group → Nat → Bool) (x : Group → Nat → Fx) :
    Prop :=
  RegOp i (fun g => needL g srcs [] e q.toNat) (some d.toNat) (fun g => floatSys g q 1 .rne (fun l _ => (0, x g l)))
    (fun g g' => g.id.foot ≤ 4 → PredValues g d q (f g) g')

/-- A compare of element 0 of two lane registers, signed or not (spec/09 R190). -/
def LaneCompare (i : BitVec 3 → BitVec 5 → BitVec 5 → BitVec 3 → Bool → Bool → Bool → Bool → Instr) (w : Nat)
    (f : Int → Int → Prop) : Prop :=
  ∀ d a b q l m e x, RegOp (i d a b q l m e x) (fun g => needL g [(vr a, l), (vr b, m)] [] e q.toNat) (some d.toNat) Group.sys
    (fun g g' => g.id.foot ≤ 4 → ∃ p : Nat → Bool, PredValues g d q p g' ∧ ∀ j, (p j = true ↔
      f (ival (!x) w (elem w (g.vreg a.toNat j) 0)) (ival (!x) w (elem w (g.vreg b.toNat j) 0))))

/-- A compare of element 0 of two lane registers of format `fm` (R195). -/
def FloatCompare (fm : Fmt) (i : BitVec 3 → BitVec 5 → BitVec 5 → BitVec 3 → Bool → Bool → Bool → Instr)
    (op : Nat → Nat → Bool × Fx) : Prop :=
  ∀ d a b q l m e, PredOp (i d a b q l m e) d q [(vr a, l), (vr b, m)] e
    (fun g j => (op (elem fm.width (g.vreg a.toNat j) 0) (elem fm.width (g.vreg b.toNat j) 0)).1)
    (fun g j => (op (elem fm.width (g.vreg a.toNat j) 0) (elem fm.width (g.vreg b.toNat j) 0)).2)

/-- A scalar float instruction: scalar `d` becomes the 64 bits of `f g m r` in the mode that RM chooses, with the draw of
element 0. -/
def ScalarFloat (i : Instr) (r : Rm) (d : BitVec 5) (srcs : List (Reg × Bool)) (reads e : Bool)
    (f : Group → Rnd → Nat → Nat × Fx) : Prop :=
  RegOp i (fun g => needS g srcs (some (sr d)) reads e) none
    (fun g => { g.sys with
      fpx := g.sys.fpx ||| BitVec.ofNat 64 (f g (g.rnd r) (g.draw 0)).2.toNat
      lfsr := stepped (g.rnd r) g.sys.lfsr })
    (fun g g' => ScalarValue d (BitVec.ofNat 64 (f g (g.rnd r) (g.draw 0)).1) g')

/-- A reduction of lane register `a` into scalar `d`: `P g v` says what `v` is, `x g` are the flags, `m g` the mode in which
the generator may step. -/
def Reduction (i : BitVec 5 → BitVec 5 → BitVec 3 → Bool → Bool → Instr) (x : BitVec 3 → BitVec 5 → Group → Fx)
    (m : Group → Rnd) (P : BitVec 3 → BitVec 5 → Group → Word → Prop) : Prop :=
  ∀ d a q l e, RegOp (i d a q l e) (fun g => needL g [(vr a, l)] [sr d] e q.toNat) none
    (fun g => { g.sys with
      fpx := g.sys.fpx ||| BitVec.ofNat 64 (x q a g).toNat
      lfsr := stepped (m g) g.sys.lfsr })
    (fun g g' => g.id.foot ≤ 4 → ∃ v, P q a g v ∧ ScalarValue d v g')

/-- A complex product of elements `2j` and `2j + 1`, conjugating B where `conj` (spec/09 R202): `twoProducts` rounds a sum, or
a difference, of two products once. -/
def ComplexProduct (f : Fmt) (i : BitVec 5 → BitVec 5 → BitVec 5 → BitVec 3 → Bool → Bool → Bool → Instr) (conj : Bool) : Prop :=
  ∀ d a b q l m e, LaneFloat (i d a b q l m e) d q [(vr a, l), (vr b, m)] false e f.width (64 / f.width) Group.modeRnd
    (fun g j k =>
      let x := fun n => elem f.width (g.vreg a.toNat j) n
      let y := fun n => elem f.width (g.vreg b.toNat j) n
      let u := g.draw (8 * j + k)
      if k % 2 = 0 then twoProducts f (!conj) g.modeRnd u (x k) (y k) (x (k + 1)) (y (k + 1))
      else if conj then twoProducts f true g.modeRnd u (x k) (y (k - 1)) (x (k - 1)) (y k)
      else twoProducts f false g.modeRnd u (x (k - 1)) (y k) (x k) (y (k - 1)))

/-- A butterfly (R203): a lane whose bit `j` is 0 adds its partner's value to its own, the other lane subtracts its own. -/
def Butterfly (f : Fmt) (i : BitVec 5 → BitVec 5 → BitVec 5 → BitVec 3 → Bool → Bool → Bool → Instr) : Prop :=
  ∀ d a b q l m e, LaneFloat (i d a b q l m e) d q [(vr a, l), (sr b, m)] false e f.width (64 / f.width) Group.modeRnd
    (fun g j k =>
      let n := (g.sreg b.toNat).toNat
      let own := elem f.width (g.vreg a.toNat j) k
      let other := elem f.width (if n < 10 then g.cross a.toNat (Nat.xor j (2 ^ n)) else 0) k
      let u := g.draw (8 * j + k)
      if n < 10 ∧ j.testBit n = true then f.sub g.modeRnd u other own else f.add g.modeRnd u own other)

/-- The companding table of group `g`, where `x` says that it is used, lies on a page that is not strongly ordered, no word of
the machine is damaged, and the group's path holds the table as its home does: its read acquires nothing (spec/15 R317), fetches no line
again (spec/23 R411), and has nothing to refresh. -/
def PlainTable (x : Bool) (s : State) (g : Group) : Prop :=
  x = true → s.errs = [] ∧ ∀ p, xlat s g.id.core g.id.asid g.ctableVa .read (!g.id.supv) = .ok p → p.kind ≠ .so ∧
    ∀ i, i < 256 → dieByte s (dieOf g.id.core) (p.pa + i) = homeByte s (p.pa + i) ∧ coreByte s g.id.core (p.pa + i) = homeByte s (p.pa + i)

/-- A conversion that may use the companding table, where `x`: from a state in which the table, if it is used, can be read, the
lanes take `f c g l` with the table `c`; a read of a plain table changes no byte of any view. -/
def TableOp (i : Instr) (d a : BitVec 5) (q : BitVec 3) (l e x : Bool) (m : Group → Rnd)
    (f : Option CTable → Group → Nat → Word × Fx) : Prop :=
  let need := fun (g : Group) => needV g [(vr a, l)] (vr d) false e q.toNat
  ∀ s k g, Ready i s k g (need g) → tableGate x k g s = .pass → Does i s k (fun t g' =>
    Framed g (need g) none (floatSys g q 1 (m g) (fun j _ => (0, (f (tableOf x s g) g j).2))) none g' ∧
    LaneValues g d q (fun j => (f (tableOf x s g) g j).1) g' ∧
    (x = false → Elsewhere s t k) ∧ (PlainTable x s g → SameBytes s t) ∧ (∀ b, homeByte t b = homeByte s b) ∧
    (∀ j, j ≠ k → (t.group j).map Group.still = (s.group j).map Group.still) ∧ (∀ j, t.team j = s.team j) ∧
    ∀ c, (t.core c).plane = (s.core c).plane)

/-- A special-function instruction (R201). -/
def SfuQueued (i : BitVec 5 → BitVec 5 → BitVec 3 → Bool → Bool → Instr) (fn : SfuFn) : Prop :=
  ∀ d a q l e s k g, Ready (i d a q l e) s k g (needV g [(vr a, l)] (vr d) false e q.toNat) →
    (s.core g.id.core).sfu.length < 8 →
    ∃ t g' x, exec (i d a q l e) s = .next t ∧ t.group k = some g' ∧ g'.live (vr d) = true ∧ g'.empty (vr d) = true ∧
      g.goesTo none g' ∧ SameBytes s t ∧
      x ∈ (t.core g.id.core).sfu ∧ x.group = k ∧ x.dest = some d.toNat ∧ x.mask = g.eff q.toNat ∧
      (∀ j, j < g.lanes → bit x.mask j = true → ∀ n, n < 2 →
        elem 32 (x.vals.getD j 0) n = (sfuElem fn (elem 32 (g.vreg a.toNat j) n)).1 % 2 ^ 32) ∧
      x.flags = orFlags g.lanes x.mask (fun j => (sfuElem fn (elem 32 (g.vreg a.toNat j) 0)).2 ||| (sfuElem fn (elem 32 (g.vreg a.toNat j) 1)).2)

/-! ### Control -/

/-- A branch: where `c` holds it goes on at PC + 4 OFF17, else at the next word (spec/07 R158). -/
def BranchOp (i : Instr) (o : BitVec 17) (srcs : List (Reg × Bool)) (c : Group → Prop) : Prop :=
  ∀ s k g, Ready i s k g (needS g srcs none false false) → Leaves i s k (fun g' =>
    (c g → Framed g (needS g srcs none false false) none g.sys (some (g.pc + BitVec.ofInt 64 (4 * o.toInt))) g') ∧
    (¬ c g → Framed g (needS g srcs none false false) none g.sys none g'))

/-- The words that stand before a bundle's instruction. -/
def hintWord : Instr → Bool
  | .rpt _ _ _ _ _ | .wide _ | .mod _ _ _ _ | .sched _ _ _ => true
  | _ => false

/-! ### Traps -/

/-- The team of group `g` handles traps: TRAPEN is 1, and the group is not itself a handler (spec/21 R381, R386). -/
def Handled (s : State) (g : Group) : Prop :=
  ∃ gr, s.grid g.id.grid = some gr ∧ gr.launch.trapen = true ∧ g.id.hndl = false

/-- Group `k`, which was `g`, is at its handler with cause, information words and word of the trap: RETPC is `ret` and FAULTPC
`fault` (R382, R383); GSTATE is 4, or 3 where the record could not be written (R384); its registers are as they were, but that a trap
withdraws a `trysend` that awaits its answer (spec/16 R347). -/
def Trapped (t : State) (k : Nat) (g : Group) (code : Nat) (info0 info1 : Word) (w : W32) (ret fault : Word) : Prop :=
  ∃ h, t.group k = some h ∧ h.trap.cause = code ∧ h.trap.info0 = info0 ∧ h.trap.info1 = info1 ∧ h.trap.insn = w ∧
    h.trap.retpc = ret ∧ h.trap.faultpc = fault ∧ h.trap.deferred = false ∧ h.pc = ret ∧ h.bundle = none ∧ (g.asking = false → h.regs = g.regs) ∧
    (h.gstate = .handler ∨ (h.gstate = .ctxFault ∧ h.before = .handler))

/-- Word `i`, which would read the registers `regs` in the order of R380, under the mask `mask` where it is a lane instruction: the first
dead one among them takes trap 5 (spec/05 R97). -/
def DeadOp (i : Instr) (mask : Group → Option Mask) (regs : State → Group → List Reg) : Prop :=
  ∀ s k g w r, encode i = some w → Issuer s k g → s.slotFree k g w = true → s.heldBack w g = none → wordTrap w g = none →
    mask g ≠ some 0 → (regs s g).find? (fun y => !g.live y) = some r → Handled s g → (s.core g.id.core).quiet →
    ∃ t, exec i s = .next t ∧ Trapped t k g 5 (regInfo r) 0 w g.bundlePc g.bundlePc

/-- The same for a word that is no lane instruction. -/
def DeadScalar (i : Instr) (regs : Group → List Reg) : Prop := DeadOp i (fun _ => none) (fun _ g => regs g)

/-- The same for a lane instruction under predicate `q`. -/
def DeadLane (i : Instr) (q : BitVec 3) (regs : List Reg) : Prop := DeadOp i (fun g => some (g.eff q.toNat)) (fun _ _ => regs)

/-- The same for a lane instruction that writes lane register `d`, which it reads where `reads`, or where its write is partial (R99). -/
def DeadInto (i : Instr) (q : BitVec 3) (regs : List Reg) (reads : Bool) (d : BitVec 5) : Prop :=
  DeadOp i (fun g => some (g.eff q.toNat)) (fun _ g => regs ++ pick (reads || g.partialV (vr d) (g.eff q.toNat)) (vr d))

/-- Word `i` acts at `va g`, which is no multiple of `n`: trap 8 with the address (spec/12 R252). -/
def MisalignedOp (i : Instr) (need : Group → Need) (n : Nat) (va : Group → Nat) : Prop :=
  ∀ s k g w, Ready i s k g (need g) → encode i = some w → va g % n ≠ 0 → Handled s g →
    ∃ t, exec i s = .next t ∧ Trapped t k g 8 (BitVec.ofNat 64 (va g)) 0 w g.bundlePc g.bundlePc

/-- An atomic at an address that is no multiple of its width. -/
def MisalignedAtomic (i : Instr) (d b j : BitVec 5) (more : Bool) (n : Nat) : Prop :=
  MisalignedOp i
    (fun g => { needS g ([(sr b, false), (sr j, false), (sr d, false)] ++ pick more (.s (d.toNat + 1), false))
      (if d = 0 then none else some (sr d)) false false with closes := true }) n
    (fun g => ((g.sreg b.toNat).toNat + (g.sreg j.toNat).toNat) % 2 ^ 64)

/-- Word `i` refuses the handle `h g` where `bad` holds: trap 9 with it, no word of the plane being changed (spec/10 R216). -/
def RefusesHandle (i : Instr) (need : Group → Need) (h : Group → Word) (bad : State → Nat → Group → Prop) : Prop :=
  ∀ s k g w, Ready i s k g (need g) → encode i = some w → bad s k g → Handled s g →
    ∃ t, exec i s = .next t ∧ Trapped t k g 9 (h g) 0 w g.bundlePc g.bundlePc ∧
      (t.core g.id.core).plane = (s.core g.id.core).plane

/-- The handle in scalar `a` is none that R216 accepts. -/
def NoHandle (a : BitVec 5) (_ : State) (_ : Nat) (g : Group) : Prop := rectOf (g.sreg a.toNat) = none

/-! ### The words that read registers, by their operands -/

/-- Scalar words of two sources. -/
def scalarPairs : List (BitVec 5 → BitVec 5 → BitVec 5 → Bool → Bool → Bool → Bool → Instr) :=
  [.add, .sub, .and, .or, .xor, .andn, .shl, .shrI, .shrN, .rotl, .rotr, .mul, .mulhI, .mulhN, .minI, .minN, .maxI, .maxN,
   .divI, .divN, .remI, .remN, .addsI, .subsI, .seq, .sne, .sltI, .sltN, .sleI, .sleN, .lea2, .lea4, .lea8, .lea16]

/-- Scalar words of one source. -/
def scalarSingles : List (BitVec 5 → BitVec 5 → Bool → Bool → Bool → Instr) := [.clz, .ctz, .popc, .brev, .bswap, .abs]

/-- Scalar words of one source and an immediate. -/
def scalarImms : List (BitVec 5 → BitVec 5 → Bool → BitVec 11 → Instr) :=
  [.addi, .andi, .ori, .xori, .shli, .shriI, .shriN, .sltiI, .sltiN, .seqi, .muli, .rotli]

/-- Lane words of two lane sources. -/
def lanePairs (w : Wid3) (t : Half) (r : Rm) (x : Bool) :
    List (BitVec 5 → BitVec 5 → BitVec 5 → BitVec 3 → Bool → Bool → Bool → Instr) :=
  [fun d a b q l m e => .vadd w d a b q l m e x, fun d a b q l m e => .vsub w d a b q l m e x,
   fun d a b q l m e => .vmul w d a b q l m e x, fun d a b q l m e => .vshl w d a b q l m e x,
   .vminI w, .vminN w, .vmaxI w, .vmaxN w, .vabsdI w, .vabsdN w, .vavgI w, .vavgN w, .vshrI w, .vshrN w,
   fun d a b q l m e => .vaddI64 d a b q l m e x, fun d a b q l m e => .vsubI64 d a b q l m e x,
   fun d a b q l m e => .vmulI64 d a b q l m e x, fun d a b q l m e => .vshlI64 d a b q l m e x,
   .vminI64, .vminN64, .vmaxI64, .vmaxN64, .vshrI64, .vshrN64, .vand, .vor, .vxor, .vandn,
   .vaddF32 r, .vsubF32 r, .vmulF32 r, .vdivF32 r, .vminF32, .vmaxF32, .vaddHalf t r, .vsubHalf t r, .vmulHalf t r, .vminHalf t,
   .vmaxHalf t, .vqscale r, .vcmulF32, .vcmulcF32, .vcmulBf16, .vlread, .vsubsel]

/-- Lane words of two lane sources that read their destination. -/
def laneTriples (t : Half) (r : Rm) (x : Bool) : List (BitVec 5 → BitVec 5 → BitVec 5 → BitVec 3 → Bool → Bool → Bool → Instr) :=
  [fun d a b q l m e => .vdot4I8 d a b q l m e x, fun d a b q l m e => .vdot4N8 d a b q l m e x,
   fun d a b q l m e => .vdot2I16 d a b q l m e x, fun d a b q l m e => .vdot2N16 d a b q l m e x,
   fun d a b q l m e => .vmadI16 d a b q l m e x, fun d a b q l m e => .vmadI32 d a b q l m e x,
   fun d a b q l m e => .vmadI64 d a b q l m e x, fun d a b q l m e => .vaddminI16 d a b q l m e x,
   fun d a b q l m e => .vaddmaxI16 d a b q l m e x, fun d a b q l m e => .vaddminI32 d a b q l m e x,
   fun d a b q l m e => .vaddmaxI32 d a b q l m e x, fun d a b q l m e => .vfmaF32 r d a b q l m e x,
   fun d a b q l m e => .vfmsF32 r d a b q l m e x, fun d a b q l m e => .vfmaw r d a b q l m e x,
   .vaddminF32, .vaddmaxF32, .vsel, .vfmaHalf t r, .vfnmaHalf t r]

/-- Lane words of one lane source. -/
def laneSingles (w : Wid3) (t : KeyTy) (f : PackForm) (r : Rm) (x : Bool) :
    List (BitVec 5 → BitVec 5 → BitVec 3 → Bool → Bool → Instr) :=
  [fun d a q l e => .vneg w d a q l e x, fun d a q l e => .vabs w d a q l e x, .vnot, .vpopc, .vsqrtF32 r,
   fun d a q l e => .vqpack r d a f q l e x, fun d a q l e => .vqunpack r d a f q l e x, fun d a q l e => .vmatch d a t q l e,
   .vrcp, .vrsqrt, .vsqrtSfu, .vexp2, .vlog2, .vsin, .vcos, .vtanh, .vsigm, .verf,
   .vscanaddI64, .vscanaddF32, .vscanmaxI64, .vmov]

/-- Lane words of a lane source and a scalar. -/
def laneShifts : List (BitVec 5 → BitVec 5 → BitVec 5 → BitVec 3 → Bool → Bool → Bool → Instr) :=
  [.vbflyF32, .vbflyBf16, .vshlx, .vshrx, .vshly, .vshry, .vrotx]

/-- Compares of two lane registers. -/
def laneCompares (w : Wid4) (t : Half) (x : Bool) : List (BitVec 3 → BitVec 5 → BitVec 5 → BitVec 3 → Bool → Bool → Bool → Instr) :=
  [fun d a b q l m e => .vceq w d a b q l m e x, fun d a b q l m e => .vcne w d a b q l m e x,
   fun d a b q l m e => .vclt w d a b q l m e x, fun d a b q l m e => .vcle w d a b q l m e x,
   .vfcltF32, .vfcleF32, .vfceqF32, .vfcltHalf t, .vfcleHalf t, .vfceqHalf t]

/-- Reductions into a scalar. -/
def laneSums : List (BitVec 5 → BitVec 5 → BitVec 3 → Bool → Bool → Instr) :=
  [.vredaddI64, .vredaddF32, .vredminI64, .vredmaxI64, .vredminF32, .vredmaxF32]

/-- Commands of the copy engine and of near memory. -/
noncomputable def commandWords : List (BitVec 5 → BitVec 6 → BitVec 5 → Instr) :=
  [.cpyGp, .cpyPg, .cpyPp, .cpyGg, .nmv, .nmrd, .nmwr, .nmwrm]

/-- Atomics of one datum. -/
noncomputable def atomicWords : List (BitVec 5 → BitVec 5 → BitVec 5 → Bool → Bool → Sc → Instr) :=
  [.aadd, .aand, .aor, .axor, .aminI, .aminN, .amaxI, .amaxN, .aswap]

/-- A prefix or hint (spec/04 R82): where its bundle has no word of its kind yet, the group's bundle is `join` of it and the
group goes on at the next word of the bundle; where it has one, trap 1. -/
def BundleOp (i : Instr) (second : Bundle → Bool) (join : Bundle → Bundle) : Prop :=
  ∀ s k g w, encode i = some w → Issuer s k g → s.slotFree k g w = true → (s.core g.id.core).quiet →
    let b := g.bundle.getD { start := g.pc }
    (second b = false → Does i s k (fun t h => h.bundle = some (join b) ∧ h.pc = g.pc + 4 ∧ h.rptdone = g.rptdone ∧
      h.regs = g.regs ∧ h.alive = g.alive ∧ SameBytes s t)) ∧
    (second b = true → Handled s g → ∃ t, exec i s = .next t ∧ Trapped t k g 1 0 0 w g.bundlePc g.bundlePc)

/-! ### System registers -/

/-- What a write of `v` to a supervisor register by a group of core `core` leaves (spec/04 R80 and the rules that its table
names). -/
def SupWrite (n : Nat) (v : Word) (core : Nat) (s t : State) : Prop :=
  match n with
  | 1024 => t.sup = { s.sup with astable := v &&& 0x000FFFFFFFFFF000 }
  | 1025 => t.sup = { s.sup with barstag := v &&& 0xFFFF }
  | 1026 => t.front = { s.front with qtable := v &&& 0x000FFFFFFFFF0000 }
  | 1027 => ∀ c, c < 96 → (t.cluster c).supCap =
      if bits v 11 8 ≤ 11 ∧ (bits v 6 0 = 127 ∨ bits v 6 0 = c) then BitVec.ofNat 4 (bits v 11 8) else (s.cluster c).supCap
  | 1028 => t.sup.slewctl =
      if 1 ≤ bits v 6 0 ∧ bits v 6 0 ≤ 64 then BitVec.ofNat 64 ((bits v 6 0 + 3) / 4 * 4) else s.sup.slewctl
  | 1029 => t.sup = { s.sup with sysevq := v &&& 0x000FFFFFFFFFF01F }
  | 1030 => t.sup = { s.sup with sysHead := (v >>> 32).setWidth 32 }
  | 1031 => t.sup = { s.sup with preemptsel := v &&& 0xFFFF }
  | 1033 =>
    let x := (s.core core).ras
    let y := (t.core core).ras
    y.corr = (if bits v 15 0 = 0 then x.corr else 0) ∧ y.uncorr = (if bits v 23 16 = 0 then x.uncorr else 0) ∧
      y.repairs = x.repairs ∧ y.degraded = x.degraded ∧
      y.arrayFlt = (x.arrayFlt && !v.getLsbD 33) ∧ y.timingFlt = (x.timingFlt && !v.getLsbD 34)
  | 1034 => t.sup = { s.sup with portsel := v &&& 0x3F }
  | 1035 =>
    let n := bits s.sup.portsel 5 0
    (∀ p, p ≠ n → t.port p = s.port p) ∧ (s.front.locked = true → t.port n = s.port n) ∧
    (n < 36 → s.front.locked = false →
      (t.port n).enable = v.getLsbD 8 ∧
      (v.getLsbD 8 = false → (t.port n).state = .down) ∧
      (v.getLsbD 8 = true → (t.port n).state = if (s.port n).state = .down then .retrain else (s.port n).state) ∧
      (bits v 47 32 ≠ 0 → (t.port n).infaults = 0))
  | 1037 => t.sup = if bits v 4 0 < 24 then { s.sup with bar2map := v &&& 0x11F } else s.sup
  | 1038 => t.sup = { s.sup with peerwin := v &&& 0x1FFFF }
  | _ => False

/-- A write of `v` to system register `n` takes a port out of its recovery into Down: the stores that the recovery held back complete, at
their homes or with poison (spec/24 R426, R427). -/
def PortDrops (s : State) (n : Nat) (v : Word) : Prop :=
  n = 1035 ∧ s.front.locked = false ∧ bits s.sup.portsel 5 0 < 36 ∧ v.getLsbD 8 = false ∧
    ((s.port (bits s.sup.portsel 5 0)).state = .failover ∨ (s.port (bits s.sup.portsel 5 0)).state = .retrain)

/-- The supervisor registers that `SupWrite` covers. -/
def supRegs : List Nat := [1024, 1025, 1026, 1027, 1028, 1029, 1030, 1031, 1033, 1034, 1035, 1037, 1038]

/-- The value that a read of system register `n` gives (R80, spec/07 R151). -/
def sysValues : List (Nat × (State → Group → Word)) :=
  [(0, fun _ g => g.sys.mode), (1, fun _ g => g.sys.fpx),
   (2, fun _ g => BitVec.ofNat 64 (31 + 256 * (6 * g.id.foot - 1))),
   (3, fun _ g => BitVec.ofNat 64 g.groupId), (4, fun s g => BitVec.ofNat 64 (s.teamId g)),
   (8, fun s g => BitVec.ofNat 64 (s.levelId g 0)), (9, fun s g => BitVec.ofNat 64 (s.levelId g 1)),
   (10, fun s g => BitVec.ofNat 64 (s.levelId g 2)), (11, fun s g => BitVec.ofNat 64 (s.levelId g 3)),
   (12, fun s g => BitVec.ofNat 64 (s.levelId g 4)), (13, fun s g => BitVec.ofNat 64 (s.levelId g 5)),
   (14, fun s g => BitVec.ofNat 64 (s.levelId g 6)), (15, fun s g => BitVec.ofNat 64 (s.levelId g 7)),
   (16, fun s g => match s.team g.id.team with | some t => t.tagReady &&& t.tagHeld | none => 0),
   (17, fun _ g => g.sys.rangeflag), (18, fun _ g => g.sys.rangeaddr), (19, fun _ g => g.sys.scrollpos),
   (20, fun _ g => g.sys.remoteerr), (21, fun _ g => g.sys.seed), (22, fun _ g => g.sys.compand),
   (23, fun s g => s.perflvl g.id.core), (24, fun s g => BitVec.ofNat 64 (s.core g.id.core).clk),
   (25, fun s g => BitVec.ofNat 64 ((s.die (dieOf g.id.core)).reftime + Config.refAdvance s.fresh)),
   (26, fun _ g => g.sys.wdlimit), (27, fun _ g => g.sys.fillercyc), (28, fun _ g => g.sys.traprec),
   (1024, fun s _ => s.sup.astable), (1025, fun s _ => s.sup.barstag), (1026, fun s _ => s.front.qtable),
   (1027, fun s g => readPerfcap s g.id.core), (1028, fun s _ => s.sup.slewctl), (1029, fun s _ => s.sup.sysevq),
   (1030, fun s _ => s.sup.sysHead ++ s.sup.sysTail), (1031, fun s _ => s.sup.preemptsel), (1032, fun s _ => s.readPreempt),
   (1033, fun s g => (s.core g.id.core).ras.read), (1034, fun s _ => s.sup.portsel), (1035, fun s _ => s.readPortstat),
   (1036, fun s _ => s.readPortflt), (1037, fun s _ => s.sup.bar2map), (1038, fun s _ => s.sup.peerwin)]

/-- What a write of `v` to one of a group's own system registers leaves of them. -/
def sysWrites : List (Nat × (Word → SysRegs → SysRegs)) :=
  [(0, fun v x => { x with mode := modeAfter x.mode v }),
   (1, fun v x => { x with fpx := v &&& 0x1F }),
   (17, fun v x => { x with rangeflag := v &&& 0x1F }),
   (19, fun v x => { x with scrollpos := v &&& 0x801F1F7F }),
   (20, fun v x => { x with remoteerr := remoteAfter x.remoteerr v }),
   (21, fun v x => { x with seed := v &&& 0xFFFFFFFF, lfsr := if v.setWidth 32 = 0#32 then 1 else v.setWidth 32 }),
   (22, fun v x => { x with compand := v &&& 0x01FFFFFFFFFFFF00 }),
   (26, fun v x => { x with wdlimit := v }),
   (28, fun v x => { x with traprec := v &&& 0x01FFFFFFFFFFFC00 })]

/-! ### Memory instructions -/

/-- The parts of an access of `n` bytes of one lane at `va`, where `f` gives the physical place of each byte offset: one part
where the access is aligned, else one for each byte (spec/15 R313); a load or an atomic at a port in Down is poisoned (spec/24 R425). -/
def partsAt (s : State) (op : AccOp) (f : Nat → Phys) (lane va n : Nat) (data : Word) : List Part :=
  (itemsOf va n).map (fun i =>
    { lane := lane, off := i.1, va := va + i.1, pa := (f i.1).pa, n := i.2, kind := (f i.1).kind, gen := (f i.1).gen
      val := data.toNat / 2 ^ (8 * i.1) % 2 ^ (8 * i.2), poison := s.unreachable op (f i.1).pa })

/-- An access as an instruction of group `g` issues it: with a scope, a load acquires and a store releases, and an atomic does
both unless a hint says which (spec/12 R247, spec/04 R87). -/
structure AccessOf (g : Group) (op : AccOp) (dest : Option Reg) (n : Nat) (sext vol : Bool) (sc : Sc) (parts : List Part)
    (x : Access) : Prop where
  what : x.op = op ∧ x.dest = dest ∧ x.bits = n ∧ x.sext = sext ∧ x.vol = vol ∧ x.ord = g.ord
  scope : x.scope = g.scopeWith sc
  acq : x.acq = (x.scope.isSome && match op with
    | .load => true
    | .atomic _ => g.order != .release
    | _ => false)
  rel : x.rel = (x.scope.isSome && match op with
    | .store => true
    | .atomic _ => g.order != .acquire
    | _ => false)
  parts : x.parts = parts

/-- A scalar access of `n` bytes at `va g`: where every byte translates, the instruction completes, its access is under way, its
destination awaits its value, and no byte of memory has changed. -/
def ScalarAccess (i : Instr) (need : Group → Need) (op : AccOp) (dest : Option Reg) (n : Nat) (sext vol : Bool) (sc : Sc)
    (aligned : Bool) (va : Group → Nat) (data x y : Group → Word) : Prop :=
  ∀ s k g f, Ready i s k g (need g) → (aligned = true → va g % n = 0) → xlatLane s g (wantOf op) (va g) n = .ok f →
    Does i s k (fun t h => Awaiting g (need g) none h ∧ SameBytes s t ∧ ∃ a, h.accs.getLast? = some a ∧
      AccessOf g op dest (8 * n) sext vol sc (partsAt s op f 0 (va g) n (data g)) a ∧ a.x = x g ∧ a.y = y g)

/-- The same for a lane access: lane `l` of the effective mask has its own address and data. -/
def LaneAccess (i : Instr) (need : Group → Need) (q : BitVec 3) (op : AccOp) (dest : Option Reg) (n : Nat) (sext vol : Bool) (sc : Sc)
    (va : Group → Nat → Nat) (data : Group → Nat → Word) : Prop :=
  ∀ s k g (f : Nat → Nat → Phys), Ready i s k g (need g) →
    (∀ l ∈ lanesOf g.lanes (g.eff q.toNat), xlatLane s g (wantOf op) (va g l) n = .ok (f l)) →
    Does i s k (fun t h => Awaiting g (need g) none h ∧ SameBytes s t ∧ ∃ a, h.accs.getLast? = some a ∧
      AccessOf g op dest (8 * n) sext vol sc ((lanesOf g.lanes (g.eff q.toNat)).flatMap (fun l => partsAt s op (f l) l (va g l) n (data g l))) a)

/-- The byte offset of a memory word (R246): IMM5 elements, or an index value. -/
def offset (k : Bool) (n : Nat) (i : BitVec 5) (x : Word) : Nat := if k then n * i.toNat else x.toNat

/-- An atomic (R252): sB + sI, data sD, of 4 bytes where `l`. -/
def AtomicOp (f : AtomOp) (i : BitVec 5 → BitVec 5 → BitVec 5 → Bool → Bool → Sc → Instr) : Prop :=
  ∀ d b j l v sc, ScalarAccess (i d b j l v sc)
    (fun g => { needS g ([(sr b, false), (sr j, false), (sr d, false)] ++ pick (f == .cas) (.s (d.toNat + 1), false))
      (if d = 0 then none else some (sr d)) false false with closes := true })
    (.atomic f) (if d = 0 then none else some (sr d)) (if l then 4 else 8) false v sc true
    (fun g => ((g.sreg b.toNat).toNat + (g.sreg j.toNat).toNat) % 2 ^ 64) (fun _ => 0) (fun g => g.sreg d.toNat)
    (fun g => if f = .cas then g.sreg (d.toNat + 1) else 0)

/-- The record at `a` is not in the core's layout cache, and reads as `r` at its home; it serves tensor accesses, and no
store of the group to it is on its way (R250, R267, R268). -/
structure RecordAt (s : State) (k : Nat) (g : Group) (a : Nat) (r : Record) : Prop where
  sound : s.errs = []
  away : ∀ e ∈ (s.core g.id.core).lcache, ¬(e.asid = g.id.asid ∧ e.addr = a)
  read : readRecord s g.id.core g.id.asid a (!g.id.supv) = .found r
  ok : r.ok a = true ∧ r.etype ≠ 13
  settled : recordPending s k g a = false ∧ s.recordHeld g.id.core g.id.asid a (!g.id.supv) = false

/-- A cache control word: sources read, no effect but time (R254). -/
def CacheOp (i : Instr) (b j : BitVec 5) : Prop :=
  ∀ s k g, Ready i s k g (needS g [(sr b, false), (sr j, false)] none false false) → Leaves i s k (fun h =>
    Framed g (needS g [(sr b, false), (sr j, false)] none false false) none g.sys none h)

/-- The bytes that a view takes together with byte `a`: those of every item written at the next part outward in one step that holds `a`
(spec/15 R313), and `a` alone where there is none. -/
def KeepsItems (v : View) (a : Nat) : Prop :=
  (v.group a).1 ≤ a ∧ a < (v.group a).2 ∧ (v.joins = [] → v.group a = (a, a + 1)) ∧
    ∀ j ∈ v.joins, j.1 ≤ a → a < j.1 + j.2 → (v.group a).1 ≤ j.1 ∧ j.1 + j.2 ≤ (v.group a).2

/-- A part of an access that can take its value: nothing orders it after anything earlier, and nothing on its path is damaged
or poisoned. -/
structure CanPerform (s : State) (k : Nat) (g : Group) (idx : Nat) (a : Access) (p : Part) : Prop where
  group : s.group k = some g
  access : g.accs[idx]? = some a
  parts : a.parts = [p]
  fresh : p.poison = none ∧ p.off = 0
  may : s.mayPerform k g idx 0 a p = true
  sound : s.errs = [] ∧ poisonAt s p.pa p.n = none

/-- Register `r` of group `k`, not s0, can take the value of access `idx`: its rows are cached, memory does not hold its context, and no
other access owes it one. -/
def CanTake (s : State) (k : Nat) (g : Group) (idx : Nat) (r : Reg) : Prop :=
  r ≠ .s 0 ∧ (s.core g.id.core).cached k g.id.foot r = true ∧ g.inMem = false ∧
    (∀ a ∈ dropAt g.accs idx, a.dest ≠ some r) ∧ (∀ a, g.log.access = some a → a.dest ≠ some r)

/-- A number extended to 64 bits as an access says. -/
def extended (a : Access) (v : Nat) : Word := if a.sext then BitVec.ofInt 64 (sval a.bits v) else BitVec.ofNat 64 (v % 2 ^ a.bits)

/-- Byte `a` of the `n` bytes of `v` that lie from `pa`, least significant first. -/
def byteOf (pa v a : Nat) : Byte := BitVec.ofNat 8 (v / 256 ^ (a - pa))

/-! ### The plane -/

/-- System registers `x` of group `g`, key `k`, after accesses of words `ps`: those that the team does not hold are recorded in RANGEFLAG
and RANGEADDR (spec/10 R218), at once unless a scroll that the group has queued records its own before them (R219). -/
def ranged (k : Nat) (g : Group) (x : SysRegs) (c : Core) (src : Nat) (write : Bool) (ps : List Pos) : SysRegs :=
  if c.scrollOf k then x else (rangeNotes c g.id.team src write ps).foldl SysRegs.enter x

/-- The words of the team in the group's core, after an instruction that writes `f p` to some of them: each that the team holds
and that `f` gives a value is live with it (R108, R217); every other word is as it was. -/
def PlaneWrites (s t : State) (g : Group) (f : Pos → Option Word) : Prop :=
  ∀ p, p.exist = true → (t.core g.id.core).word g.id.team p =
    ((s.core g.id.core).word g.id.team p).map (fun w => match f p with
      | some v => { w with val := v, live := true }
      | none => w)

/-- The words of a rectangle. -/
def Rect.Has (r : Rect) (p : Pos) : Prop :=
  (r.x0 : Int) ≤ p.x ∧ p.x < r.x0 + r.w ∧ (r.y0 : Int) ≤ p.y ∧ p.y < r.y0 + r.h ∧ r.z0 ≤ p.z ∧ p.z < r.z0 + r.dc

/-- A reduction over a list of elements, from the first: `f` combines the value so far with element number `i`. -/
def foldElems (f : Nat → Nat → Nat → Nat × Fx) : Nat → Nat → List Nat → Nat × Fx
  | _, v, [] => (v, fxNone)
  | i, v, b :: t =>
    let x := f i v b
    let y := foldElems f (i + 1) x.1 t
    (y.1, x.2 ||| y.2)

/-- The elements `e` of the words of lane `l`'s window of `n` by `n` cells at depth `z`, rows from the lowest y (R221). -/
def windowElems (c : Core) (g : Group) (n : Nat) (z : BitVec 7) (l e : Nat) : List Nat :=
  (windowOffs n).map (fun o => elem 32 (c.pread g.id.team (near l o.1 o.2 z)) e)

/-- A window reduction (R221): `f m u a b` in mode `m` with draw `u`, whose element number is `64 l + 2 i + e`; the result passes
through `last`, which makes a NaN canonical (spec/08 R166). -/
def Window (i : BitVec 5 → BitVec 3 → BitVec 7 → BitVec 3 → Bool → Instr) (rounds : Bool) (last : Nat → Nat × Fx) (f : Rnd → Nat → Nat → Nat → Nat × Fx) : Prop :=
  ∀ d n z q l s k g,
    let need := needV g [] (vr d) false false q.toNat
    let c := s.core g.id.core
    let ps := windowWords g q (windowOffs (n.toNat + 1)) z
    let m := if rounds then g.modeRnd else .rne
    let v := fun j e => match windowElems c g (n.toNat + 1) z j e with
      | [] => (0, fxNone)
      | a :: t =>
        let y := foldElems (fun r a b => f g.modeRnd (g.draw (64 * j + 2 * r + e)) a b) 1 a t
        ((last y.1).1, y.2 ||| (last y.1).2)
    Ready (i d n z q l) s k g need → planeGate s g true ps [] = .pass → Does (i d n z q l) s k (fun t h =>
      Framed g need none (ranged k g (floatSys g q 2 m v) c 0 false (ps.map (·.2))) none h ∧
      LaneElems g d q 32 (fun j e => (v j e).1) h ∧ SameBytes s t ∧
      (l = false → (t.core g.id.core).plane = c.plane) ∧
      (l = true → ∀ p ∈ ps, ∀ w, (t.core g.id.core).word g.id.team p.2 = some w → w.live = false))

/-- An instruction that writes the words of the rectangle of scalar A: `f r p` is the new value of word `p`. -/
def RectWrite (i : Instr) (a : BitVec 5) (srcs : List (Reg × Bool)) (e : Bool) (f : State → Group → Rect → Pos → Word) : Prop :=
  ∀ s k g r,
    let need := { needS g srcs none false e with closes := true }
    Ready i s k g need → rectOf (g.sreg a.toNat) = some r → planeGate s g false [] r.words = .pass →
    Does i s k (fun t h =>
      Framed g need none (ranged k g g.sys (s.core g.id.core) 1 true r.words) none h ∧ SameBytes s t ∧
      (∀ p, r.Has p → ∀ w, (s.core g.id.core).word g.id.team p = some w →
        (t.core g.id.core).word g.id.team p = some { w with val := f s g r p, live := true }) ∧
      (∀ p, ¬ r.Has p → (t.core g.id.core).word g.id.team p = (s.core g.id.core).word g.id.team p))

/-- A scroll enters its core's queue (R226, R227, R230). -/
def ScrollOp (i : BitVec 5 → BitVec 4 → Dir → Edge → BitVec 5 → Instr) (resume : Bool) : Prop :=
  ∀ (h : BitVec 5) (d : BitVec 4) r e (f : BitVec 5) s k g w,
    let need := { needS g ((sr h, false) :: pick (e == .fill) (sr f, false)) none false false with closes := true }
    Ready (i h d r e f) s k g need → encode (i h d r e f) = some w → scrollGate h resume k g s = .pass →
    Does (i h d r e f) s k (fun t g' => Framed g need none g.sys none g' ∧ SameBytes s t ∧
      ∃ x, (t.core g.id.core).scrolls = (s.core g.id.core).scrolls ++ [x] ∧ x.group = k ∧ x.team = g.id.team ∧
        x.handle = g.sreg h.toNat ∧ x.dist = d.toNat ∧ x.dir = r ∧ x.edge = e ∧ x.fill = g.sreg f.toNat ∧ x.resume = resume ∧
        x.z0 = (if resume then bits g.sys.scrollpos 6 0 else bits (g.sreg h.toNat) 38 32) ∧ x.pc = g.bundlePc ∧ x.insn = w)

/-- The cell whose word a scroll moves to cell `p`, before its edge is considered. -/
def scrollSource (d : Dir) (n : Nat) (p : Pos) : Pos :=
  match d with
  | .px => { p with x := p.x - n }
  | .mx => { p with x := p.x + n }
  | .py => { p with y := p.y - n }
  | .my => { p with y := p.y + n }

/-- A cell brought back into a rectangle that wraps around. -/
def Rect.wrapped (r : Rect) (p : Pos) : Pos := ⟨r.x0 + (p.x - r.x0) % r.w, r.y0 + (p.y - r.y0) % r.h, p.z⟩

/-- What word `p` of rectangle `r` receives in a scroll: its liveness, and its value where it is live; a word that the team
does not hold moves as a zero (R227, R228). -/
def scrolledTo (c : Core) (x : Scroll) (r : Rect) (p : Pos) : Bool × Word :=
  let q := scrollSource x.dir x.dist p
  let inside := (r.x0 : Int) ≤ q.x && q.x < r.x0 + r.w && (r.y0 : Int) ≤ q.y && q.y < r.y0 + r.h
  let moved := fun (u : Pos) => match c.word x.team u with
    | some w => (w.live, w.val)
    | none => (true, 0)
  if inside then moved q
  else match x.edge with
    | .wrap => moved (r.wrapped q)
    | .spill => (true, 0)
    | .fill => (true, x.fill)

/-- The word of a rectangle's linear view that holds byte `o`: none beyond the view (R232, spec/12 R253). -/
def viewWord (s : State) (g : Group) (r : Rect) (o : Nat) : Option Pos :=
  if o < 8 * (r.w * r.h * r.dc) then some (r.linear g.skew (s.linKey g.id.team) (o / 8)) else none

/-- System registers of group `g`, key `k`, after a linear-view access of its lanes at the byte offsets `off`: those out of range are
recorded (R218), at once unless a scroll that the group has queued records its own before them (R219). -/
def linearRanged (s : State) (k : Nat) (g : Group) (r : Rect) (write : Bool) (q : BitVec 3) (off : Nat → Nat) : SysRegs :=
  let c := s.core g.id.core
  if c.scrollOf k then g.sys
  else (linearNotes c g.id.team write ((lanesOf g.lanes (g.eff q.toNat)).map (fun n => (off n, viewWord s g r (off n))))).foldl
    SysRegs.enter g.sys

/-! ### Engines -/

/-- Nothing that the group issued is under way, and no store waits in its core or its die. -/
structure Settled (s : State) (k : Nat) (g : Group) : Prop where
  accs : g.accs = []
  late : s.lateOf g.id.core k = []
  waits : (s.core g.id.core).view.wait = [] ∧ (s.die (dieOf g.id.core)).view.wait = []
  scrolls : (s.core g.id.core).scrollOf k = false

/-- No store that waits elsewhere has lent its value to die view `d` (spec/15 R314, R316). -/
def NothingLent (s : State) (d : Nat) : Prop := ∀ a n, s.lentTo d a n = false

/-- A word that waits: its group stays at it with its registers, for the reason `b`, and no byte of memory changes. -/
def Waits (i : Instr) (s : State) (k : Nat) (g : Group) (b : Block) : Prop :=
  Does i s k (fun t h => h.place = g.place ∧ h.regs = g.regs ∧ h.blocked = some b ∧ SameBytes s t)

/-- A command of the copy engine or of near memory (R275, R276, R280): it joins its core's commands with its registers as they are,
and its tag counts it. -/
def CopyOp (i : BitVec 5 → BitVec 6 → BitVec 5 → Instr) (near : Bool) (fn : Nat) : Prop :=
  ∀ a n c s k g w y,
    let need := { needS g ([(.s a.toNat, false), (.s (a.toNat + 1), false), (.s (a.toNat + 2), false)] ++ pick (c != 0) (sr c, false))
      none false false with closes := true }
    Ready (i a n c) s k g need → encode (i a n c) = some w → Settled s k g → (s.core g.id.core).copies.length < 16 →
    ((s.core g.id.core).copies.filter (fun x => x.pa.isSome)).length < 8 → s.team g.id.team = some y → y.tagHeld.getLsbD n.toNat = true →
    (∀ v, s.recordHeld g.id.core g.id.asid v (!g.id.supv) = false) → (∀ v, s.hurtRecord g.id.core g.id.asid v = []) → Does (i a n c) s k (fun t h => Framed g need none g.sys none h ∧ SameBytes s t ∧
      (∃ x, (t.core g.id.core).copies = (s.core g.id.core).copies ++ [x] ∧ x.group = k ∧ x.team = g.id.team ∧ x.near = near ∧
        x.fn = fn ∧ x.tag = n.toNat ∧ x.cw = (if c = 0 then none else some (g.sreg c.toNat)) ∧ x.a = g.sreg a.toNat ∧
        x.b = g.sreg (a.toNat + 1) ∧ x.c = g.sreg (a.toNat + 2) ∧ x.skew = g.skew ∧ x.running = false ∧ x.pc = g.bundlePc ∧ x.insn = w) ∧
      t.team g.id.team = some { y with
        tagReady := setBit y.tagReady n.toNat false
        tagCount := Tab.set y.tagCount n.toNat (Tab.getD y.tagCount n.toNat 0 + 1) })

/-- A word that enters the matrix queue: entry `e`, as `P` says (R298, R302); its group goes on with the system registers `sys`;
where `plain` holds, no byte of any view changes. -/
def MatrixQueued (i : Instr) (s : State) (k : Nat) (g : Group) (n : Need) (sys : SysRegs) (plain : Prop) (P : MEnt → Prop) : Prop :=
  Does i s k (fun t h => Framed g n none sys none h ∧ (plain → SameBytes s t) ∧ (∀ b, homeByte t b = homeByte s b) ∧
    ∃ e, (t.core g.id.core).mq = (s.core g.id.core).mq ++ [e] ∧ e.group = k ∧ e.team = g.id.team ∧ e.skew = g.skew ∧ e.begun = false ∧
      e.busy = 0 ∧ encode i = some e.insn ∧ e.pc = g.bundlePc ∧ P e)

/-- The team of the group holds the `n` accumulator slots from `slot`, and the matrix queue has room. -/
def SlotsHeld (s : State) (g : Group) (slot n : Nat) : Prop :=
  (s.core g.id.core).mq.length < 8 ∧ ∃ y, s.team g.id.team = some y ∧ ∀ i, i < n → y.accHeld.getLsbD (slot + i) = true

/-- An accumulator operation (R300, R301): `rd` where it has a rectangle, `m` the mode of its conversion. -/
def AccQueued (i : Instr) (kind : MKind) (rd : Bool) (h : BitVec 5) (slot n : BitVec 4) (cvt : Nat) (q : BitVec 3) (m : Group → Option Rnd) :
    Prop :=
  ∀ s k g,
    let need := { needS g (pick rd (sr h, false)) none false false with lane := some (tileMask g q 128), closes := true }
    let x := match m g with
      | some r => stepped r g.sys.lfsr
      | none => g.sys.lfsr
    Ready i s k g need → SlotsHeld s g slot.toNat (n.toNat + 1) → (rd = true → (rectOf (g.sreg h.toNat)).isSome = true) →
    MatrixQueued i s k g need { g.sys with lfsr := x } True (fun e =>
      e.kind = kind ∧ e.slot = slot.toNat ∧ e.slots = n.toNat + 1 ∧ (∀ r, r < 128 → e.rows.getLsbD r = bit (g.eff q.toNat) r) ∧
      (rd = true → e.a = g.sreg h.toNat) ∧ e.cvt = cvt ∧ e.sat = flag g.sys.mode 9 ∧ e.lfsr = x ∧ (∀ r, m g = some r → e.mode = r))

/-- What a grant of `v` to the team `y` of group `g` leaves (R137): names and words that it did not hold read zero. -/
def Granted (s t : State) (g : Group) (y : Team) (kd : AcqKind) (v : Word) : Prop :=
  match kd with
  | .pin => True
  | .plane => t.team g.id.team = some y ∧ ∀ r, rectOf v = some r →
    (∀ p, r.Has p → ∃ w, (t.core g.id.core).word g.id.team p = some w ∧ match (s.core g.id.core).word g.id.team p with
      | some o => w = o
      | none => w.val = 0 ∧ w.live = true) ∧
    (∀ p, ¬ r.Has p → (t.core g.id.core).word g.id.team p = (s.core g.id.core).word g.id.team p)
  | .acc => ∃ y', t.team g.id.team = some y' ∧ y'.accHeld = y.accHeld ||| v.setWidth 12 ∧
    ∀ n i j, n < 12 → i < 128 → j < 128 → y'.elem n i j =
      if v.getLsbD n = true ∧ y.accHeld.getLsbD n = false then 0 else y.elem n i j
  | .tag => ∃ y', t.team g.id.team = some y' ∧ y'.tagHeld = y.tagHeld ||| v ∧
    ∀ n, n < 64 → y'.tagReady.getLsbD n = (y.tagReady.getLsbD n && !(v.getLsbD n && !y.tagHeld.getLsbD n))
  | .ring => ∃ y', t.team g.id.team = some y' ∧ y'.ringHeld = y.ringHeld ||| v.setWidth 16 ∧
    ∀ r n, r < 16 → n < 8 → y'.ringPhase r n = (y.ringPhase r n && !(v.getLsbD r && !y.ringHeld.getLsbD r))

/-! ### Queues -/

/-- `pa` is the physical address of the next completion of queue `q`, which can be written there (R50, R51). -/
def CanPost (u : State) (q : Nat) (d : Desc) (pa : Nat) : Prop :=
  readDesc u q = some d ∧ d.ok = true ∧ (u.queue q).due = [] ∧ (u.queue q).holdPost = false ∧
    (∃ p, xlat u noCore d.asid (d.cplbase + 16 * (d.cplnext % d.size)) .write false = .ok p ∧ p.pa = pa) ∧ storePoison u pa 16 = none

/-- Beside `u`, the homes hold the completion with a token and a status at `pa`, and CPLNEXT is one more (R50). -/
def Posted (u t : State) (q : Nat) (d : Desc) (pa : Nat) (token : Word) (status : Nat) : Prop :=
  ∀ b, homeByte t b =
    if descAddr u q + 0x28 ≤ b ∧ b < descAddr u q + 0x30 then byteOf (descAddr u q + 0x28) ((d.cplnext + 1) % 2 ^ 32) b
    else if pa ≤ b ∧ b < pa + 16 then
      byteOf pa (token.toNat + (status + if d.cplnext / d.size % 2 = 0 then 256 else 0) * 2 ^ 64) b
    else homeByte u b

/-- A descriptor whose head entry has been taken. -/
def Desc.taken (d : Desc) : Desc := { d with head := (d.head + 1) % 2 ^ 32 }

/-- The head entry `e` of queue `q` can be taken, and its command processor takes it next (R49, R52). -/
structure Takes (s : State) (q : Nat) (d : Desc) (e : Nat) : Prop where
  head : s.takeable q = some (d, e)
  next : s.chosen q = true
  alone : (s.queue q).taken = []

/-! ### Ports -/

/-- A port that has entered Retrain: the entry is counted (R424, R429). -/
def Retrains (x y : Port) : Prop := y = { x with state := .retrain, retrains := min 0xFFFF (x.retrains + 1), replays := 0 }

/-- The log of an inbound fault: it is counted at its port, the first since the count was cleared keeps its address and cause, and the peer
is answered with an error (R428, R429). -/
def InboundFault (s t : State) (p addr : Nat) (cause : BitVec 4) : Prop :=
  (∀ q, q ≠ p → t.port q = s.port q) ∧
  t.port p = { s.port p with
    infaults := min 0xFFFF ((s.port p).infaults + 1)
    fltAddr := if (s.port p).infaults = 0 then BitVec.ofNat 52 addr else (s.port p).fltAddr
    fltCause := if (s.port p).infaults = 0 then cause else (s.port p).fltCause
    reply := some .error }

/-- A change of port `p`'s state, and nothing else, is reported to the host (R429). -/
def Reported (s t : State) (p : Nat) : Prop :=
  t.front.mgmt = if (t.port p).state = (s.port p).state then s.front.mgmt else s.front.mgmt ++ [(p, (t.port p).state)]

/-! ### Contexts -/

/-- Element `l` of register `r` lies at offset `off` of a context of `foot` sectors (spec/05 R91). -/
def CtxElem (foot : Nat) (r : Reg) (l off : Nat) : Prop :=
  match r with
  | .s n => n < 32 ∧ l = 0 ∧ off = 0x1000 + 8 * n
  | .v n => n < 32 ∧ l < 192 * foot ∧ off = 0x1400 + 0xC000 * (l / 192) + 0x600 * n + 8 * (l % 192)

/-- Handler `g`, group `k`, serves group `x`, which is `y` and stands at its trap; sA is the base of its slot (R386, R387). -/
structure Serves (s : State) (k : Nat) (g : Group) (a : BitVec 5) (x : Nat) (y : Group) : Prop where
  serves : g.id.serves = some x
  group : s.group x = some y
  base : (g.sreg a.toNat).toNat = y.id.base
  state : y.gstate = .handler
  other : x ≠ k

/-- Key `k` stands once among the groups, and keys before it are less. -/
def Only (s : State) (k : Nat) (g : Group) : Prop :=
  ∃ pre post, s.groups = pre ++ (k, g) :: post ∧ (∀ e ∈ pre, e.1 < k) ∧ ∀ e ∈ post, k < e.1

end Sys2Proof.Machine
end

