-- ==== Sys2Proof/Certificates/Slice0/Obligations.lean ====
section
/-!
DEFINITION. The statements for the provers, in the order of OBLIGATIONS.json; the shapes that they are made in stand in Sys2Proof/Safety.lean.
-/

open Sys2Proof Sys2Proof.Machine

/-- R145 to R147, R149, with R144, R72 and R97: the results and the frame of the scalar instructions of format A. -/
def Obligations.ScalarIntegerResults : Prop :=
  Scalar2 .add (fun _ a b => a + b) ∧
  Scalar2 .sub (fun w a b => wrap w ((a : Int) - b)) ∧
  Scalar2 .and (fun _ a b => a &&& b) ∧
  Scalar2 .or (fun _ a b => a ||| b) ∧
  Scalar2 .xor (fun _ a b => a ^^^ b) ∧
  Scalar2 .andn (fun w a b => a &&& (2 ^ w - 1 - b)) ∧
  Scalar2 .shl (fun w a b => a * 2 ^ (b % w)) ∧
  Scalar2 .shrI (fun w a b => wrap w (sval w a / 2 ^ (b % w))) ∧
  Scalar2 .shrN (fun w a b => a / 2 ^ (b % w)) ∧
  Scalar2 .rotl (fun w a b => (a * 2 ^ (b % w) + a / 2 ^ (w - b % w)) % 2 ^ w) ∧
  Scalar2 .rotr (fun w a b => (a * 2 ^ ((w - b % w) % w) + a / 2 ^ (w - (w - b % w) % w)) % 2 ^ w) ∧
  Scalar2 .mul (fun _ a b => a * b) ∧
  Scalar2 .mulhI (fun w a b => wrap w (sval w a * sval w b / 2 ^ w)) ∧
  Scalar2 .mulhN (fun w a b => a * b / 2 ^ w) ∧
  Scalar2 .minI (fun w a b => if sval w a ≤ sval w b then a else b) ∧
  Scalar2 .minN (fun _ a b => min a b) ∧
  Scalar2 .maxI (fun w a b => if sval w a ≤ sval w b then b else a) ∧
  Scalar2 .maxN (fun _ a b => max a b) ∧
  Scalar2 .divI quotI ∧ Scalar2 .divN quotN ∧ Scalar2 .remI remI ∧ Scalar2 .remN remN ∧
  Scalar2 .addsI (fun w a b => clampI w (sval w a + sval w b)) ∧
  Scalar2 .subsI (fun w a b => clampI w (sval w a - sval w b)) ∧
  Scalar2 .seq (fun _ a b => truth (a = b)) ∧
  Scalar2 .sne (fun _ a b => truth (a ≠ b)) ∧
  Scalar2 .sltI (fun w a b => truth (sval w a < sval w b)) ∧
  Scalar2 .sltN (fun _ a b => truth (a < b)) ∧
  Scalar2 .sleI (fun w a b => truth (sval w a ≤ sval w b)) ∧
  Scalar2 .sleN (fun _ a b => truth (a ≤ b)) ∧
  Scalar2 .lea2 (fun _ a b => a + 2 * b) ∧
  Scalar2 .lea4 (fun _ a b => a + 4 * b) ∧
  Scalar2 .lea8 (fun _ a b => a + 8 * b) ∧
  Scalar2 .lea16 (fun _ a b => a + 16 * b) ∧
  Scalar1 .clz leadZeros ∧ Scalar1 .ctz trailZeros ∧ Scalar1 .popc ones ∧ Scalar1 .brev revBits ∧
  Scalar1 .bswap revBytes ∧
  Scalar1 .abs (fun w a => wrap w (sval w a).natAbs)

/-- R148, R149, R147, R150, R152, spec/10 R216: the results and the frame of the scalar instructions with an immediate, the
bit fields, the conditional moves, `mov`, and the handle instructions. -/
def Obligations.ScalarImmediateResults : Prop :=
  ScalarI .addi (fun a i => a + i) ∧
  ScalarI .andi (fun a i => a &&& i) ∧
  ScalarI .ori (fun a i => a ||| i) ∧
  ScalarI .xori (fun a i => a ^^^ i) ∧
  ScalarI .shli (fun a i => a <<< (i.toNat % 64)) ∧
  ScalarI .shriI (fun a i => BitVec.ofInt 64 (a.toInt / 2 ^ (i.toNat % 64))) ∧
  ScalarI .shriN (fun a i => a >>> (i.toNat % 64)) ∧
  ScalarI .sltiI (fun a i => BitVec.ofNat 64 (truth (a.toInt < i.toInt))) ∧
  ScalarI .sltiN (fun a i => BitVec.ofNat 64 (truth (a.toNat < i.toNat))) ∧
  ScalarI .seqi (fun a i => BitVec.ofNat 64 (truth (a = i))) ∧
  ScalarI .muli (fun a i => a * i) ∧
  ScalarI .rotli (fun a i => BitVec.ofNat 64 (a.toNat * 2 ^ (i.toNat % 64) + a.toNat / 2 ^ (64 - i.toNat % 64))) ∧
  (∀ d a l n p, ScalarOut (.bfxI d a l n p) d [(sr a, l)] false false (fun g =>
    sext64 (n.toNat + 1) ((g.sreg a.toNat).toNat / 2 ^ p.toNat))) ∧
  (∀ d a l n p, ScalarOut (.bfxN d a l n p) d [(sr a, l)] false false (fun g =>
    BitVec.ofNat 64 ((g.sreg a.toNat).toNat / 2 ^ p.toNat % 2 ^ (n.toNat + 1)))) ∧
  (∀ d a l n p, ScalarOut (.bfi d a l n p) d [(sr a, l)] true false (fun g =>
    let v := (g.sreg d.toNat).toNat
    BitVec.ofNat 64 (v / 2 ^ (p.toNat + n.toNat + 1) * 2 ^ (p.toNat + n.toNat + 1) +
      (g.sreg a.toNat).toNat % 2 ^ (n.toNat + 1) * 2 ^ p.toNat + v % 2 ^ p.toNat))) ∧
  (∀ d a b l m e x, ScalarMove (.cmovnz d a b l m e x) d a b l m e x (fun b => b ≠ 0)) ∧
  (∀ d a b l m e x, ScalarMove (.cmovz d a b l m e x) d a b l m e x (fun b => b = 0)) ∧
  (∀ d a l e, ScalarOut (.mov d a l e) d [(sr a, l)] false e (fun g => g.sreg a.toNat)) ∧
  (∀ d a b l m e, ScalarOut (.phnd d a b l m e) d [(sr a, l), (sr b, m)] false e (fun g =>
    moveHandle (g.sreg a.toNat) (g.sreg b.toNat))) ∧
  (∀ d a b l m e, ScalarOut (.pclip d a b l m e) d [(sr a, l), (sr b, m)] false e (fun g =>
    clipHandle (g.sreg a.toNat) (g.sreg b.toNat)))

/-- R187 to R189, with R164, R71, R72 and R97: the elements that the element-wise lane integer instructions write, and their
frame. -/
def Obligations.LaneIntegerResults : Prop :=
  (∀ w x, Lane2 (fun d a b q l m e => .vadd w d a b q l m e x) w.bits (fun a b => satI x w.bits (sval w.bits a + sval w.bits b))) ∧
  (∀ w x, Lane2 (fun d a b q l m e => .vsub w d a b q l m e x) w.bits (fun a b => satI x w.bits (sval w.bits a - sval w.bits b))) ∧
  (∀ w x, Lane2 (fun d a b q l m e => .vmul w d a b q l m e x) w.bits (fun a b => satI x w.bits (sval w.bits a * sval w.bits b))) ∧
  (∀ w, Lane2 (.vminI w) w.bits (fun a b => if sval w.bits a ≤ sval w.bits b then a else b)) ∧
  (∀ w, Lane2 (.vminN w) w.bits min) ∧
  (∀ w, Lane2 (.vmaxI w) w.bits (fun a b => if sval w.bits a ≤ sval w.bits b then b else a)) ∧
  (∀ w, Lane2 (.vmaxN w) w.bits max) ∧
  (∀ w, Lane2 (.vabsdI w) w.bits (fun a b => wrap w.bits (sval w.bits a - sval w.bits b).natAbs)) ∧
  (∀ w, Lane2 (.vabsdN w) w.bits (fun a b => max a b - min a b)) ∧
  (∀ w, Lane2 (.vavgI w) w.bits (fun a b => wrap w.bits ((sval w.bits a + sval w.bits b + 1) / 2))) ∧
  (∀ w, Lane2 (.vavgN w) w.bits (fun a b => (a + b + 1) / 2)) ∧
  (∀ w x, Lane2 (fun d a b q l m e => .vshl w d a b q l m e x) w.bits (fun a b => satI x w.bits (sval w.bits a * 2 ^ (b % w.bits)))) ∧
  (∀ w, Lane2 (.vshrI w) w.bits (fun a b => wrap w.bits (sval w.bits a / 2 ^ (b % w.bits)))) ∧
  (∀ w, Lane2 (.vshrN w) w.bits (fun a b => a / 2 ^ (b % w.bits))) ∧
  (∀ w x, Lane1 (fun d a q l e => .vneg w d a q l e x) w.bits (fun a => satI x w.bits (-sval w.bits a))) ∧
  (∀ w x, Lane1 (fun d a q l e => .vabs w d a q l e x) w.bits (fun a => satI x w.bits (sval w.bits a).natAbs)) ∧
  (∀ x, Lane2 (fun d a b q l m e => .vaddI64 d a b q l m e x) 64 (fun a b => satI x 64 (sval 64 a + sval 64 b))) ∧
  (∀ x, Lane2 (fun d a b q l m e => .vsubI64 d a b q l m e x) 64 (fun a b => satI x 64 (sval 64 a - sval 64 b))) ∧
  (∀ x, Lane2 (fun d a b q l m e => .vmulI64 d a b q l m e x) 64 (fun a b => satI x 64 (sval 64 a * sval 64 b))) ∧
  Lane2 .vminI64 64 (fun a b => if sval 64 a ≤ sval 64 b then a else b) ∧
  Lane2 .vminN64 64 min ∧
  Lane2 .vmaxI64 64 (fun a b => if sval 64 a ≤ sval 64 b then b else a) ∧
  Lane2 .vmaxN64 64 max ∧
  (∀ x, Lane2 (fun d a b q l m e => .vshlI64 d a b q l m e x) 64 (fun a b => satI x 64 (sval 64 a * 2 ^ (b % 64)))) ∧
  Lane2 .vshrI64 64 (fun a b => wrap 64 (sval 64 a / 2 ^ (b % 64))) ∧
  Lane2 .vshrN64 64 (fun a b => a / 2 ^ (b % 64)) ∧
  Lane2 .vand 64 (fun a b => a &&& b) ∧
  Lane2 .vor 64 (fun a b => a ||| b) ∧
  Lane2 .vxor 64 (fun a b => a ^^^ b) ∧
  Lane2 .vandn 64 (fun a b => a &&& (2 ^ 64 - 1 - b)) ∧
  Lane1 .vnot 64 (fun a => 2 ^ 64 - 1 - a) ∧
  Lane1 .vpopc 64 (ones 64) ∧
  (∀ w, LaneI (.vaddi w) w.bits (fun a i => wrap w.bits (sval w.bits a + i.toInt))) ∧
  (∀ w, LaneI (.vshli w) w.bits (fun a i => a * 2 ^ i.toNat)) ∧
  (∀ w, LaneI (.vshriI w) w.bits (fun a i => wrap w.bits (sval w.bits a / 2 ^ i.toNat))) ∧
  (∀ w, LaneI (.vshriN w) w.bits (fun a i => a / 2 ^ i.toNat))

/-- R191, R192, with R164, R71, R72 and R97: the elements that the dot products, the multiply-adds, add-and-choose and the bit
choice write. -/
def Obligations.LaneAccumulateResults : Prop :=
  (∀ x, Lane3 (fun d a b q l m e => .vdot4I8 d a b q l m e x) 32 (fun a b d k => accOut true x (sval 32 d +
    (sval 8 (elem 8 a (4 * k)) * sval 8 (elem 8 b (4 * k)) + sval 8 (elem 8 a (4 * k + 1)) * sval 8 (elem 8 b (4 * k + 1)) +
     sval 8 (elem 8 a (4 * k + 2)) * sval 8 (elem 8 b (4 * k + 2)) + sval 8 (elem 8 a (4 * k + 3)) * sval 8 (elem 8 b (4 * k + 3)))))) ∧
  (∀ x, Lane3 (fun d a b q l m e => .vdot4N8 d a b q l m e x) 32 (fun a b d k => accOut false x (((d +
    (elem 8 a (4 * k) * elem 8 b (4 * k) + elem 8 a (4 * k + 1) * elem 8 b (4 * k + 1) +
     elem 8 a (4 * k + 2) * elem 8 b (4 * k + 2) + elem 8 a (4 * k + 3) * elem 8 b (4 * k + 3)) : Nat) : Int)))) ∧
  (∀ x, Lane3 (fun d a b q l m e => .vdot2I16 d a b q l m e x) 32 (fun a b d k => accOut true x (sval 32 d +
    (sval 16 (elem 16 a (2 * k)) * sval 16 (elem 16 b (2 * k)) +
     sval 16 (elem 16 a (2 * k + 1)) * sval 16 (elem 16 b (2 * k + 1)))))) ∧
  (∀ x, Lane3 (fun d a b q l m e => .vdot2N16 d a b q l m e x) 32 (fun a b d k => accOut false x (((d +
    (elem 16 a (2 * k) * elem 16 b (2 * k) + elem 16 a (2 * k + 1) * elem 16 b (2 * k + 1)) : Nat) : Int)))) ∧
  (∀ x, Lane3 (fun d a b q l m e => .vmadI16 d a b q l m e x) 16 (fun a b d k =>
    satI x 16 (sval 16 d + sval 16 (elem 16 a k) * sval 16 (elem 16 b k)))) ∧
  (∀ x, Lane3 (fun d a b q l m e => .vmadI32 d a b q l m e x) 32 (fun a b d k =>
    satI x 32 (sval 32 d + sval 32 (elem 32 a k) * sval 32 (elem 32 b k)))) ∧
  (∀ x, Lane3 (fun d a b q l m e => .vmadI64 d a b q l m e x) 64 (fun a b d k =>
    satI x 64 (sval 64 d + sval 64 (elem 64 a k) * sval 64 (elem 64 b k)))) ∧
  (∀ x, Lane3 (fun d a b q l m e => .vaddminI16 d a b q l m e x) 16 (fun a b d k =>
    let s := satI x 16 (sval 16 (elem 16 a k) + sval 16 (elem 16 b k))
    if sval 16 d ≤ sval 16 s then d else s)) ∧
  (∀ x, Lane3 (fun d a b q l m e => .vaddmaxI16 d a b q l m e x) 16 (fun a b d k =>
    let s := satI x 16 (sval 16 (elem 16 a k) + sval 16 (elem 16 b k))
    if sval 16 d ≤ sval 16 s then s else d)) ∧
  (∀ x, Lane3 (fun d a b q l m e => .vaddminI32 d a b q l m e x) 32 (fun a b d k =>
    let s := satI x 32 (sval 32 (elem 32 a k) + sval 32 (elem 32 b k))
    if sval 32 d ≤ sval 32 s then d else s)) ∧
  (∀ x, Lane3 (fun d a b q l m e => .vaddmaxI32 d a b q l m e x) 32 (fun a b d k =>
    let s := satI x 32 (sval 32 (elem 32 a k) + sval 32 (elem 32 b k))
    if sval 32 d ≤ sval 32 s then s else d)) ∧
  Lane3 .vsel 64 (fun a b d _ => (d &&& a.toNat) ||| ((2 ^ 64 - 1 - d) &&& b.toNat))

/-- R163, R190, R195, with R71 and R180: the bits that the predicate instructions and the compares write, the flags that the
compares of floats raise, and their frame. -/
def Obligations.PredicateResults : Prop :=
  (∀ d a b q, PredOp (.pand d a b q) d q [] false (fun g l => g.pbit a l && g.pbit b l) (fun _ _ => fxNone)) ∧
  (∀ d a b q, PredOp (.por d a b q) d q [] false (fun g l => g.pbit a l || g.pbit b l) (fun _ _ => fxNone)) ∧
  (∀ d a b q, PredOp (.pxor d a b q) d q [] false (fun g l => xor (g.pbit a l) (g.pbit b l)) (fun _ _ => fxNone)) ∧
  (∀ d a b q, PredOp (.pandn d a b q) d q [] false (fun g l => g.pbit a l && !g.pbit b l) (fun _ _ => fxNone)) ∧
  (∀ d a q, PredOp (.pnot d a q) d q [] false (fun g l => !g.pbit a l) (fun _ _ => fxNone)) ∧
  (∀ d a q, PredOp (.pmov d a q) d q [] false (fun g l => g.pbit a l) (fun _ _ => fxNone)) ∧
  (∀ d a q l e, PredOp (.pset d a q l e) d q [(sr a, l)] e (fun g _ => g.sreg a.toNat != 0) (fun _ _ => fxNone)) ∧
  (∀ d a q, PredOp (.pfirst d a q) d q [] false (fun g l => bit (g.eff q.toNat) l && g.pbit a l &&
    (List.range l).all (fun j => !(bit (g.eff q.toNat) j && g.pbit a j))) (fun _ _ => fxNone)) ∧
  (∀ w, LaneCompare (.vceq w) w.bits (· = ·)) ∧
  (∀ w, LaneCompare (.vcne w) w.bits (· ≠ ·)) ∧
  (∀ w, LaneCompare (.vclt w) w.bits (· < ·)) ∧
  (∀ w, LaneCompare (.vcle w) w.bits (· ≤ ·)) ∧
  FloatCompare .f32 .vfcltF32 (Fmt.f32.cmpN Num.lt) ∧
  FloatCompare .f32 .vfcleF32 (Fmt.f32.cmpN Num.le) ∧
  FloatCompare .f32 .vfceqF32 Fmt.f32.cmpEq ∧
  (∀ t, FloatCompare (halfFmt t) (.vfcltHalf t) ((halfFmt t).cmpN Num.lt)) ∧
  (∀ t, FloatCompare (halfFmt t) (.vfcleHalf t) ((halfFmt t).cmpN Num.le)) ∧
  (∀ t, FloatCompare (halfFmt t) (.vfceqHalf t) (halfFmt t).cmpEq)

/-- R155, with R75, R168, R173, R174 and R180: the results of the scalar float instructions, the flags they raise, and the step
of the generator.
Readings and choices of the model that it rests on: log entry 73. -/
def Obligations.ScalarFloatResults : Prop :=
  (∀ r d a b l m e, ScalarFloat (.fadd r d a b l m e) r d [(sr a, l), (sr b, m)] false e
    (fun g k u => Fmt.f32.add k u (g.f32 a) (g.f32 b))) ∧
  (∀ r d a b l m e, ScalarFloat (.fsub r d a b l m e) r d [(sr a, l), (sr b, m)] false e
    (fun g k u => Fmt.f32.sub k u (g.f32 a) (g.f32 b))) ∧
  (∀ r d a b l m e, ScalarFloat (.fmul r d a b l m e) r d [(sr a, l), (sr b, m)] false e
    (fun g k u => Fmt.f32.mul k u (g.f32 a) (g.f32 b))) ∧
  (∀ r d a b l m e, ScalarFloat (.fdiv r d a b l m e) r d [(sr a, l), (sr b, m)] false e
    (fun g k u => Fmt.f32.div k u (g.f32 a) (g.f32 b))) ∧
  (∀ r d a b l m e, ScalarFloat (.ffma r d a b l m e) r d [(sr a, l), (sr b, m)] true e
    (fun g k u => Fmt.f32.fma k u (g.f32 a) (g.f32 b) (g.f32 d) false false)) ∧
  (∀ r d a l e, ScalarFloat (.fsqrt r d a l e) r d [(sr a, l)] false e (fun g k u => Fmt.f32.sqrt k u (g.f32 a))) ∧
  (∀ r d a l e, ScalarFloat (.fcvtF32I64 r d a l e) r d [(sr a, l)] false e
    (fun g k u => Fmt.f32.round (Num.ofInt (g.sreg a.toNat).toInt) k u false)) ∧
  (∀ r d a l e, ScalarFloat (.fcvtI64F32 r d a l e) r d [(sr a, l)] false e
    (fun g k u => roundInt 64 true (Fmt.f32.decode (g.f32 a)) k u))

/-- R192 to R195, R199, R202, R203, with R164, R173, R174 and R180: the elements that the lane float instructions write, the flags
they raise, and the step of the generator.
Readings and choices of the model that it rests on: log entry 73. -/
def Obligations.LaneFloatResults : Prop :=
  Float2 .f32 .vaddF32 Fmt.f32.add ∧ Float2 .f32 .vsubF32 Fmt.f32.sub ∧ Float2 .f32 .vmulF32 Fmt.f32.mul ∧
  Float2 .f32 .vdivF32 Fmt.f32.div ∧
  (∀ r d a q l e, LaneFloat (.vsqrtF32 r d a q l e) d q [(vr a, l)] false e 32 2 (fun g => g.rnd r)
    (fun g j k => Fmt.f32.sqrt (g.rnd r) (g.draw (8 * j + k)) (elem 32 (g.vreg a.toNat j) k))) ∧
  FloatExact .f32 .vminF32 Fmt.f32.min ∧ FloatExact .f32 .vmaxF32 Fmt.f32.max ∧
  (∀ x, Float3 .f32 (fun r d a b q l m e => .vfmaF32 r d a b q l m e x) (fun k u a b d => Fmt.f32.fma k u a b d x false)) ∧
  (∀ x, Float3 .f32 (fun r d a b q l m e => .vfmsF32 r d a b q l m e x) (fun k u a b d => Fmt.f32.fma k u a b d x true)) ∧
  (∀ r d a b q l m e x, LaneFloat (.vfmaw r d a b q l m e x) d q [(vr a, l), (vr b, m)] true e 32 2 (fun g => g.rnd r)
    (fun g j k => fmaWide x (g.rnd r) (g.draw (8 * j + k)) (g.vreg a.toNat j) (g.vreg b.toNat j) k (elem 32 (g.vreg d.toNat j) k))) ∧
  (∀ t, Float2 (halfFmt t) (.vaddHalf t) (halfFmt t).add ∧ Float2 (halfFmt t) (.vsubHalf t) (halfFmt t).sub ∧
    Float2 (halfFmt t) (.vmulHalf t) (halfFmt t).mul ∧
    Float3 (halfFmt t) (.vfmaHalf t) (fun k u a b d => (halfFmt t).fma k u a b d false false) ∧
    Float3 (halfFmt t) (.vfnmaHalf t) (fun k u a b d => (halfFmt t).fma k u a b d true false) ∧
    FloatExact (halfFmt t) (.vminHalf t) (halfFmt t).min ∧ FloatExact (halfFmt t) (.vmaxHalf t) (halfFmt t).max) ∧
  (∀ d a b q l m e, LaneFloat (.vaddminF32 d a b q l m e) d q [(vr a, l), (vr b, m)] true e 32 2 (fun g => g.rnd .mode)
    (fun g j k => addPickF Fmt.f32.min (g.rnd .mode) (g.draw (8 * j + k)) (elem 32 (g.vreg a.toNat j) k)
      (elem 32 (g.vreg b.toNat j) k) (elem 32 (g.vreg d.toNat j) k))) ∧
  (∀ d a b q l m e, LaneFloat (.vaddmaxF32 d a b q l m e) d q [(vr a, l), (vr b, m)] true e 32 2 (fun g => g.rnd .mode)
    (fun g j k => addPickF Fmt.f32.max (g.rnd .mode) (g.draw (8 * j + k)) (elem 32 (g.vreg a.toNat j) k)
      (elem 32 (g.vreg b.toNat j) k) (elem 32 (g.vreg d.toNat j) k))) ∧
  (∀ r d a b q l m e, LaneFloat (.vqscale r d a b q l m e) d q [(vr a, l), (vr b, m)] false e 32 2 (fun g => g.rnd r)
    (fun g j k =>
      let c := elem 32 (g.vreg a.toNat j) k
      let y := Fmt.f32.round ((Fmt.f32.decode c).scale (sval 8 (elem 8 (g.vreg b.toNat j) 0))) (g.rnd r) (g.draw (8 * j + k)) false
      (y.1, y.2 ||| Fmt.f32.sig [c]))) ∧
  ComplexProduct .f32 .vcmulF32 false ∧ ComplexProduct .f32 .vcmulcF32 true ∧ ComplexProduct .bf16 .vcmulBf16 false ∧
  Butterfly .f32 .vbflyF32 ∧ Butterfly .bf16 .vbflyBf16

/-- R204 to R207, R209: the words that the cross-lane reads, the matches, the votes and the lane moves write, and their frame. -/
def Obligations.CrossLaneResults : Prop :=
  (∀ d a b q l m e, LaneWord (.vlread d a b q l m e) d q [(vr a, l), (vr b, m)] e (fun g j =>
    g.cross a.toNat ((g.vreg b.toNat j).toNat % 2 ^ 10))) ∧
  (∀ d a b q l m e, LaneWord (.vshlx d a b q l m e) d q [(vr a, l), (sr b, m)] e (fun g j =>
    if j % 32 + (g.sreg b.toNat).toNat < 32 then g.cross a.toNat (j + (g.sreg b.toNat).toNat) else 0)) ∧
  (∀ d a b q l m e, LaneWord (.vshrx d a b q l m e) d q [(vr a, l), (sr b, m)] e (fun g j =>
    if (g.sreg b.toNat).toNat ≤ j % 32 then g.cross a.toNat (j - (g.sreg b.toNat).toNat) else 0)) ∧
  (∀ d a b q l m e, LaneWord (.vshly d a b q l m e) d q [(vr a, l), (sr b, m)] e (fun g j =>
    g.cross a.toNat (j + 32 * (g.sreg b.toNat).toNat))) ∧
  (∀ d a b q l m e, LaneWord (.vshry d a b q l m e) d q [(vr a, l), (sr b, m)] e (fun g j =>
    if (g.sreg b.toNat).toNat ≤ j / 32 then g.cross a.toNat (j - 32 * (g.sreg b.toNat).toNat) else 0)) ∧
  (∀ d a b q l m e, LaneWord (.vrotx d a b q l m e) d q [(vr a, l), (sr b, m)] e (fun g j =>
    g.cross a.toNat (32 * (j / 32) + (j % 32 + (g.sreg b.toNat).toNat) % 32))) ∧
  (∀ d a b q l m e, LaneOp (.vsubsel d a b q l m e) d q [(vr a, l), (vr b, m)] false e 8 (fun g j k =>
    let c := elem 8 (g.vreg b.toNat j) k
    if 128 ≤ c then 0 else elem 8 (g.vreg a.toNat j) (c % 8))) ∧
  (∀ d a t q l e, LaneOp (.vmatch d a t q l e) d q [(vr a, l)] false e 64 (fun g j _ =>
    bitsOf (fun x => bit (g.eff q.toNat) (j / 32 * 32 + x) &&
      keysMatch t (g.vreg a.toNat j) (g.vreg a.toNat (j / 32 * 32 + x))) 32)) ∧
  (∀ d a q, LaneOp (.vballot d a q) d q [] false false 64 (fun g j _ =>
    bitsOf (fun x => bit (g.eff q.toNat) (j / 32 * 32 + x) && g.pbit a (j / 32 * 32 + x)) 32)) ∧
  (∀ d a q l e, LaneWord (.vmov d a q l e) d q [(vr a, l)] e (fun g j => g.vreg a.toNat j)) ∧
  (∀ d a q l e, LaneWord (.vbcast d a q l e) d q [(sr a, l)] e (fun g _ => g.sreg a.toNat)) ∧
  (∀ d q i, LaneWord (.vmovi d q i) d q [] false (fun _ _ => i.signExtend 64)) ∧
  (∀ d a b l m e, ScalarOut (.vextr d a b l m e) d [(vr a, l), (sr b, m)] false e (fun g =>
    g.cross a.toNat (g.sreg b.toNat).toNat)) ∧
  (∀ d a q, RegOp (.vpcount d a q) (fun g => needL g [] [sr d] false q.toNat) none Group.sys (fun g g' => ScalarValue d
    (BitVec.ofNat 64 ((List.range g.lanes).countP (fun j => bit (g.eff q.toNat) j && g.pbit a j))) g'))

/-- R208, R183: a reduction and a scan combine the lanes of the effective mask; integers combine exactly, so that no order is
seen, and sums of f32 go by the tree, or by the chain of lanes, and draw as the rule says.
Readings and choices of the model that it rests on: log entry 73. -/
def Obligations.ReductionResults : Prop :=
  Reduction .vredaddI64 (fun _ _ _ => fxNone) (fun _ => .rne) (fun q a g v =>
    v = BitVec.ofNat 64 ((lanesOf g.lanes (g.eff q.toNat)).map (fun j => (g.vreg a.toNat j).toNat)).sum) ∧
  Reduction .vredminI64 (fun _ _ _ => fxNone) (fun _ => .rne) (fun q a g v =>
    (∃ j ∈ lanesOf g.lanes (g.eff q.toNat), v = g.vreg a.toNat j) ∧
    ∀ j ∈ lanesOf g.lanes (g.eff q.toNat), v.toInt ≤ (g.vreg a.toNat j).toInt) ∧
  Reduction .vredmaxI64 (fun _ _ _ => fxNone) (fun _ => .rne) (fun q a g v =>
    (∃ j ∈ lanesOf g.lanes (g.eff q.toNat), v = g.vreg a.toNat j) ∧
    ∀ j ∈ lanesOf g.lanes (g.eff q.toNat), (g.vreg a.toNat j).toInt ≤ v.toInt) ∧
  Reduction .vredaddF32 (fun q a g => (g.treeSum q a).2) Group.modeRnd (fun q a g v => v = BitVec.ofNat 64 (g.treeSum q a).1) ∧
  Reduction .vredminF32 (fun q a g => (g.treeF32 q a Fmt.f32.min).2) (fun _ => .rne)
    (fun q a g v => v = BitVec.ofNat 64 (g.treeF32 q a Fmt.f32.min).1) ∧
  Reduction .vredmaxF32 (fun q a g => (g.treeF32 q a Fmt.f32.max).2) (fun _ => .rne)
    (fun q a g v => v = BitVec.ofNat 64 (g.treeF32 q a Fmt.f32.max).1) ∧
  (∀ d a q l e, LaneWord (.vscanaddI64 d a q l e) d q [(vr a, l)] e (fun g j =>
    BitVec.ofNat 64 (((lanesOf g.lanes (g.eff q.toNat)).filter (· ≤ j)).map (fun i => (g.vreg a.toNat i).toNat)).sum)) ∧
  (∀ d a q l e, RegOp (.vscanmaxI64 d a q l e) (fun g => needV g [(vr a, l)] (vr d) false e q.toNat) none Group.sys (fun g g' =>
    ∀ j, bit (g.eff q.toNat) j = true → j < g.lanes →
      (∃ i, i ≤ j ∧ bit (g.eff q.toNat) i = true ∧ g'.vreg d.toNat j = g.vreg a.toNat i) ∧
      ∀ i, i ≤ j → bit (g.eff q.toNat) i = true → (g.vreg a.toNat i).toInt ≤ (g'.vreg d.toNat j).toInt)) ∧
  (∀ d a q l e,
    let run := fun (g : Group) => scanList Fmt.f32.passed (fun i s v => Fmt.f32.add g.modeRnd (g.draw (8 * i)) s v)
      (g.masked q a 32 0) (List.range g.lanes) none
    RegOp (.vscanaddF32 d a q l e) (fun g => needV g [(vr a, l)] (vr d) false e q.toNat) none
      (fun g => { g.sys with
        fpx := g.sys.fpx ||| BitVec.ofNat 64 ((run g).foldl (fun x y => x ||| y.2.2) fxNone).toNat
        lfsr := stepped g.modeRnd g.sys.lfsr })
      (fun g g' => LaneValues g d q (fun j => BitVec.ofNat 64 (Tab.getD (run g) j (0, fxNone)).1) g'))

/-- R196 to R198, with R176 to R180: what `vcvt`, `vqpack` and `vqunpack` write, the flags they raise, and the step of the
generator; with companding, from every state in which the table can be read.
Readings and choices of the model that it rests on: log entry 73. -/
def Obligations.ConversionResults : Prop :=
  (∀ t d a s q l r x, LaneFloat (.vcvt t d a s q l r x) d q [(vr a, l)] false false (NumTy.info t).1
    (64 / max (NumTy.info s).1 (NumTy.info t).1) (fun g => if NumTy.isInt t && NumTy.isInt s then .rne else g.rnd r)
    (fun g j k => cvtElem t s (x || flag g.sys.mode 9) (g.rnd r) (g.draw (8 * j + k)) (elem (NumTy.info s).1 (g.vreg a.toNat j) k))) ∧
  (∀ r d a p q l e x, TableOp (.vqpack r d a p q l e x) d a q l e x (fun g => g.rnd r)
    (fun c g j => packForm p c a q g (g.rnd r) j)) ∧
  (∀ r d a p q l e x, TableOp (.vqunpack r d a p q l e x) d a q l e x (fun g => if x then .rne else g.rnd r)
    (fun c g j => unpackForm p c a g (g.rnd r) j))

/-- R200, R201: a special-function instruction completes with its destination empty, and its results, in the lanes of the
effective mask, wait in the unit's queue; R200's values are the one or the other of the two f32 values that bracket the
function's, of which the spec leaves the choice open.
Readings and choices of the model that it rests on: log entry 57. -/
def Obligations.SpecialFunctionQueued : Prop :=
  SfuQueued .vrcp .rcp ∧ SfuQueued .vrsqrt .rsqrt ∧ SfuQueued .vsqrtSfu .sqrt ∧ SfuQueued .vexp2 .exp2 ∧ SfuQueued .vlog2 .log2 ∧
  SfuQueued .vsin .sin ∧ SfuQueued .vcos .cos ∧ SfuQueued .vtanh .tanh ∧ SfuQueued .vsigm .sigm ∧ SfuQueued .verf .erf

/-- R158, R159, with R82, R83 and R66: where the branches, the calls and the return go on, what a call leaves in its register,
and that nothing else changes. -/
def Obligations.BranchResults : Prop :=
  (∀ o, BranchOp (.br o) o [] (fun _ => True)) ∧
  (∀ r o, BranchOp (.bz r o) o [(sr r, false)] (fun g => g.sreg r.toNat = 0)) ∧
  (∀ r o, BranchOp (.bnz r o) o [(sr r, false)] (fun g => g.sreg r.toNat ≠ 0)) ∧
  (∀ r o, BranchOp (.blt r o) o [(sr r, false)] (fun g => (g.sreg r.toNat).toInt < 0)) ∧
  (∀ r o, BranchOp (.bge r o) o [(sr r, false)] (fun g => 0 ≤ (g.sreg r.toNat).toInt)) ∧
  (∀ r o, BranchOp (.bany r o) o [] (fun g => ∃ l, l < g.lanes ∧ bit g.alive l = true ∧ g.pbit r l = true)) ∧
  (∀ r o, BranchOp (.ball r o) o [] (fun g => ∀ l, l < g.lanes → bit g.alive l = true → g.pbit r l = true)) ∧
  (∀ r o, BranchOp (.bnone r o) o [] (fun g => ∀ l, l < g.lanes → bit g.alive l = true → g.pbit r l = false)) ∧
  (∀ d o, JumpOp (.call d o) (fun g => needS g [] (some (sr d)) false false)
    (fun g => some (g.pc + BitVec.ofInt 64 (4 * o.toInt))) (fun g g' => ScalarValue d (g.pc + 4) g')) ∧
  (∀ d a l e s k g, Ready (.callr d a l e) s k g (needS g [(sr a, l)] (some (sr d)) false e) →
    (g.sreg a.toNat).toNat % 4 = 0 → Leaves (.callr d a l e) s k (fun g' =>
      Framed g (needS g [(sr a, l)] (some (sr d)) false e) none g.sys (some (g.sreg a.toNat)) g' ∧ ScalarValue d (g.pc + 4) g')) ∧
  (∀ a l e s k g, Ready (.ret a l e) s k g (needS g [(sr a, l)] none false e) →
    (g.sreg a.toNat).toNat % 4 = 0 → Leaves (.ret a l e) s k (fun g' =>
      Framed g (needS g [(sr a, l)] none false e) none g.sys (some (g.sreg a.toNat)) g'))

/-- R160, R127, R117: `exit` ends the lanes of its effective mask and keeps every register; `yield` gives up the group's
position where a ready group is pending, and keeps it where none is; `vkill` and `skill` free a range of registers. -/
def Obligations.ExitYieldKill : Prop :=
  (∀ q s k g, Ready (.exit q) s k g { lane := some (g.eff q.toNat), closes := true } → Leaves (.exit q) s k (fun h =>
    (∀ l, l < g.lanes → bit h.alive l = (bit g.alive l && !bit (g.eff q.toNat) l)) ∧
    h.id = g.id ∧ h.regs = g.regs ∧ h.sys = { g.sys with wdcount := h.sys.wdcount } ∧ h.place = g.nextPlace none)) ∧
  (∀ s k g, Ready .yield s k g {} → Does .yield s k (fun t h =>
    h.place = g.nextPlace none ∧ h.regs = g.regs ∧ h.alive = g.alive ∧ SameBytes s t ∧
    (s.readyIn g.id.core .pending = [] → h.gstate = g.gstate ∧ (t.core g.id.core).active = (s.core g.id.core).active) ∧
    (g.gstate = .active → (∀ e ∈ s.groups, e.1 = k → e.2 = g) → (s.core g.id.core).active.count (some k) = 1 →
      (∃ j x, s.group j = some x ∧ x.id.core = g.id.core ∧ x.gstate = .pending ∧ s.teamRuns x = true ∧ x.blocked = none ∧ x.alive ≠ 0) →
      h.gstate = .pending ∧ some k ∉ (t.core g.id.core).active ∧ ∃ j x, j ≠ k ∧ s.group j = some x ∧
        some j ∈ (t.core g.id.core).active ∧ ∃ y, t.group j = some y ∧ y.gstate = .active))) ∧
  (∀ (d a : BitVec 5) s k g,
    let rs := ((List.range 32).filter (fun n => d.toNat ≤ n && n ≤ a.toNat)).map Reg.v
    Ready (.vkill d a) s k g { frees := rs } → d.toNat ≤ a.toNat →
    Leaves (.vkill d a) s k (fun h => Framed g { frees := rs } none g.sys none h ∧
      ∀ n, d.toNat ≤ n → n ≤ a.toNat → h.live (.v n) = false)) ∧
  (∀ (d a : BitVec 5) s k g,
    let rs := ((List.range 32).filter (fun n => n ≠ 0 && d.toNat ≤ n && n ≤ a.toNat)).map Reg.s
    Ready (.skill d a) s k g { frees := rs } → d.toNat ≤ a.toNat →
    Leaves (.skill d a) s k (fun h => Framed g { frees := rs } none g.sys none h ∧
      ∀ n, 0 < n → d.toNat ≤ n → n ≤ a.toNat → h.live (.s n) = false))

/-- R82 to R88: a prefix or hint joins the bundle that its first word opens; the group goes on at the next word of the
bundle, with no register changed; a second word of one kind takes trap 1 at the bundle. -/
def Obligations.BundleWords : Prop :=
  (∀ n d a b st, BundleOp (.rpt n d a b st) (fun x => x.rpt.isSome) (fun x =>
    { x with rpt := some { n := if n = 0 then 64 else n.toNat, d := d, a := a, b := b, stride := 2 ^ st.toNat } })) ∧
  (∀ p, BundleOp (.wide p) (fun x => x.wide.isSome) (fun x => { x with wide := some p })) ∧
  (∀ sc o c e w, encode (.mod sc o c e) = some w → BundleOp (.mod sc o c e) (fun x => x.mod.isSome) (fun x =>
    { x with mod := some { scope := sc, order := o, cache := c, et := e, word := w } })) ∧
  (∀ y p st, BundleOp (.sched y p st) (fun x => x.sched.isSome) (fun x => { x with sched := some (y, p, st) }))

/-- R162, R381 to R386, R401: `trap` is a software trap of code 14 whose INFO0 is its immediate, taken after the instruction:
RETPC is the next word's address, FAULTPC the bundle's; where TRAPEN is 0, or in a handler, the grid ends with status 16. -/
def Obligations.SoftwareTrap : Prop :=
  ∀ n s k g, Ready (.trap n) s k g {} →
    (Handled s g → ∃ t w, exec (.trap n) s = .next t ∧ encode (.trap n) = some w ∧
      Trapped t k g 14 (n.setWidth 64) 0 w (g.nextPlace none).1 g.bundlePc) ∧
    (∀ gr, s.grid g.id.grid = some gr → gr.ended = none → Only s k g → (gr.launch.trapen = false ∨ g.id.hndl = true) →
      ∃ t gr', exec (.trap n) s = .next t ∧ t.grid g.id.grid = some gr' ∧ gr'.ended = some 16 ∧ t.group k = none)

/-- R28, R29, R66, R80, R84, R86, R87, R97, R159, R380 to R383, spec/12 R252, R253, spec/10 R216, R223, R230, spec/06 R133, R139: what
takes a precise trap with no other effect, RETPC and FAULTPC being the bundle.  First a word whose hints or prefix do not apply to it, or
whose privilege or role its group lacks.  Then each word that reads registers, one of which is dead (trap 5, its number and file in
INFO0).  Then a datum at an address or an offset that is no multiple of its width (trap 8, the address or the offset), and a call or a
return to an address that is no multiple of 4 (trap 4, the address).  Then a handle that the rules refuse (trap 9, the handle), with no
word of the plane changed; where the handles of `pcopy` disagree, or both are refused, INFO0 holds that of A.
Readings and choices of the model that it rests on: log entry 96. -/
def Obligations.PreciseTraps : Prop :=
  (∀ i w s k g x, encode i = some w → hintWord i = false → Issuer s k g → s.slotFree k g w = true → s.heldBack w g = none →
      wordTrap w g = some x → Handled s g → (s.core g.id.core).quiet →
      ∃ t, exec i s = .next t ∧ Trapped t k g x.code x.info0 x.info1 w g.bundlePc g.bundlePc) ∧
  -- dead registers of scalar words
  (∀ i ∈ scalarPairs, ∀ d a b l m e x, DeadScalar (i d a b l m e x) (fun _ => [sr a, sr b])) ∧
  (∀ i ∈ scalarSingles, ∀ d a l e x, DeadScalar (i d a l e x) (fun _ => [sr a])) ∧
  (∀ i ∈ scalarImms, ∀ d a l n, DeadScalar (i d a l n) (fun _ => [sr a])) ∧
  (∀ d a l n p, DeadScalar (.bfxI d a l n p) (fun _ => [sr a]) ∧ DeadScalar (.bfxN d a l n p) (fun _ => [sr a]) ∧
    DeadScalar (.bfi d a l n p) (fun _ => [sr a, sr d])) ∧
  (∀ d a b l m e x, DeadScalar (.cmovnz d a b l m e x) (fun _ => [sr a, sr b, sr d]) ∧
    DeadScalar (.cmovz d a b l m e x) (fun _ => [sr a, sr b, sr d])) ∧
  (∀ d a b l m e, DeadScalar (.phnd d a b l m e) (fun _ => [sr a, sr b]) ∧ DeadScalar (.pclip d a b l m e) (fun _ => [sr a, sr b]) ∧
    DeadScalar (.enq d a b l m e) (fun _ => [sr a, sr b]) ∧ DeadScalar (.vextr d a b l m e) (fun _ => [vr a, sr b])) ∧
  (∀ r d a b l m e, DeadScalar (.fadd r d a b l m e) (fun _ => [sr a, sr b]) ∧ DeadScalar (.fsub r d a b l m e) (fun _ => [sr a, sr b]) ∧
    DeadScalar (.fmul r d a b l m e) (fun _ => [sr a, sr b]) ∧ DeadScalar (.fdiv r d a b l m e) (fun _ => [sr a, sr b]) ∧
    DeadScalar (.ffma r d a b l m e) (fun _ => [sr a, sr b, sr d])) ∧
  (∀ r d a l e, DeadScalar (.fsqrt r d a l e) (fun _ => [sr a]) ∧ DeadScalar (.fcvtF32I64 r d a l e) (fun _ => [sr a]) ∧
    DeadScalar (.fcvtI64F32 r d a l e) (fun _ => [sr a])) ∧
  (∀ r o, DeadScalar (.bz r o) (fun _ => [sr r]) ∧ DeadScalar (.bnz r o) (fun _ => [sr r]) ∧ DeadScalar (.blt r o) (fun _ => [sr r]) ∧
    DeadScalar (.bge r o) (fun _ => [sr r])) ∧
  (∀ d a l e, DeadScalar (.mov d a l e) (fun _ => [sr a]) ∧ DeadScalar (.callr d a l e) (fun _ => [sr a]) ∧
    DeadScalar (.ret a l e) (fun _ => [sr a])) ∧
  (∀ d a l h n, DeadScalar (.hwr a l h) (fun _ => [sr a]) ∧ DeadScalar (.hadd d a l h) (fun _ => [sr a]) ∧
    DeadScalar (.swr a l n) (fun _ => [sr a])) ∧
  (∀ a, DeadScalar (.setperf a) (fun _ => [sr a]) ∧ DeadScalar (.setperfV a) (fun _ => [vr a]) ∧ DeadScalar (.tagclr a) (fun _ => [sr a]) ∧
    DeadScalar (.lflush a) (fun _ => [sr a]) ∧ DeadScalar (.pdrop a) (fun _ => [sr a])) ∧
  (∀ d a, DeadScalar (.waitAny d a) (fun _ => [sr a]) ∧ DeadScalar (.waitAll d a) (fun _ => [sr a]) ∧
    DeadScalar (.tagfind d a) (fun _ => [sr a]) ∧ DeadScalar (.grpsusp d a) (fun _ => [sr a]) ∧ DeadScalar (.grpres d a) (fun _ => [sr a])) ∧
  (∀ d a b, DeadScalar (.sret d a b) (fun _ => [sr a, sr b]) ∧ DeadScalar (.asgen d a b) (fun _ => [sr a, sr b])) ∧
  (∀ d a kd, DeadScalar (.acqW a kd) (fun _ => [sr a]) ∧ DeadScalar (.acqF d a kd) (fun _ => [sr a]) ∧ DeadScalar (.rel a kd) (fun _ => [sr a])) ∧
  (∀ d a e l, DeadScalar (.send a e l) (fun _ => [sr a, .s (a.toNat + 1)]) ∧
    DeadScalar (.trysend d a e l) (fun _ => [sr a, .s (a.toNat + 1)])) ∧
  -- of lane words
  (∀ w t r x, ∀ i ∈ lanePairs w t r x, ∀ d a b q l m e, DeadInto (i d a b q l m e) q [vr a, vr b] false d) ∧
  (∀ t r x, ∀ i ∈ laneTriples t r x, ∀ d a b q l m e, DeadInto (i d a b q l m e) q [vr a, vr b] true d) ∧
  (∀ w t f r x, ∀ i ∈ laneSingles w t f r x, ∀ d a q l e, DeadInto (i d a q l e) q [vr a] false d) ∧
  (∀ i ∈ laneShifts, ∀ d a b q l m e, DeadInto (i d a b q l m e) q [vr a, sr b] false d) ∧
  (∀ t d a s q l r x, DeadInto (.vcvt t d a s q l r x) q [vr a] false d) ∧
  (∀ w d a q l n, DeadInto (.vaddi w d a q l n) q [vr a] false d ∧ DeadInto (.vshli w d a q l n) q [vr a] false d ∧
    DeadInto (.vshriI w d a q l n) q [vr a] false d ∧ DeadInto (.vshriN w d a q l n) q [vr a] false d) ∧
  (∀ d a q l e, DeadInto (.vbcast d a q l e) q [sr a] false d) ∧
  (∀ w t x, ∀ i ∈ laneCompares w t x, ∀ d a b q l m e, DeadLane (i d a b q l m e) q [vr a, vr b]) ∧
  (∀ i ∈ laneSums, ∀ d a q l e, DeadLane (i d a q l e) q [vr a]) ∧ (∀ d a q l e, DeadLane (.pset d a q l e) q [sr a]) ∧
  -- of memory words
  (∀ c w d b j l v sc, DeadScalar (.ld c w d b j l v sc) (fun _ => sr b :: pick (!c) (sr j)) ∧
    DeadScalar (.st c w d b j l v sc) (fun _ => sr b :: (pick (!c) (sr j) ++ [sr d]))) ∧
  (∀ c w d b j q l v sc, DeadInto (.vgather c w d b j q l v sc) q (sr b :: pick (!c) (vr j)) false d ∧
    DeadLane (.vscatter c w d b j q l v sc) q (sr b :: (pick (!c) (vr j) ++ [vr d]))) ∧
  (∀ i ∈ atomicWords, ∀ d b j l v sc, DeadScalar (i d b j l v sc) (fun _ => [sr b, sr j, sr d])) ∧
  (∀ d b j l v sc, DeadScalar (.acas d b j l v sc) (fun _ => [sr b, sr j, sr d, .s (d.toNat + 1)]) ∧
    DeadScalar (.aaddf d b j v sc) (fun _ => [sr b, sr j, sr d])) ∧
  (∀ d b j l v sc, DeadOp (.tld d b j v sc) (fun _ => none) (fun s g => (tensorRegs s g b j).map (·.1)) ∧
    DeadOp (.tst d b j l v sc) (fun _ => none) (fun s g => (tensorRegs s g b j).map (·.1) ++ [sr d])) ∧
  (∀ b j, DeadScalar (.pfc b j) (fun _ => [sr b, sr j]) ∧ DeadScalar (.pfd b j) (fun _ => [sr b, sr j]) ∧
    DeadScalar (.cwb b j) (fun _ => [sr b, sr j]) ∧ DeadScalar (.cinv b j) (fun _ => [sr b, sr j]) ∧
    DeadScalar (.cwbinv b j) (fun _ => [sr b, sr j])) ∧
  -- of words on the plane and of engine commands
  (∀ d z q l, DeadLane (.pst d z q l) q [vr d]) ∧
  (∀ a b l m e, DeadScalar (.pzero a l e) (fun _ => [sr a]) ∧ DeadScalar (.pfill a b l m e) (fun _ => [sr a, sr b]) ∧
    DeadScalar (.pcopy a b l m e) (fun _ => [sr a, sr b])) ∧
  (∀ h n r e f, DeadScalar (.scroll h n r e f) (fun _ => sr h :: pick (e == .fill) (sr f)) ∧
    DeadScalar (.scrollResume h n r e f) (fun _ => sr h :: pick (e == .fill) (sr f))) ∧
  (∀ c w d b j q l, DeadInto (.lds c w d b j q l) q (sr b :: pick (!c) (vr j)) false d ∧
    DeadLane (.sts c w d b j q l) q (sr b :: (pick (!c) (vr j) ++ [vr d]))) ∧
  (∀ i ∈ commandWords, ∀ a n c, DeadScalar (i a n c) (fun _ => [.s a.toNat, .s (a.toNat + 1), .s (a.toNat + 2)] ++ pick (c != 0) (sr c))) ∧
  (∀ a n m c q r x, DeadOp (.mma a n m c q r x) (fun g => some (tileMask g q m.rows))
    (fun _ _ => [.s a.toNat, .s (a.toNat + 1), .s (a.toNat + 2)])) ∧
  (∀ h n m c r q, DeadOp (.accld h n m c r q) (fun g => some (tileMask g q 128)) (fun _ _ => [sr h]) ∧
    DeadOp (.accrd h n m c r q) (fun g => some (tileMask g q 128)) (fun _ _ => [sr h])) ∧
  -- misaligned addresses
  (∀ i ∈ atomicWords, ∀ d b j l v sc, MisalignedAtomic (i d b j l v sc) d b j false (if l then 4 else 8)) ∧
  (∀ d b j l v sc, MisalignedAtomic (.acas d b j l v sc) d b j true (if l then 4 else 8) ∧
    MisalignedAtomic (.aaddf d b j v sc) d b j false 4) ∧
  (∀ c w d b j q l s k g x y, encode (.lds c w d b j q l) = some x →
    Ready (.lds c w d b j q l) s k g (needV g ((sr b, false) :: pick (!c) (vr j, false)) (vr d) false false q.toNat) →
    (lanesOf g.lanes (g.eff q.toNat)).find? (fun n => offset c (w.bits / 8) j (g.vreg j.toNat n) % (w.bits / 8) ≠ 0) = some y → Handled s g →
    ∃ t, exec (.lds c w d b j q l) s = .next t ∧
      Trapped t k g 8 (BitVec.ofNat 64 (offset c (w.bits / 8) j (g.vreg j.toNat y))) 0 x g.bundlePc g.bundlePc) ∧
  (∀ c w d b j q l s k g x y, encode (.sts c w d b j q l) = some x →
    Ready (.sts c w d b j q l) s k g
      { needL g ((sr b, false) :: (pick (!c) (vr j, false) ++ [(vr d, l)])) [] false q.toNat with closes := true } →
    (lanesOf g.lanes (g.eff q.toNat)).find? (fun n => offset c (w.bits / 8) j (g.vreg j.toNat n) % (w.bits / 8) ≠ 0) = some y → Handled s g →
    ∃ t, exec (.sts c w d b j q l) s = .next t ∧
      Trapped t k g 8 (BitVec.ofNat 64 (offset c (w.bits / 8) j (g.vreg j.toNat y))) 0 x g.bundlePc g.bundlePc) ∧
  (∀ d a l e s k g w, Ready (.callr d a l e) s k g (needS g [(sr a, l)] (some (sr d)) false e) → encode (.callr d a l e) = some w →
    (g.sreg a.toNat).toNat % 4 ≠ 0 → Handled s g →
    ∃ t, exec (.callr d a l e) s = .next t ∧ Trapped t k g 4 (g.sreg a.toNat) 0 w g.bundlePc g.bundlePc) ∧
  (∀ a l e s k g w, Ready (.ret a l e) s k g (needS g [(sr a, l)] none false e) → encode (.ret a l e) = some w →
    (g.sreg a.toNat).toNat % 4 ≠ 0 → Handled s g →
    ∃ t, exec (.ret a l e) s = .next t ∧ Trapped t k g 4 (g.sreg a.toNat) 0 w g.bundlePc g.bundlePc) ∧
  -- refused handles
  (∀ a l e, RefusesHandle (.pzero a l e) (fun g => { needS g [(sr a, l)] none false e with closes := true })
    (fun g => g.sreg a.toNat) (NoHandle a)) ∧
  (∀ a b l m e, RefusesHandle (.pfill a b l m e) (fun g => { needS g [(sr a, l), (sr b, m)] none false e with closes := true })
    (fun g => g.sreg a.toNat) (NoHandle a)) ∧
  (∀ a b l m e,
    let need := fun g => { needS g [(sr a, l), (sr b, m)] none false e with closes := true }
    RefusesHandle (.pcopy a b l m e) need (fun g => g.sreg a.toNat) (NoHandle a) ∧
    RefusesHandle (.pcopy a b l m e) need (fun g => g.sreg b.toNat) (fun s k g => ¬ NoHandle a s k g ∧ NoHandle b s k g) ∧
    RefusesHandle (.pcopy a b l m e) need (fun g => g.sreg a.toNat) (fun _ _ g => ∃ x y, rectOf (g.sreg a.toNat) = some x ∧
      rectOf (g.sreg b.toNat) = some y ∧ ¬(x.w = y.w ∧ x.h = y.h ∧ x.dc = y.dc))) ∧
  (∀ a, RefusesHandle (.pdrop a) (fun g => { needS g [(sr a, false)] none false false with closes := true })
    (fun g => g.sreg a.toNat) (NoHandle a)) ∧
  (∀ h n r e f,
    let need := fun g => { needS g ((sr h, false) :: pick (e == .fill) (sr f, false)) none false false with closes := true }
    RefusesHandle (.scroll h n r e f) need (fun g => g.sreg h.toNat) (NoHandle h) ∧
    RefusesHandle (.scrollResume h n r e f) need (fun g => g.sreg h.toNat) (fun s k g => NoHandle h s k g ∨
      ∃ x, rectOf (g.sreg h.toNat) = some x ∧ (g.sys.scrollpos.getLsbD 31 = false ∨ bits g.sys.scrollpos 6 0 < x.z0 ∨
        x.z0 + x.dc ≤ bits g.sys.scrollpos 6 0))) ∧
  (∀ c w d b j q l,
    let ok := fun (s : State) (k : Nat) (g : Group) => NoHandle b s k g ∧
      ∀ n ∈ lanesOf g.lanes (g.eff q.toNat), offset c (w.bits / 8) j (g.vreg j.toNat n) % (w.bits / 8) = 0
    RefusesHandle (.lds c w d b j q l) (fun g => needV g ((sr b, false) :: pick (!c) (vr j, false)) (vr d) false false q.toNat)
      (fun g => g.sreg b.toNat) ok ∧
    RefusesHandle (.sts c w d b j q l)
      (fun g => { needL g ((sr b, false) :: (pick (!c) (vr j, false) ++ [(vr d, l)])) [] false q.toNat with closes := true })
      (fun g => g.sreg b.toNat) ok) ∧
  (∀ h n m c r q,
    let need := fun g => { needS g [(sr h, false)] none false false with lane := some (tileMask g q 128), closes := true }
    let bad := fun (s : State) (k : Nat) (g : Group) => NoHandle h s k g ∧ SlotsHeld s g n.toNat (m.toNat + 1)
    RefusesHandle (.accld h n m c r q) need (fun g => g.sreg h.toNat) bad ∧
    RefusesHandle (.accrd h n m c r q) need (fun g => g.sreg h.toNat) bad) ∧
  (∀ d a,
    RefusesHandle (.acqW a .plane) (fun g => { needS g [(sr a, false)] none false false with closes := true }) (fun g => g.sreg a.toNat)
      (fun s k g => NoHandle a s k g ∧ g.blocked ≠ some .granted ∧ g.blocked ≠ some .overran ∧
        ∀ x ∈ (s.core g.id.core).acqWaits, x.group ≠ k) ∧
    RefusesHandle (.acqF d a .plane) (fun g => { needS g [(sr a, false)] (some (sr d)) false false with closes := true })
      (fun g => g.sreg a.toNat) (NoHandle a) ∧
    RefusesHandle (.rel a .plane) (fun g => { needS g [(sr a, false)] none false false with closes := true })
      (fun g => g.sreg a.toNat) (NoHandle a))

/-- R152 to R154: `hrd` reads the value of its clock; `hwr` and `hadd` are on their way until they land, at the end of the next
clock and of the clock after it, `hadd` then leaving the old value in its register. -/
def Obligations.HiveResults : Prop :=
  (∀ d (h : BitVec 4) s k g x, Ready (.hrd d h) s k g (needS g [] (some (sr d)) false false) → s.team g.id.team = some x →
    Leaves (.hrd d h) s k (fun g' => Framed g (needS g [] (some (sr d)) false false) none g.sys none g' ∧
      ScalarValue d (x.hive.getD h.toNat 0) g')) ∧
  (∀ a l (h : BitVec 4) s k g x,
    let n := { needS g [(sr a, l)] none false false with closes := true }
    Ready (.hwr a l h) s k g n → s.team g.id.team = some x →
    Does (.hwr a l h) s k (fun t g' => Kept g n none g.sys none g' ∧ SameBytes s t ∧
      ((∃ y, t.team g.id.team = some y ∧ y.hive.getD h.toNat 0 = g.sreg a.toNat ∧ (t.core g.id.core).hiveW = []) ∨
       (t.team g.id.team = some x ∧ (t.core g.id.core).hiveW =
          [⟨(s.core g.id.core).clk + 1, (s.core g.id.core).position k, g.id.team, k, h.toNat, none, g.sreg a.toNat⟩])))) ∧
  (∀ d a l (h : BitVec 4) s k g x,
    let n := { needS g [(sr a, l)] (some (sr d)) false false with closes := true }
    Ready (.hadd d a l h) s k g n → s.team g.id.team = some x →
    Does (.hadd d a l h) s k (fun t g' => Kept g n none g.sys none g' ∧ SameBytes s t ∧
      ((∃ y, t.team g.id.team = some y ∧ y.hive.getD h.toNat 0 = x.hive.getD h.toNat 0 + g.sreg a.toNat ∧
          ScalarValue d (x.hive.getD h.toNat 0) g' ∧ (t.core g.id.core).hiveW = []) ∨
       (t.team g.id.team = some x ∧ (t.core g.id.core).hiveW =
          [⟨(s.core g.id.core).clk + 2, (s.core g.id.core).position k, g.id.team, k, h.toNat, some d.toNat, g.sreg a.toNat⟩]))))

/-- R80, R150, R151: what `srd` reads, for every register that the table of R80 gives, and what `srdv` writes in every alive lane;
REFTIME advances by an amount that the spec leaves open (log entry 11).
Readings and choices of the model that it rests on: log entries 11 and 12. -/
def Obligations.SystemRegisterReads : Prop :=
  (∀ n v, (n, v) ∈ sysValues → ∀ d s k g,
    let i := Instr.srd d (BitVec.ofNat 11 n)
    Ready i s k g (needS g [] (some (sr d)) false false) → s.stickyWait k g n = none →
    Does i s k (fun t h => Framed g (needS g [] (some (sr d)) false false) none g.sys none h ∧ ScalarValue d (v s g) h ∧
      SameBytes s t)) ∧
  (∀ d, RegOp (.srdv d) (fun g => { needV g [] (vr d) false false 0 with lane := some (g.full &&& g.alive) }) none Group.sys
    (fun g g' => ∀ l, l < g.lanes → bit g.alive l = true → g'.vreg d.toNat l = BitVec.ofNat 64 (l % 32 + 256 * (l / 32))))

/-- R80, R150, R151, with R168, R173, R175, R263, R361, R365, R382, R414, R429 and R430: what `swr` and the writes of registers
leave of the register that they write, reserved bits and values as each register's rule says; no byte of memory changes, but where a
write of PORTSTAT takes a port out of its recovery into Down (R427). -/
def Obligations.SystemRegisterWrites : Prop :=
  (∀ n f, (n, f) ∈ sysWrites → ∀ a l s k g,
    let i := Instr.swr a l (BitVec.ofNat 11 n)
    Ready i s k g (needS g [(sr a, l)] none false false) → s.stickyWait k g n = none →
    Leaves i s k (fun h => Framed g (needS g [(sr a, l)] none false false) none (f (g.sreg a.toNat) g.sys) none h)) ∧
  (∀ n, n ∈ supRegs → ∀ a l s k g,
    let i := Instr.swr a l (BitVec.ofNat 11 n)
    Ready i s k g (needS g [(sr a, l)] none false false) →
    Does i s k (fun t h => SupWrite n (g.sreg a.toNat) g.id.core s t ∧ (¬ PortDrops s n (g.sreg a.toNat) →
      Framed g (needS g [(sr a, l)] none false false) none g.sys none h ∧ SameBytes s t))) ∧
  (∀ n, n ∈ supRegs → ∀ c v s, ∃ t, exec (.registerWrite c (BitVec.ofNat 11 n) v) s = .next t ∧ SupWrite n v c s t ∧
    (¬ PortDrops s n v → SameBytes s t)) ∧
  (∀ v s, (∃ t, exec (.barstagWrite v) s = .next t ∧ SupWrite 1025 v 0 s t) ∧
    (∃ t, exec (.perfcapWrite v) s = .next t ∧ SupWrite 1027 v 0 s t) ∧
    (∃ t, exec (.slewctlWrite v) s = .next t ∧ SupWrite 1028 v 0 s t) ∧
    (∃ t, exec (.sysevptrWrite v) s = .next t ∧ SupWrite 1030 v 0 s t) ∧
    (∀ c, ∃ t, exec (.rasstatWrite c v) s = .next t ∧ SupWrite 1033 v c s t) ∧
    (∃ t, exec (.portstatWrite v) s = .next t ∧ SupWrite 1035 v 0 s t) ∧
    (∃ t, exec (.bar2mapWrite v) s = .next t ∧ SupWrite 1037 v 0 s t) ∧
    (∃ t, exec (.peerwinWrite v) s = .next t ∧ SupWrite 1038 v 0 s t)) ∧
  (∀ k v s g, s.group k = some g → ∃ t h, exec (.seedWrite k v) s = .next t ∧ t.group k = some h ∧
    h.sys = { g.sys with seed := v &&& 0xFFFFFFFF, lfsr := if v.setWidth 32 = 0#32 then 1 else v.setWidth 32 })

/-- R246 to R249, R252, R256, with R104, R247, R313 and R87: a memory instruction whose bytes all translate completes with its
access under way, of the width, the extension, the order and the parts that the rules give; its destination awaits the
value, and memory is unchanged. -/
def Obligations.MemoryAccesses : Prop :=
  (∀ k w d b j l v sc, ScalarAccess (.ld k w d b j l v sc)
    (fun g => { needS g ((sr b, false) :: pick (!k) (sr j, false)) (some (sr d)) false false with closes := v })
    .load (if d = 0 then none else some (sr d)) (w.bits / 8) l v sc false
    (fun g => ((g.sreg b.toNat).toNat + offset k (w.bits / 8) j (g.sreg j.toNat)) % 2 ^ 64) (fun _ => 0) (fun _ => 0) (fun _ => 0)) ∧
  (∀ k w d b j l v sc, ScalarAccess (.st k w d b j l v sc)
    (fun g => { needS g ((sr b, false) :: (pick (!k) (sr j, false) ++ [(sr d, l)])) none false false with closes := true })
    .store none (w.bits / 8) false v sc false
    (fun g => ((g.sreg b.toNat).toNat + offset k (w.bits / 8) j (g.sreg j.toNat)) % 2 ^ 64) (fun g => g.sreg d.toNat)
    (fun _ => 0) (fun _ => 0)) ∧
  (∀ k w d b j q l v sc, LaneAccess (.vgather k w d b j q l v sc)
    (fun g => { needV g ((sr b, false) :: pick (!k) (vr j, false)) (vr d) false false q.toNat with closes := v }) q
    .load (some (vr d)) (w.bits / 8) l v sc
    (fun g n => ((g.sreg b.toNat).toNat + offset k (w.bits / 8) j (g.vreg j.toNat n)) % 2 ^ 64) (fun _ _ => 0)) ∧
  (∀ k w d b j q l v sc, LaneAccess (.vscatter k w d b j q l v sc)
    (fun g => { needL g ((sr b, false) :: (pick (!k) (vr j, false) ++ [(vr d, l)])) [] false q.toNat with closes := true }) q
    .store none (w.bits / 8) false v sc
    (fun g n => ((g.sreg b.toNat).toNat + offset k (w.bits / 8) j (g.vreg j.toNat n)) % 2 ^ 64) (fun g n => g.vreg d.toNat n)) ∧
  AtomicOp .add .aadd ∧ AtomicOp .and .aand ∧ AtomicOp .or .aor ∧ AtomicOp .xor .axor ∧ AtomicOp .minI .aminI ∧
  AtomicOp .minN .aminN ∧ AtomicOp .maxI .amaxI ∧ AtomicOp .maxN .amaxN ∧ AtomicOp .swap .aswap ∧ AtomicOp .cas .acas ∧
  (∀ d b j v sc, ScalarAccess (.aaddf d b j v sc)
    (fun g => { needS g [(sr b, false), (sr j, false), (sr d, false)] (if d = 0 then none else some (sr d)) false false with
      closes := true })
    (.atomic .addf) (if d = 0 then none else some (sr d)) 4 false v sc true
    (fun g => ((g.sreg b.toNat).toNat + (g.sreg j.toNat).toNat) % 2 ^ 64) (fun _ => 0) (fun g => g.sreg d.toNat) (fun _ => 0))

/-- R257, R258, R104: a load whose address does not translate completes, and its access is parked: the log is valid and
holds the cause, the address and the access to make again, its destination awaits the value, and the supervisor is told by an
event of KIND 2.
Readings and choices of the model that it rests on: log entry 23. -/
def Obligations.FaultedAccessParks : Prop :=
  ∀ k0 w d b j l v sc s k g va cause,
    let need := { needS g ((sr b, false) :: pick (!k0) (sr j, false)) (some (sr d)) false false with closes := v }
    let a0 := ((g.sreg b.toNat).toNat + offset k0 (w.bits / 8) j (g.sreg j.toNat)) % 2 ^ 64
    Ready (.ld k0 w d b j l v sc) s k g need → xlatLane s g .read a0 (w.bits / 8) = .error (va, cause) →
    Unwaited s k → Does (.ld k0 w d b j l v sc) s k (fun t h => Awaiting g need none h ∧ h.log.valid = true ∧ h.log.cause = cause ∧
      h.log.faddr = va % 2 ^ 57 ∧ h.log.bundlepc = g.bundlePc ∧ h.log.base = g.sreg b.toNat ∧ h.accs.length = g.accs.length ∧
      (∃ a, h.log.access = some a ∧ a.dest = (if d = 0 then none else some (sr d)) ∧ a.bits = w.bits) ∧
      { kind := 2, core := g.id.core, asid := g.id.asid, base := g.id.base, addr := va % 2 ^ 57, cause := cause } ∈ t.sysev)

/-- R250, R267 to R269: a tensor access whose record is read at its home: outside the bounds a load takes the padding value, and
a store is dropped; inside, the access is under way at the element's address.  Outside the bounds that holds for every order and scope: no
access is kept, and nothing is released or acquired.
Readings and choices of the model that it rests on: log entry 24. -/
def Obligations.TensorAccesses : Prop :=
  (∀ d b j v sc s k g r f,
    let need := { needS g (tensorRegs s g b j) (if d = 0 then none else some (sr d)) false false with closes := v }
    let a := (g.sreg b.toNat).toNat
    let c := tensorCoords j.toNat r (g.sreg j.toNat) (if tensorNext s g b j then g.sreg (j.toNat + 1) else 0)
    Ready (.tld d b j v sc) s k g need → RecordAt s k g a r →
    (r.inb c = false → Does (.tld d b j v sc) s k (fun t h => Kept g need none g.sys none h ∧ ScalarValue d (padValue r) h ∧
      SameBytes s t)) ∧
    (r.inb c = true → xlatLane s g .read (r.addr c) (etypeBits r.etype / 8) = .ok f →
      Does (.tld d b j v sc) s k (fun t h => Awaiting g need none h ∧ SameBytes s t ∧ ∃ x, h.accs.getLast? = some x ∧
        AccessOf g .load (if d = 0 then none else some (sr d)) (etypeBits r.etype) (etypeSigned r.etype) v sc
          (partsAt s .load f 0 (r.addr c) (etypeBits r.etype / 8) 0) x))) ∧
  (∀ d b j l v sc s k g r f,
    let need := { needS g (tensorRegs s g b j ++ [(sr d, l)]) none false false with closes := true }
    let a := (g.sreg b.toNat).toNat
    let c := tensorCoords j.toNat r (g.sreg j.toNat) (if tensorNext s g b j then g.sreg (j.toNat + 1) else 0)
    Ready (.tst d b j l v sc) s k g need → RecordAt s k g a r →
    (r.inb c = false → Does (.tst d b j l v sc) s k (fun t h => Kept g need none g.sys none h ∧ h.accs.length = g.accs.length ∧
      SameBytes s t)) ∧
    (r.inb c = true → xlatLane s g .write (r.addr c) (etypeBits r.etype / 8) = .ok f →
      Does (.tst d b j l v sc) s k (fun t h => Kept g need none g.sys none h ∧ SameBytes s t ∧ ∃ x, h.accs.getLast? = some x ∧
        AccessOf g .store none (etypeBits r.etype) (etypeSigned r.etype) v sc
          (partsAt s .store f 0 (r.addr c) (etypeBits r.etype / 8) (g.sreg d.toNat)) x)))

/-- R251, R254, R270: a cache control word completes with no effect that a program can see but time; `lflush` drops the record's
entry of the core's layout cache, or every entry. -/
def Obligations.CacheControls : Prop :=
  (∀ b j, CacheOp (.pfc b j) b j) ∧ (∀ b j, CacheOp (.pfd b j) b j) ∧ (∀ b j, CacheOp (.cwb b j) b j) ∧
  (∀ b j, CacheOp (.cinv b j) b j) ∧ (∀ b j, CacheOp (.cwbinv b j) b j) ∧
  (∀ b s k g, Ready (.lflush b) s k g (needS g [(sr b, false)] none false false) → Does (.lflush b) s k (fun t h =>
    Framed g (needS g [(sr b, false)] none false false) none g.sys none h ∧ SameBytes s t ∧
    ∀ x, x ∈ (t.core g.id.core).lcache ↔
      x ∈ (s.core g.id.core).lcache ∧ b ≠ 0 ∧ ¬(x.asid = g.id.asid ∧ x.addr = (g.sreg b.toNat).toNat)))

/-- R104, R105, R312, R313, R315, R317, R320, R422: a load that may perform takes its value — the bytes that its core sees, or, where
it acquires at a wider scope, those at that scope's meeting point, or, where it is volatile or strongly ordered, those at the home —
extended as its word says, and its register is full; a plain load changes no byte of any view, and no load one of a home. -/
def Obligations.LoadTakesValue : Prop :=
  ∀ s k g idx a p r, CanPerform s k g idx a p → CanTake s k g idx r → a.op = .load → a.dest = some r →
    earlierStores (g.accs.take idx) p = [] →
    let i := if targetOf p.pa = .host then Instr.hostRequestCompletion k idx 0 .value else .loadReply k idx 0 .value
    ∃ t h, exec i s = .next t ∧ t.group k = some h ∧ h.empty r = false ∧ h.accs = dropAt g.accs idx ∧
      (∀ b, homeByte t b = homeByte s b) ∧ (a.atHome p = false → a.acq = false → SameBytes s t) ∧
      h.value r p.lane = extended a (readLe
        (if a.atHome p = true then homeByte s
        else if a.acq = false then coreByte s g.id.core
        else match a.scopeOf with
          | .group | .team => coreByte s g.id.core
          | .cluster | .die => dieByte s (dieOf g.id.core)
          | .device | .system => homeByte s) p.pa p.n)

/-- R262, R263, R422, R426: a host request that fails, or an access of a host or a peer that is not answered in time, completes
with poison: its register reads all ones, and REMOTEERR keeps the address of the access and the cause. -/
def Obligations.PoisonedCompletion : Prop :=
  ∀ s k g idx a p r, s.group k = some g → g.accs[idx]? = some a → a.parts = [p] → s.inOrder k g idx 0 a p = true → p.off = 0 →
    CanTake s k g idx r → a.op = .load → a.dest = some r → g.noted ≠ some (a.ord, p.lane, p.accVa) → g.sys.remoteerr.getLsbD 63 = false →
    (targetOf p.pa = .host → ∃ t h, exec (.hostRequestCompletion k idx 0 .error) s = .next t ∧ t.group k = some h ∧
      h.value r p.lane = extended a (2 ^ a.bits - 1) ∧ h.empty r = false ∧
      h.sys.remoteerr.getLsbD 63 = true ∧ bits h.sys.remoteerr 56 0 = p.accVa % 2 ^ 57 ∧ bits h.sys.remoteerr 59 57 = 3) ∧
    (farTarget p.pa = true → ∃ t h, exec (.remoteAccessTimeout k idx 0) s = .next t ∧ t.group k = some h ∧
      h.value r p.lane = extended a (2 ^ a.bits - 1) ∧ h.empty r = false ∧
      h.sys.remoteerr.getLsbD 63 = true ∧ bits h.sys.remoteerr 56 0 = p.accVa % 2 ^ 57 ∧ bits h.sys.remoteerr 59 57 = 2)

/-- R312, R313: a store that leaves a store buffer is seen by its core alone; pushed outward, by its die, then at the home; no other
byte of any view changes; a refreshed byte takes the value of the next part outward, with the bytes of the items that were written there
in one step with it, but for those that a waiting store holds.
Readings and choices of the model that it rests on: log entry 81. -/
def Obligations.StoreViews : Prop :=
  (∀ s k j g n i a p, s.group k = some g → g.storeParts[j]? = some (n, i) → g.accs[n]? = some a → a.parts[i]? = some p →
    s.mayPerform k g n i a p = true → p.poison = none → p.kind ≠ .so → a.rel = false → a.acq = false → a.vol = false → a.isStore = true →
    ∃ t, exec (.storeDrain k j) s = .next t ∧
      (∀ b, homeByte t b = homeByte s b) ∧ (∀ d b, dieByte t d b = dieByte s d b) ∧
      ∀ c b, coreByte t c b = if c = g.id.core ∧ p.pa ≤ b ∧ b < p.pa + p.n then byteOf p.pa p.val b else coreByte s c b) ∧
  (∀ s c idx x, c < 576 → s.errs = [] → (s.core c).view.wait[idx]? = some x →
    (∀ y ∈ (s.core c).view.wait.take idx, y.overlap x = false) → s.lentTo (dieOf c) x.pa x.bytes.length = false →
    (∀ y ∈ s.lenders, y.near x = true → s.barred false (fun _ => false) y = false) →
    ∃ t, exec (.storePush (.core c) idx) s = .next t ∧
      (∀ b, homeByte t b = homeByte s b) ∧ (∀ e b, coreByte t e b = coreByte s e b) ∧
      (∀ d b, dieByte t d b = if d = dieOf c ∧ x.pa ≤ b ∧ b < x.pa + x.bytes.length then x.bytes.getD (b - x.pa) 0
        else dieByte s d b) ∧
      (t.core c).view.wait = dropAt (s.core c).view.wait idx ∧
      (t.die (dieOf c)).view.wait = (s.die (dieOf c)).view.wait ++ [x]) ∧
  (∀ s d idx x, d < 24 → s.errs = [] → (s.die d).view.wait[idx]? = some x →
    (∀ y ∈ (s.die d).view.wait.take idx, y.overlap x = false) → s.barred false (fun _ => false) x = false →
    storePoison s x.pa x.bytes.length = none → ∃ t, exec (.storePush (.die d) idx) s = .next t ∧
      (∀ c b, c < 576 → coreByte t c b = coreByte s c b) ∧ (∀ e b, e < 24 → dieByte t e b = dieByte s e b) ∧
      (∀ b, homeByte t b = if x.pa ≤ b ∧ b < x.pa + x.bytes.length then x.bytes.getD (b - x.pa) 0 else homeByte s b) ∧
      (t.die d).view.wait = dropAt (s.die d).view.wait idx) ∧
  (∀ s c a, KeepsItems (s.core c).view a ∧ ∃ t, exec (.viewRefresh (.core c) a) s = .next t ∧
      (∀ b, homeByte t b = homeByte s b) ∧ (∀ d b, dieByte t d b = dieByte s d b) ∧
      ∀ e b, coreByte t e b =
        if e = c ∧ ((s.core c).view.group a).1 ≤ b ∧ b < ((s.core c).view.group a).2 ∧ (∀ y ∈ (s.core c).view.wait, y.meets b 1 = false) then
          dieByte s (dieOf c) b
        else coreByte s e b) ∧
  (∀ s d a, KeepsItems (s.die d).view a ∧ ∃ t, exec (.viewRefresh (.die d) a) s = .next t ∧
      (∀ b, homeByte t b = homeByte s b) ∧ (∀ e b, coreByte t e b = coreByte s e b) ∧
      ∀ e b, dieByte t e b =
        if e = d ∧ ((s.die d).view.group a).1 ≤ b ∧ b < ((s.die d).view.group a).2 ∧ (∀ y ∈ (s.die d).view.wait, y.meets b 1 = false) ∧
          s.lentTo d b 1 = false then homeByte s b
        else dieByte s e b)

/-- R252, R326: an atomic performs at the home in one step: its register takes the old value, the home holds the new one, and no
other byte of the home changes. -/
def Obligations.AtomicAtHome : Prop :=
  ∀ s k g idx a p r f, CanPerform s k g idx a p → CanTake s k g idx r → a.op = .atomic f → a.dest = some r → a.sext = false →
    a.bits = 8 * p.n → a.rel = false → a.acq = false → (∃ h, targetOf p.pa = .heap h) →
    (s.core g.id.core).view.wait = [] → (s.die (dieOf g.id.core)).view.wait = [] → s.lentTo (dieOf g.id.core) p.pa p.n = false →
    (∀ b ∈ g.accs.take idx, b.ord ≠ a.ord) →
    ∃ t h, exec (.loadReply k idx 0 .value) s = .next t ∧ t.group k = some h ∧
      h.value r p.lane = BitVec.ofNat 64 (readLe (homeByte s) p.pa p.n) ∧ h.empty r = false ∧
      ∀ b, homeByte t b = if p.pa ≤ b ∧ b < p.pa + p.n then
          byteOf p.pa (atomNew f a.bits (readLe (homeByte s) p.pa p.n) (a.x.toNat % 2 ^ a.bits) (a.y.toNat % 2 ^ a.bits)).1 b
        else homeByte s b

/-- R217, R218, R220, R221, R108: what the window instructions read and write, the out-of-range accesses that they record, and
what a last-use mark drops.
Readings and choices of the model that it rests on: log entry 73. -/
def Obligations.WindowResults : Prop :=
  (∀ (d : BitVec 5) (x y : BitVec 3) z q l s k g,
    let need := needV g [] (vr d) false false q.toNat
    let c := s.core g.id.core
    let ps := windowWords g q [(x.toInt, y.toInt)] z
    Ready (.pld d x y z q l) s k g need → planeGate s g true ps [] = .pass → Does (.pld d x y z q l) s k (fun t h =>
      Framed g need none (ranged k g g.sys c 0 false (ps.map (·.2))) none h ∧
      LaneValues g d q (fun j => c.pread g.id.team ⟨(j % 32 : Nat) + x.toInt, (j / 32 : Nat) + y.toInt, z.toNat⟩) h ∧ SameBytes s t ∧
      (l = false → (t.core g.id.core).plane = c.plane) ∧
      (l = true → ∀ p ∈ ps, ∀ w, (t.core g.id.core).word g.id.team p.2 = some w → w.live = false))) ∧
  (∀ (d : BitVec 5) z q l s k g,
    let need := { needL g [(vr d, l)] [] false q.toNat with closes := true }
    let ps := (windowWords g q [(0, 0)] z).map (·.2)
    Ready (.pst d z q l) s k g need → planeGate s g true [] ps = .pass → Does (.pst d z q l) s k (fun t h =>
      Framed g need none (ranged k g g.sys (s.core g.id.core) 0 true ps) none h ∧ SameBytes s t ∧
      PlaneWrites s t g (fun p =>
        let j := (32 * p.y + p.x).toNat
        if p.z = z.toNat ∧ j < g.lanes ∧ bit (g.eff q.toNat) j = true then some (g.vreg d.toNat j) else none))) ∧
  Window .pwinSumI32 false (fun v => (v, fxNone)) (fun _ _ a b => ((a + b) % 2 ^ 32, fxNone)) ∧
  Window .pwinSumF32 true Fmt.f32.passed Fmt.f32.add ∧
  Window .pwinMaxI32 false (fun v => (v, fxNone)) (fun _ _ a b => (if sval 32 b ≤ sval 32 a then a else b, fxNone)) ∧
  Window .pwinMinI32 false (fun v => (v, fxNone)) (fun _ _ a b => (if sval 32 a ≤ sval 32 b then a else b, fxNone)) ∧
  Window .pwinMaxF32 false Fmt.f32.passed (fun _ _ a b => Fmt.f32.max a b) ∧
  Window .pwinMinF32 false Fmt.f32.passed (fun _ _ a b => Fmt.f32.min a b)

/-- R223 to R225, R118, R108, R217: what the rectangle instructions leave in the words that the team holds, and that no other word
changes. -/
def Obligations.RectangleResults : Prop :=
  (∀ a l e, RectWrite (.pzero a l e) a [(sr a, l)] e (fun _ _ _ _ => 0)) ∧
  (∀ a b l m e, RectWrite (.pfill a b l m e) a [(sr a, l), (sr b, m)] e (fun _ g _ _ => g.sreg b.toNat)) ∧
  (∀ a b l m e s k g r u,
    let need := { needS g [(sr a, l), (sr b, m)] none false e with closes := true }
    Ready (.pcopy a b l m e) s k g need → rectOf (g.sreg a.toNat) = some r → rectOf (g.sreg b.toNat) = some u →
    u.w = r.w → u.h = r.h → u.dc = r.dc → planeGate s g false (u.words.map (fun p => (0, p))) r.words = .pass →
    Does (.pcopy a b l m e) s k (fun t h => Kept g need none h.sys none h ∧ SameBytes s t ∧
      (∀ p, r.Has p → ∀ w, (s.core g.id.core).word g.id.team p = some w →
        (t.core g.id.core).word g.id.team p = some { w with
          val := (s.core g.id.core).pread g.id.team ⟨p.x - r.x0 + u.x0, p.y - r.y0 + u.y0, p.z - r.z0 + u.z0⟩, live := true }) ∧
      (∀ p, ¬ r.Has p → (t.core g.id.core).word g.id.team p = (s.core g.id.core).word g.id.team p))) ∧
  (∀ a s k g r,
    let need := { needS g [(sr a, false)] none false false with closes := true }
    Ready (.pdrop a) s k g need → rectOf (g.sreg a.toNat) = some r → (s.core g.id.core).scrolled r.keys = false →
    (s.core g.id.core).scrollOf k = false → Does (.pdrop a) s k (fun t h => Framed g need none (ranged k g g.sys (s.core g.id.core) 1 true r.words) none h ∧ SameBytes s t ∧
      (∀ p, r.Has p → ∀ w, (t.core g.id.core).word g.id.team p = some w → w.live = false) ∧
      (∀ p, ¬ r.Has p → (t.core g.id.core).word g.id.team p = (s.core g.id.core).word g.id.team p)))

/-- R226 to R230: a scroll enters the queue of its core; the spindle performs the queue's first scroll: each word of its
rectangle that the team holds receives the word at its distance against the direction, or what its edge mode gives. -/
def Obligations.ScrollResults : Prop :=
  ScrollOp .scroll false ∧ ScrollOp .scrollResume true ∧
  (∀ s c x rest r, s.errs = [] → (s.core c).scrolls = x :: rest → rectOf x.handle = some r → r.z0 ≤ x.z0 → x.z0 < r.z0 + r.dc →
    (∀ p w, r.Has p → (s.core c).word x.team p = some w → w.clr = false) → (s.die (dieOf c)).rebuilds = [] →
    (s.core c).acqWaits = [] → ∃ t, exec (.scrollExecute c) s = .next t ∧ (t.core c).scrolls = rest ∧ SameBytes s t ∧
      (∀ p w, r.Has p → x.z0 ≤ p.z → (s.core c).word x.team p = some w → ∃ w', (t.core c).word x.team p = some w' ∧
        w'.live = (scrolledTo (s.core c) x r p).1 ∧ (w'.live = true → w'.val = (scrolledTo (s.core c) x r p).2)) ∧
      (∀ p, ¬ (r.Has p ∧ x.z0 ≤ p.z) → (t.core c).word x.team p = (s.core c).word x.team p))

/-- R232, R253, R218: a linear-view load takes its lanes' elements from the words of the view, zero beyond it or where the team does not
hold the word, and delivers them as a load does; a store writes its element of each word that the team holds, in ascending order of the
lanes, the other elements of a dead word becoming zero; no other word changes, and lanes out of range are recorded.
Readings and choices of the model that it rests on: log entry 4. -/
def Obligations.LinearViewResults : Prop :=
  (∀ k0 w d b j q l s k g r,
    let need := needV g ((sr b, false) :: pick (!k0) (vr j, false)) (vr d) false false q.toNat
    let off := fun n => offset k0 (w.bits / 8) j (g.vreg j.toNat n)
    Ready (.lds k0 w d b j q l) s k g need → rectOf (g.sreg b.toNat) = some r → linGate k0 w b j q false k g s = .pass →
    Does (.lds k0 w d b j q l) s k (fun t h => Kept g need none (linearRanged s k g r false q off) none h ∧ SameBytes s t ∧
      h.empty (vr d) = true ∧ h.live (vr d) = true ∧ (t.core g.id.core).plane = (s.core g.id.core).plane ∧
      ∃ a, h.accs.getLast? = some a ∧ a.op = .plane ∧ a.dest = some (vr d) ∧ a.bits = w.bits ∧ a.sext = l ∧
        a.parts.map (fun p => (p.lane, p.off, p.val, p.done)) = (lanesOf g.lanes (g.eff q.toNat)).map (fun n => (n, 0,
          (match viewWord s g r (off n) with
            | some p => elem w.bits ((s.core g.id.core).pread g.id.team p) (off n % 8 / (w.bits / 8))
            | none => 0), false)))) ∧
  (∀ k idx g a p r s y, s.group k = some g → g.accs[idx]? = some a → a.parts = [p] → a.op = .plane → a.dest = some r → p.done = false →
    p.poison = none → p.off = 0 → a.acq = false → CanTake s k g idx r → ∃ t h, exec (.loadReply k idx 0 y) s = .next t ∧ t.group k = some h ∧
      h.value r p.lane = extended a p.val ∧ h.empty r = false ∧ SameBytes s t) ∧
  (∀ k0 w d b j q l s k g r,
    let need := { needL g ((sr b, false) :: (pick (!k0) (vr j, false) ++ [(vr d, l)])) [] false q.toNat with closes := true }
    let off := fun n => offset k0 (w.bits / 8) j (g.vreg j.toNat n)
    let lanes := lanesOf g.lanes (g.eff q.toNat)
    Ready (.sts k0 w d b j q l) s k g need → rectOf (g.sreg b.toNat) = some r → linGate k0 w b j q true k g s = .pass →
    Does (.sts k0 w d b j q l) s k (fun t h => Kept g need none (linearRanged s k g r true q off) none h ∧ SameBytes s t ∧
      (∀ p : Pos, (t.core g.id.core).word g.id.team p = ((s.core g.id.core).word g.id.team p).map (fun x =>
        let hits := lanes.filter (fun n => viewWord s g r (off n) = some p)
        if hits = [] then x
        else { x with
          live := true
          val := pack w.bits (fun e => match (hits.filter (fun n => off n % 8 / (w.bits / 8) = e)).getLast? with
            | some n => elem w.bits (g.vreg d.toNat n) 0
            | none => if x.live then elem w.bits x.val e else 0) })) ∧
      ∀ key x, Tab.get (s.core g.id.core).plane key = some x → x.own ≠ g.id.team → Tab.get (t.core g.id.core).plane key = some x))

/-- R275, R276, R280 to R282, R288: a command joins its core's commands with its registers as they are, its tag counts it and is not
ready; a command on a tag that the team does not hold takes trap 10. -/
def Obligations.CopyCommands : Prop :=
  CopyOp .cpyGp false 0 ∧ CopyOp .cpyPg false 1 ∧ CopyOp .cpyPp false 2 ∧ CopyOp .cpyGg false 3 ∧
  CopyOp .nmv true 0 ∧ CopyOp .nmrd true 1 ∧ CopyOp .nmwr true 2 ∧ CopyOp .nmwrm true 3 ∧
  (∀ i ∈ commandWords, ∀ a n c s k g w y,
    let need := { needS g ([(.s a.toNat, false), (.s (a.toNat + 1), false), (.s (a.toNat + 2), false)] ++ pick (c != 0) (sr c, false))
      none false false with closes := true }
    Ready (i a n c) s k g need → encode (i a n c) = some w → (s.core g.id.core).copies.length < 16 →
    ((s.core g.id.core).copies.filter (fun x => x.pa.isSome)).length < 8 → s.team g.id.team = some y →
    y.tagHeld.getLsbD n.toNat = false → Handled s g → ∃ t, exec (i a n c) s = .next t ∧
      Trapped t k g 10 (BitVec.ofNat 64 (1 + n.toNat * 256)) 0 w g.bundlePc g.bundlePc)

/-- R280, R281: what the tag words answer and when they wait; `tagclr` clears ready bits. -/
def Obligations.TagWaits : Prop :=
  (∀ d a s k g y, let need := needS g [(sr a, false)] (some (sr d)) false false
    let m := g.sreg a.toNat &&& (y.tagReady &&& y.tagHeld)
    Ready (.waitAny d a) s k g need → s.team g.id.team = some y →
    (m ≠ 0 → Leaves (.waitAny d a) s k (fun h => Framed g need none g.sys none h ∧ ScalarValue d m h)) ∧
    (m = 0 → Waits (.waitAny d a) s k g (.tagAny (g.sreg a.toNat)))) ∧
  (∀ d a s k g y, let need := needS g [(sr a, false)] (some (sr d)) false false
    let m := g.sreg a.toNat &&& (y.tagReady &&& y.tagHeld)
    Ready (.waitAll d a) s k g need → s.team g.id.team = some y →
    (m = g.sreg a.toNat → Leaves (.waitAll d a) s k (fun h => Framed g need none g.sys none h ∧ ScalarValue d m h)) ∧
    (m ≠ g.sreg a.toNat → Waits (.waitAll d a) s k g (.tagAll (g.sreg a.toNat)))) ∧
  (∀ d a s k g y, let need := needS g [(sr a, false)] (some (sr d)) false false
    let m := g.sreg a.toNat &&& (y.tagReady &&& y.tagHeld)
    Ready (.tagfind d a) s k g need → s.team g.id.team = some y → Leaves (.tagfind d a) s k (fun h => Framed g need none g.sys none h ∧
      (m = 0 → ScalarValue d 64 h) ∧
      ∀ n, n < 64 → m.getLsbD n = true → (∀ j, j < n → m.getLsbD j = false) → ScalarValue d (BitVec.ofNat 64 n) h)) ∧
  (∀ a s k g y, let need := needS g [(sr a, false)] none false false
    Ready (.tagclr a) s k g need → s.team g.id.team = some y → Does (.tagclr a) s k (fun t h => Framed g need none g.sys none h ∧
      SameBytes s t ∧ t.team g.id.team = some { y with tagReady := y.tagReady &&& ~~~ g.sreg a.toNat }))

/-- R273, R277 to R280, R282, R283, R287, R288, R328: a command starts in issue order, of four at once; it then reads and writes one word
at a time: a plane copy a word of the plane, a raw packet its granule of 32 bytes, or the bytes of its mask; with everything moved it
ends, its tag counted down and ready when none is left; a command that fails leaves its status in its completion word, or a pending copy
fault.  A packet to a page of kind SO goes as R317 has it: it acquires after a read, and what the group has released goes out before a write.
Readings and choices of the model that it rests on: log entries 25, 26 and 27. -/
def Obligations.CopyCompletions : Prop :=
  (∀ (s : State) (c idx item : Nat) x g, (s.core c).copies[idx]? = some x → s.group x.group = some g → x.running = false →
    (∀ y ∈ (s.core c).copies.take idx, y.running = true ∧ x.follows y = false) →
    ((s.core c).copies.filter (fun y => y.running)).length < 4 → x.near = false ∨ x.fn ≠ 0 →
    ∃ t, exec (.copyCommandStart c ⟨idx, item⟩) s = .next t ∧ SameBytes s t ∧ (t.core c).plane = (s.core c).plane ∧
      (t.core c).copies = setAt (s.core c).copies idx { x with
        running := true
        status := 0
        buf := List.replicate (x.sources s c).length none }) ∧
  (∀ (s : State) (c idx n : Nat) x g r u p, s.errs = [] → (s.core c).copies[idx]? = some x → s.group x.group = some g →
    x.running = true → x.near = false → x.fn = 2 → x.early = none → x.status = 0 → rectOf x.a = some r → rectOf x.b = some u →
    u.w = r.w → u.h = r.h → u.dc = r.dc → r.words[n]? = some p → x.buf.length = r.size → x.buf[n]? = some none →
    Cmd.notYet s c idx g x false false (.word c (some p) 0 64) = false →
    ∃ t, ∃ x' : Cmd, exec (.copyCommandStart c ⟨idx, n⟩) s = .next t ∧ (t.core c).copies = setAt (s.core c).copies idx x' ∧ SameBytes s t ∧
      (t.core c).plane = (s.core c).plane ∧ x'.running = true ∧ x'.status = 0 ∧ x'.wrote = x.wrote ∧
      x'.buf[n]? = some (some (match (s.core c).word x.team p with
        | some w => if w.live then w.val.toNat else 0
        | none => 0)) ∧
      ∀ m : Nat, m ≠ n → x'.buf[m]? = x.buf[m]?) ∧
  (∀ (s : State) (c idx n : Nat) x g r u p v w o y, s.errs = [] → (s.core c).copies[idx]? = some x → s.group x.group = some g →
    x.running = true → x.near = false → x.fn = 2 → x.early = none → x.status = 0 → x.over s c = false →
    rectOf x.a = some r → rectOf x.b = some u → u.w = r.w → u.h = r.h → u.dc = r.dc → u.words[n]? = some p →
    x.buf[n]? = some (some v) → (∀ e ∈ x.wrote, e.1 ≠ n) →
    Cmd.notYet s c idx g x true true (.word (x.peerCore c) (some p) 0 64) = false →
    Tab.get (s.core (x.peerCore c)).plane p.key = some w → s.team w.own = some o → s.team x.team = some y → o.grid = y.grid →
    ∃ t, exec (.copyCommandComplete c ⟨idx, n⟩) s = .next t ∧ SameBytes s t ∧
      (t.core c).copies = setAt (s.core c).copies idx (({ x with wrote := x.wrote ++ [(n, true)] } : Cmd).went s c g) ∧
      Tab.get (t.core (x.peerCore c)).plane p.key = some { w with val := BitVec.ofNat 64 v, live := true } ∧
      ∀ key, key ≠ p.key → Tab.get (t.core (x.peerCore c)).plane key = Tab.get (s.core (x.peerCore c)).plane key) ∧
  (∀ (s : State) (c idx item : Nat) x g y, (s.core c).copies[idx]? = some x → s.group x.group = some g → s.team x.team = some y →
    x.running = true → x.over s c = true → x.early = none → x.status = 0 → x.short = false → x.cw = none →
    ∃ t, exec (if x.raw then .rawPacketComplete c ⟨idx, item⟩ else .copyCommandComplete c ⟨idx, item⟩) s = .next t ∧
      (t.core c).copies = dropAt (s.core c).copies idx ∧ SameBytes s t ∧ (t.core c).plane = (s.core c).plane ∧
      ∃ y', t.team x.team = some y' ∧ Tab.getD y'.tagCount x.tag 0 = Tab.getD y.tagCount x.tag 0 - 1 ∧
        (Tab.getD y.tagCount x.tag 0 = 1 → x.tag < 64 → y'.tagReady.getLsbD x.tag = true)) ∧
  (∀ (s : State) (c idx item : Nat) x g e, (s.core c).copies[idx]? = some x → s.group x.group = some g → x.running = true → x.raw = false →
    x.early = some e → e ≠ 0 → x.short = false → x.lost = false →
    let v := BitVec.ofNat 64 (e + (x.fn + if x.near then 4 else 0) * 256 + x.tag * 65536)
    (∀ a p, x.cw = some a → a.toNat % 8 = 0 → xlat s c g.id.asid a.toNat .write (!g.id.supv) = .ok p → storePoison s p.pa 8 = none →
      s.refusedAt p.pa a.toNat = false → x.held s c g = false → (s.core c).view.wait = [] → (s.die (dieOf c)).view.wait = [] →
      s.lentTo (dieOf c) p.pa 8 = false →
      ∃ t, exec (.copyCommandComplete c ⟨idx, item⟩) s = .next t ∧ (t.core c).copies = dropAt (s.core c).copies idx ∧
      ∀ b, homeByte t b = if p.pa ≤ b ∧ b < p.pa + 8 then byteOf p.pa v.toNat b else homeByte s b) ∧
    (x.cw = none → ∃ t h, exec (.copyCommandComplete c ⟨idx, item⟩) s = .next t ∧ (t.core c).copies = dropAt (s.core c).copies idx ∧
      t.group x.group = some h ∧ h.pend = g.pend ++ [⟨18, x.pc, x.insn, v, 0, none⟩] ∧ SameBytes s t)) ∧
  (∀ (s : State) (c idx : Nat) x g a, s.errs = [] → (s.core c).copies[idx]? = some x → s.group x.group = some g → x.running = true →
    x.near = true → x.early = none → x.pa = some a → (∃ h, targetOf a = .heap h ∧ (s.die h).uncoreReset = false) → x.status = 0 →
    x.wrote = [] → s.poison = [] → (x.so = true → ∀ write, Cmd.strongWait s c idx x write = false) →
    (x.fn = 1 → a % 32 = 0 → x.buf = List.replicate 4 none → ∃ t, exec (.copyCommandStart c ⟨idx, 0⟩) s = .next t ∧
      (x.so = false → SameBytes s t) ∧ (∀ b, homeByte t b = homeByte s b) ∧
      (t.core c).copies = setAt (s.core c).copies idx (({ x with
        buf := (List.range 4).map (fun i => some (readLe (homeByte s) (a + 8 * i) 8)) } : Cmd).went s c g)) ∧
    (x.fn = 2 → a % 32 = 0 → ∀ v : Nat → Nat, x.buf = (List.range 4).map (fun i => some (v i)) →
      ∃ t, exec (.rawPacketComplete c ⟨idx, 0⟩) s = .next t ∧
      (t.core c).copies = setAt (s.core c).copies idx
        (({ x with wrote := [(0, true), (1, true), (2, true), (3, true)] } : Cmd).went s c g) ∧
      (∀ b, a ≤ b → b < a + 32 → homeByte t b = byteOf (a + (b - a) / 8 * 8) (v ((b - a) / 8)) b) ∧
      (x.so = false → ∀ b, ¬(a ≤ b ∧ b < a + 32) → homeByte t b = homeByte s b)) ∧
    (x.fn = 3 → a % 8 = 0 → x.buf = [] → (∃ i, i < 8 ∧ x.c.getLsbD i = true) → ∃ t, exec (.rawPacketComplete c ⟨idx, 0⟩) s = .next t ∧
      (∀ b, a ≤ b → b < a + 8 → x.c.getLsbD (b - a) = true → homeByte t b = byteOf a x.b.toNat b) ∧
      (x.so = false → ∀ b, ¬(a ≤ b ∧ b < a + 8 ∧ x.c.getLsbD (b - a) = true) → homeByte t b = homeByte s b)))

/-- R290, R298, R300 to R302, R304: `mma`, `accz`, `accld`, `accrd` and `mfence` enter their core's matrix queue with their snapshot. -/
def Obligations.MatrixQueueing : Prop :=
  (∀ a n m c q r x s k g,
    let y := fun i => g.sreg (a.toNat + i)
    let need := { needS g [(.s a.toNat, false), (.s (a.toNat + 1), false), (.s (a.toNat + 2), false)] none false false with
      lane := some (tileMask g q m.rows), closes := true }
    Ready (.mma a n m c q r x) s k g need → SlotsHeld s g n.toNat ((tileCols c + 127) / 128) → mmaFault (y 0) (y 1) (y 2) m.rows (tileCols c) = none →
    tableGate (flag (y 0) 49 || flag (y 1) 49) k g s = .pass →
    MatrixQueued (.mma a n m c q r x) s k g need g.sys (PlainTable (flag (y 0) 49 || flag (y 1) 49) s g) (fun e => e.kind = .mma ∧ e.slot = n.toNat ∧ e.slots = (tileCols c + 127) / 128 ∧
      e.m = m.rows ∧ e.n = tileCols c ∧ (∀ i, i < m.rows → e.rows.getLsbD i = bit (g.eff q.toNat) i) ∧
      e.a = y 0 ∧ e.b = y 1 ∧ e.c = y 2 ∧ e.acc = x ∧ e.red = r ∧ e.read = [] ∧
      e.compand = ((tableDws (flag (y 0) 49 || flag (y 1) 49) s g).getD []).map (BitVec.ofNat 64))) ∧
  (∀ n c q, AccQueued (.accz n c q) .accz false 0 n c 0 q (fun _ => none)) ∧
  (∀ h n c v r q, AccQueued (.accld h n c v r q) .accld true h n c v.toNat q (fun _ => none)) ∧
  (∀ h n c v r q, AccQueued (.accrd h n c v r q) .accrd true h n c v.toNat q (fun g =>
    if 1 ≤ v.toNat ∧ v.toNat ≤ 4 then some (g.rnd r) else none)) ∧
  (∀ s k g, Ready .mfence s k g {} → (s.core g.id.core).mq.length < 8 →
    MatrixQueued .mfence s k g {} g.sys True (fun e => e.kind = .mfence)) ∧
  (∀ n s k g y, Ready (.mwait n) s k g {} → s.team g.id.team = some y →
    (y.accHeld.getLsbD n.toNat = true →
      ((∀ e ∈ (s.core g.id.core).mq, e.team = g.id.team → ¬ (e.slot ≤ n.toNat ∧ n.toNat < e.slot + e.slots)) →
        Leaves (.mwait n) s k (fun h => Framed g {} none g.sys none h)) ∧
      (∀ e ∈ (s.core g.id.core).mq, e.team = g.id.team → e.slot ≤ n.toNat → n.toNat < e.slot + e.slots →
        Waits (.mwait n) s k g (.slot n.toNat))) ∧
    (y.accHeld.getLsbD n.toNat = false → Handled s g → ∀ w, encode (.mwait n) = some w → ∃ t, exec (.mwait n) s = .next t ∧
      Trapped t k g 10 (BitVec.ofNat 64 (n.toNat * 256)) 0 w g.bundlePc g.bundlePc))

/-- R182, R299, R301 to R304, R306, R329: what an operand word reads as; what the instructions of the matrix queue leave when they
complete: the tile of an `mma`, the zeroed rows of `accz`, the words that `accld` takes, each word that `accrd` writes, and its flags;
an `mfence` discards the operand copies as it begins, and the engine reads words into its copies.
Readings and choices of the model that it rests on: log entries 60 and 67. -/
def Obligations.MatrixResults : Prop :=
  (∀ (s : State) c e (r : Rect) n, s.errs = [] → n < r.size →
    let p := r.linear e.skew (s.linKey e.team) n
    (∀ v, Tab.get e.read p.key = some v → (operandWords s c e r)[n]? = some v) ∧
    (Tab.get e.read p.key = none → (s.core c).word e.team p = none → (operandWords s c e r)[n]? = some (some 0)) ∧
    (∀ w, Tab.get e.read p.key = none → (s.core c).word e.team p = some w →
      (operandWords s c e r)[n]? = some (some (if w.live then w.val else 0)) ∨
      ∃ o, Tab.get (s.core c).opcopy p.key = some o ∧
        (operandWords s c e r)[n]? = some (some (if o.own = e.team ∧ o.live = true then o.val else 0)))) ∧
  (∀ s c idx item e y, s.errs = [] → (s.die (dieOf c)).rebuilds = [] → (s.core c).mq[idx]? = some e → e.begun = true → e.busy = 0 → s.team e.team = some y →
    (∀ x ∈ (s.core c).mq.take idx, x.shares e = false) → e.kind = .mma → e.m ≤ 128 → e.n ≤ 128 * e.slots →
    let x := e.gather s c
    let int := fmtOf e.c true ≤ 1
    let kk := (pairK (fmtOf e.c true) (fmtOf e.c false)).getD 0
    (∀ o ∈ x.ops ++ x.opsB, o.isSome = true) → ∃ t y', exec (.matrixComplete c ⟨idx, item⟩) s = .next t ∧
      (t.core c).mq = dropAt (s.core c).mq idx ∧ SameBytes s t ∧ t.team e.team = some y' ∧
      (∀ i j, i < e.m → e.rows.getLsbD i = true → j < e.n →
        (int → ∀ a b, opInts x true e.m kk i = some a → opInts x false e.n kk j = some b →
          y'.elem (e.slot + j / 128) i (j % 128) = BitVec.ofInt 32
            ((if e.acc then (y.elem (e.slot + j / 128) i (j % 128)).toInt else 0) + ((List.zip a b).map (fun p => p.1 * p.2)).foldl (· + ·) 0)) ∧
        (¬ int → ∀ a b, opRow x true e.m kk i = some a → opRow x false e.n kk j = some b →
          let ps := (List.zip a b).map (fun p => (Sys2Proof.Machine.Num.mul p.1 p.2).1)
          y'.elem (e.slot + j / 128) i (j % 128) = BitVec.ofNat 32
            (sumTerms ((if e.acc then [Fmt.f32.decode (y.elem (e.slot + j / 128) i (j % 128)).toNat] else []) ++ ps) (ps.contains .nan)).1)) ∧
      (∀ n i j, i < 128 → j < 128 → ¬ (e.slot ≤ n ∧ 128 * (n - e.slot) + j < e.n ∧ i < e.m ∧ e.rows.getLsbD i = true) → y'.elem n i j = y.elem n i j)) ∧
  (∀ s c idx item e y, s.errs = [] → (s.die (dieOf c)).rebuilds = [] → (s.core c).mq[idx]? = some e → e.begun = true → e.busy = 0 → s.team e.team = some y →
    (∀ x ∈ (s.core c).mq.take idx, x.shares e = false) → e.kind = .accz → ∃ t y', exec (.matrixComplete c ⟨idx, item⟩) s = .next t ∧
      (t.core c).mq = dropAt (s.core c).mq idx ∧ SameBytes s t ∧ t.team e.team = some y' ∧
      ∀ n i j, i < 128 → j < 128 → y'.elem n i j =
        if e.slot ≤ n ∧ n < e.slot + e.slots ∧ e.rows.getLsbD i = true then 0 else y.elem n i j) ∧
  (∀ s c idx item e y (v : Nat → Word), s.errs = [] → (s.die (dieOf c)).rebuilds = [] → (s.core c).mq[idx]? = some e → e.begun = true → e.busy = 0 → s.team e.team = some y →
    (∀ x ∈ (s.core c).mq.take idx, x.shares e = false) → e.kind = .accld → e.cvt = 0 →
    (e.gather s c).ops = (List.range (8192 * e.slots)).map (fun n => some (v n)) →
    ∃ t y', exec (.matrixComplete c ⟨idx, item⟩) s = .next t ∧ (t.core c).mq = dropAt (s.core c).mq idx ∧ SameBytes s t ∧ t.team e.team = some y' ∧
      ∀ n i j, i < 128 → j < 128 → y'.elem n i j =
        if e.slot ≤ n ∧ n < e.slot + e.slots ∧ e.rows.getLsbD i = true then
          let x := i * (128 * e.slots) + 128 * (n - e.slot) + j
          BitVec.ofNat 32 (elem 32 (v (x / 2)) (x % 2))
        else y.elem n i j) ∧
  (∀ s c idx n e y w, s.errs = [] → (s.die (dieOf c)).rebuilds = [] → (s.core c).mq[idx]? = some e → e.begun = true → e.busy = 0 →
    s.team e.team = some y → (∀ x ∈ (s.core c).mq.take idx, x.shares e = false) → e.kind = .accrd → e.writes n = true →
    e.wrote.testBit n = false →
    let p := e.rect.linear e.skew (s.linKey e.team) n
    let wd := accWidth .accrd e.cvt
    (s.core c).word e.team p = some w → ∃ t w' e', exec (.matrixComplete c ⟨idx, n⟩) s = .next t ∧ SameBytes s t ∧
      (t.core c).word e.team p = some w' ∧ w'.live = true ∧
      (∀ m, m < 64 / wd →
        let i := (64 / wd * n + m) / (128 * e.slots)
        let j := (64 / wd * n + m) % (128 * e.slots)
        elem wd w'.val m = (convertOut e.cvt e.mode (draw e.lfsr (16384 * (j / 128) + 128 * i + j % 128)) e.sat
          (y.elem (e.slot + j / 128) i (j % 128))).1 % 2 ^ wd) ∧
      (∀ key, key ≠ p.key → Tab.get (t.core c).plane key = Tab.get (s.core c).plane key) ∧
      (t.core c).mq = setAt (s.core c).mq idx e' ∧ e'.wrote = e.wrote ||| 2 ^ n) ∧
  (∀ s c idx item e g, s.errs = [] → (s.core c).mq[idx]? = some e → e.begun = true → e.busy = 0 → s.group e.group = some g →
    (∀ x ∈ (s.core c).mq.take idx, x.shares e = false) → e.kind = .accrd → e.written = true →
    ∃ t h, exec (.matrixComplete c ⟨idx, item⟩) s = .next t ∧ (t.core c).mq = dropAt (s.core c).mq idx ∧ SameBytes s t ∧
      (t.core c).plane = (s.core c).plane ∧ t.group e.group = some h ∧
      h.sys = { g.sys with fpx := g.sys.fpx ||| BitVec.ofNat 64 e.fpx.toNat, wdcount := h.sys.wdcount }) ∧
  (∀ s c i e, i = (s.core c).nextM → (s.core c).mq[i]? = some e → e.kind = .mfence → s.mayBegin c i e = true → s.errs = [] →
    ∃ t f, exec (.matrixBegin ⟨c, none⟩) s = .next t ∧ (t.core c).mq = dropAt ((s.core c).mq.map f) i ∧
      (∀ x : MEnt, f x = { x with read := (f x).read } ∧ (x.begun = false → f x = x)) ∧
      (t.core c).opcopy = (s.core c).plane ∧ (t.core c).plane = (s.core c).plane ∧ SameBytes s t) ∧
  (∀ s c i e, i = (s.core c).nextM → (s.core c).mq[i]? = some e → s.mayBegin c i e = true → e.isMma = false → e.kind ≠ .mfence →
    ∃ t e', exec (.matrixBegin ⟨c, none⟩) s = .next t ∧ (t.core c).mq = setAt (s.core c).mq i e' ∧ e' = { e with begun := true, due := e'.due } ∧
      (s.core c).clk + e.clocks ≤ e'.due ∧ SameBytes s t) ∧
  (∀ s c k w, s.errs = [] → (s.die (dieOf c)).rebuilds = [] → Tab.get (s.core c).plane k = some w → ∃ t, exec (.matrixBegin ⟨c, some k⟩) s = .next t ∧ SameBytes s t ∧
    (t.core c).plane = (s.core c).plane ∧ ∀ j, Tab.get (t.core c).opcopy j = if j = k then some w else Tab.get (s.core c).opcopy j)

/-- R181, R319, R320, R323, spec/15 R312: a fence waits for what its group has under way; a release leaves none of its group's stores
waiting on the path to its scope; after an acquire at device scope or wider the core sees what the homes hold. -/
def Obligations.FenceResults : Prop :=
  ∀ sc kd s k g,
    let need : Need := { closes := kd != .acq }
    Ready (.fence sc kd) s k g need →
    (s.settled k g = false → Waits (.fence sc kd) s k g .earlier) ∧
    (s.settled k g = true → g.enabledFlags = 0 → s.releaseReady k g g.ord sc = true → (∀ a ∈ g.accs, a.ord < g.ord) →
      Does (.fence sc kd) s k (fun t h => h.regs = g.regs ∧ h.place = g.nextPlace none ∧
        (kd ≠ .acq → sc ≠ .group → h.accs = [] ∧ (sc ≠ .team → ∀ x ∈ (t.core g.id.core).view.wait, x.group ≠ k) ∧
          (sc = .device ∨ sc = .system → ∀ x ∈ (t.die (dieOf g.id.core)).view.wait, x.group ≠ k)))) ∧
    (s.settled k g = true → g.enabledFlags = 0 → Settled s k g → Does (.fence sc kd) s k (fun t h => Framed g need none g.sys none h ∧
      (∀ a, homeByte t a = homeByte s a) ∧ (kd ≠ .rel → sc = .device ∨ sc = .system → NothingLent s (dieOf g.id.core) →
        ∀ a, coreByte t g.id.core a = homeByte s a))) ∧
    (s.settled k g = true → g.enabledFlags ≠ 0 → Handled s g → ∀ w, encode (.fence sc kd) = some w → ∃ t, exec (.fence sc kd) s = .next t ∧
      Trapped t k g 13 (BitVec.ofNat 64 g.enabledFlags) 0 w g.bundlePc g.bundlePc)

/-- R332 to R336, R338: arriving records the arrival once, and the last arrival of a team completes its barrier; waiting departs when the
generation is complete, with an acquire at the level's scope; `bar` does both; barriers that R336 refuses trap.
Readings and choices of the model that it rests on: log entries 29 and 68. -/
def Obligations.BarrierResults : Prop :=
  (∀ l s k g, Ready (.barArrive l) s k g { closes := true } → Settled s k g → s.settled k g = true → g.enabledFlags = 0 →
    s.barScope g l.toNat = true → g.arrived.getLsbD l.toNat = false → Does (.barArrive l) s k (fun t h =>
      Framed g { closes := true } none g.sys none h ∧ SameBytes s t ∧ h.arrived = setBit g.arrived l.toNat true ∧ h.gen = g.gen)) ∧
  (∀ l s k g, Ready (.barWait l) s k g {} → s.settled k g = true → g.enabledFlags = 0 → s.barScope g l.toNat = true →
    g.arrived.getLsbD l.toNat = true →
    (s.mayDepart g l.toNat = true → Does (.barWait l) s k (fun t h => Framed g {} none g.sys none h ∧
      h.arrived = setBit g.arrived l.toNat false ∧
      (∀ n, h.gen.getD n 0 = if n = l.toNat then g.gen.getD n 0 + 1 else g.gen.getD n 0) ∧ (∀ a, homeByte t a = homeByte s a) ∧
      (Settled s k g → s.scopeAt g l.toNat = .device → NothingLent s (dieOf g.id.core) → ∀ a, coreByte t g.id.core a = homeByte s a))) ∧
    (s.mayDepart g l.toNat = false → Waits (.barWait l) s k g (.barrier l.toNat))) ∧
  (∀ l s k g, Ready (.bar l) s k g { closes := true } → s.settled k g = true → g.enabledFlags = 0 → s.barScope g l.toNat = true →
    (g.inbar.getLsbD l.toNat = true → g.arrived.getLsbD l.toNat = true → s.mayDepart g l.toNat = true → Does (.bar l) s k (fun t h =>
      Framed g { closes := true } none g.sys none h ∧ h.inbar = 0 ∧ h.arrived = setBit g.arrived l.toNat false ∧
      (∀ n, h.gen.getD n 0 = if n = l.toNat then g.gen.getD n 0 + 1 else g.gen.getD n 0) ∧ (∀ a, homeByte t a = homeByte s a))) ∧
    (g.inbar.getLsbD l.toNat = false → g.arrived.getLsbD l.toNat = false → Settled s k g → Does (.bar l) s k (fun t h =>
      h.place = g.place ∧ h.regs = g.regs ∧ h.blocked = some (.barrier l.toNat) ∧ h.arrived = setBit g.arrived l.toNat true ∧
      h.inbar = setBit g.inbar l.toNat true ∧ SameBytes s t))) ∧
  (∀ s k g x gr pre post,
    let b := s.barrier x.grid 2 (gr.launch.unitOf x.index 2)
    Ready (.barArrive 2) s k g { closes := true } → Settled s k g → s.settled k g = true → g.enabledFlags = 0 → s.barScope g 2 = true →
    g.arrived.getLsbD 2 = false → s.team g.id.team = some x → s.grid x.grid = some gr → g.id.grid = x.grid → x.started = true →
    gr.launch.ordinary ≤ x.begun → g.arrivals 2 = b.done → s.groups = pre ++ (k, g) :: post → (∀ e ∈ pre, e.1 < k) →
    (∀ e ∈ pre ++ post, e.2.id.team = g.id.team → e.2.id.hndl = true ∨ b.done < e.2.arrivals 2) →
    ∃ t h, exec (.barArrive 2) s = .next t ∧ t.group k = some h ∧ (t.barrier x.grid 2 (gr.launch.unitOf x.index 2)).done = b.done + 1 ∧
      t.mayDepart h 2 = true) ∧
  (∀ l s k g w, encode (.barArrive l) = some w → Ready (.barArrive l) s k g { closes := true } → Handled s g →
    (s.barScope g l.toNat = false → ∃ t, exec (.barArrive l) s = .next t ∧ Trapped t k g 22 (BitVec.ofNat 64 l.toNat) 0 w g.bundlePc g.bundlePc) ∧
    (s.barScope g l.toNat = true → s.settled k g = true → g.enabledFlags = 0 → g.arrived.getLsbD l.toNat = true →
      ∃ t, exec (.barArrive l) s = .next t ∧ Trapped t k g 23 (BitVec.ofNat 64 l.toNat) 0 w g.bundlePc g.bundlePc)) ∧
  (∀ l s k g w, encode (.barWait l) = some w → Ready (.barWait l) s k g {} → Handled s g → s.barScope g l.toNat = true →
    s.settled k g = true → g.enabledFlags = 0 → g.arrived.getLsbD l.toNat = false →
      ∃ t, exec (.barWait l) s = .next t ∧ Trapped t k g 23 (BitVec.ofNat 64 l.toNat) 0 w g.bundlePc g.bundlePc)

/-- R22, R332, R338: an arrival that is the last of its unit completes the generation, whose releases are then injected cluster by
cluster from the core of the team that completed it, and one for another generation, or that its team has taken back, counts for nothing; a
release lets the members of its team depart; an answer reaches its sender; a packet waits for those of its source and destination that
were injected before it, which leaves the state as it is.
Readings and choices of the model that it rests on: log entries 8 and 68. -/
def Obligations.BarrierSignals : Prop :=
  (∀ s rest gr l u tm j core core' q x, s.signals = ⟨core, core', .arrival gr l u tm j, q⟩ :: rest → s.mayArrive core core' q = true →
    s.grid gr = some x →
    let b := s.barrier gr l u
    let n := x.launch.teamsIn l
    (j = b.done + 1 → j ≤ Tab.getD b.sent tm 0 →
      b.inject = [] → (∀ i, i < n → u * n + i ≠ tm → u * n + i ∈ b.arrived) → ∃ t, exec (.syncSignal 0) s = .next t ∧ t.signals = rest ∧
        (t.barrier gr l u).done = b.done + 1 ∧ (t.barrier gr l u).arrived = [] ∧ (t.barrier gr l u).source = core ∧ SameBytes s t) ∧
    (j ≠ b.done + 1 ∨ Tab.getD b.sent tm 0 < j → exec (.syncSignal 0) s = .next { s with signals := rest })) ∧
  (∀ s idx b c more x, s.barriers[idx]? = some b → b.inject = c :: more → s.grid b.grid = some x → b.arrived = [] →
    let due := fun (e : Nat × Team) => e ∈ s.teams ∧ e.2.grid = b.grid ∧ clusterOf e.2.core = c ∧ x.launch.unitOf e.2.index b.level = b.unit
    let sends := fun (y : Signal) (e : Nat × Team) => y.src = b.source ∧ y.dst = e.2.core ∧
      y.packet = .release b.grid b.level b.unit e.2.index b.done
    ∃ t out, exec (.barrierReleaseInjection idx) s = .next t ∧ (t.barrier b.grid b.level b.unit).inject = more ∧
      t.signals = s.signals ++ out ∧ (∀ y ∈ out, ∃ e, due e ∧ sends y e) ∧ (∀ e, due e → ∃ y ∈ out, sends y e) ∧
      (∀ i y, out[i]? = some y → y.seq = s.tc0 + i) ∧ t.tc0 = s.tc0 + out.length ∧ SameBytes s t) ∧
  (∀ s rest gr l u tm n core core' q k g x y, s.signals = ⟨core, core', .release gr l u tm n, q⟩ :: rest →
    s.mayArrive core core' q = true → s.group k = some g → g.id.grid = gr →
    s.team g.id.team = some y → y.index = tm → s.grid gr = some x → x.launch.unitOf tm l = u → g.genBase.getD l 0 + g.gen.getD l 0 < n →
    ∃ t, exec (.syncSignal 0) s = .next t ∧ t.signals = rest ∧ t.mayDepart g l = true ∧ SameBytes s t) ∧
  (∀ s rest k g v core core' q, s.signals = ⟨core, core', .answer k v, q⟩ :: rest → s.mayArrive core core' q = true →
    s.group k = some g → ∃ t, exec (.syncSignal 0) s = .next t ∧ t.signals = rest ∧ SameBytes s t ∧
    t.group k = some { (match g.send with | .asked d => g.setEmpty (.s d) false | _ => g) with send := .answered v }) ∧
  (∀ s i x, s.signals[i]? = some x →
    ((∃ y ∈ s.signals, y.src = x.src ∧ y.dst = x.dst ∧ y.seq < x.seq) ∨
      (∃ o ∈ s.offers, o.src = x.src ∧ o.core = x.dst ∧ o.seq < x.seq)) → exec (.syncSignal i) s = .next s)

/-- R340, R341: a ring wait issues while its stage has the phase and waits otherwise; a test writes whether it has; a signal toggles the
phase at the end of the clock after its issue; each raises trap 10 at a ring that the team does not hold, or that was released while the
group waited on it. -/
def Obligations.RingResults : Prop :=
  (∀ r n p s k g y, Ready (.ringWait r n p) s k g {} → n.toNat < (s.launchOf g).stages r.toNat → s.team g.id.team = some y →
    y.ringHeld.getLsbD r.toNat = true → g.blocked ≠ some (.unheld r.toNat) →
    (y.phase.getLsbD (8 * r.toNat + n.toNat) = p → Leaves (.ringWait r n p) s k (fun h => Framed g {} none g.sys none h)) ∧
    (y.phase.getLsbD (8 * r.toNat + n.toNat) ≠ p → Waits (.ringWait r n p) s k g (.ring r.toNat n.toNat p))) ∧
  (∀ d r n p s k g y, let need := needS g [] (some (sr d)) false false
    Ready (.ringTest d r n p) s k g need → n.toNat < (s.launchOf g).stages r.toNat → s.team g.id.team = some y →
    y.ringHeld.getLsbD r.toNat = true → g.blocked ≠ some (.unheld r.toNat) → Leaves (.ringTest d r n p) s k (fun h => Framed g need none g.sys none h ∧
      ScalarValue d (if y.phase.getLsbD (8 * r.toNat + n.toNat) = p then 1 else 0) h)) ∧
  (∀ r n s k g y, Ready (.ringSig r n) s k g { closes := true } → Settled s k g → n.toNat < (s.launchOf g).stages r.toNat →
    s.team g.id.team = some y → y.ringHeld.getLsbD r.toNat = true → g.blocked ≠ some (.unheld r.toNat) → Does (.ringSig r n) s k (fun t h =>
      Framed g { closes := true } none g.sys none h ∧ SameBytes s t ∧
      let b := 8 * r.toNat + n.toNat
      let c := s.core g.id.core
      if (t.core g.id.core).clk ≤ c.clk + 1 then
        t.team g.id.team = some y ∧ (t.core g.id.core).ringT = [⟨c.clk + 1, c.position k, g.id.team, b⟩]
      else t.team g.id.team = some { y with phase := setBit y.phase b (!y.phase.getLsbD b) } ∧ (t.core g.id.core).ringT = [])) ∧
  (∀ (r : BitVec 4) (n : BitVec 3) s k g y w, n.toNat < (s.launchOf g).stages r.toNat → s.team g.id.team = some y →
    (y.ringHeld.getLsbD r.toNat = false ∨ g.blocked = some (.unheld r.toNat)) → Handled s g →
    let traps := fun i => ∃ t, exec i s = .next t ∧ Trapped t k g 10 (BitVec.ofNat 64 (2 + r.toNat * 256)) 0 w g.bundlePc g.bundlePc
    (Ready (.ringSig r n) s k g { closes := true } → encode (.ringSig r n) = some w → traps (.ringSig r n)) ∧
    (∀ p, Ready (.ringWait r n p) s k g {} → encode (.ringWait r n p) = some w → traps (.ringWait r n p)) ∧
    ∀ d p, Ready (.ringTest d r n p) s k g (needS g [] (some (sr d)) false false) → encode (.ringTest d r n p) = some w →
      traps (.ringTest d r n p))

/-- R342 to R344, R346, with R104: a send offers and waits, or issues at once to a latest-value endpoint, and completes when its offer is
taken; a `trysend` offers and waits with its destination empty, and writes its answer, or 2 at once where it is refused; `recv` takes the element that its endpoint holds for it; `chstat` reads an endpoint; what R342 refuses.
Readings and choices of the model that it rests on: log entry 30. -/
def Obligations.ChannelResults : Prop :=
  (∀ (a e : BitVec 5) l s k g kind, let need := { needS g [(sr a, l), (.s (a.toNat + 1), false)] none false false with closes := true }
    let o : Offer := ⟨k, g.id.core, (g.sreg (a.toNat + 1)).toNat, e.toNat, g.sreg a.toNat, false, s.tc0, kind == 2⟩
    Ready (.send a e l) s k g need → Settled s k g → s.target g (g.sreg (a.toNat + 1)) e.toNat = some kind → g.send = .none →
    (kind = 2 → Does (.send a e l) s k (fun t h => Framed g need none g.sys none h ∧ SameBytes s t ∧ h.send = .none ∧
      t.offers = s.offers ++ [o])) ∧
    (kind ≠ 2 → Does (.send a e l) s k (fun t h => h.place = g.place ∧ h.regs = g.regs ∧ h.blocked = some .send ∧ h.send = .offered ∧
      SameBytes s t ∧ t.offers = s.offers ++ [o]))) ∧
  (∀ (a e : BitVec 5) l s k g v, let need := { needS g [(sr a, l), (.s (a.toNat + 1), false)] none false false with closes := true }
    Ready (.send a e l) s k g need → g.send = .answered v →
    Leaves (.send a e l) s k (fun h => Framed g need none g.sys none h ∧ h.send = .none)) ∧
  (∀ (d a e : BitVec 5) l s k g v, let need := { needS g [(sr a, l), (.s (a.toNat + 1), false)] (some (sr d)) false false with
      closes := g.send == .answered 0 }
    Ready (.trysend d a e l) s k g need →
    (g.send = .answered v ∨ (g.send = .none ∧ s.target g (g.sreg (a.toNat + 1)) e.toNat = none ∧ v = 2)) →
    Leaves (.trysend d a e l) s k (fun h => Framed g need none g.sys none h ∧ ScalarValue d (BitVec.ofNat 64 v) h ∧ h.send = .none)) ∧
  (∀ (d a e : BitVec 5) l s k g kind, Ready (.trysend d a e l) s k g (needS g [(sr a, l), (.s (a.toNat + 1), false)] (some (sr d)) false false) →
    Settled s k g → g.send = .none → s.target g (g.sreg (a.toNat + 1)) e.toNat = some kind → Does (.trysend d a e l) s k (fun t h =>
      h.place = g.place ∧ h.regs = (g.setEmpty (sr d) true).regs ∧ h.blocked = some .answer ∧ h.send = .asked d.toNat ∧ SameBytes s t ∧
      t.offers = s.offers ++ [⟨k, g.id.core, (g.sreg (a.toNat + 1)).toNat, e.toNat, g.sreg a.toNat, true, s.tc0, false⟩])) ∧
  (∀ d e s k g x, let need := { needS g [] (some (sr d)) false false with closes := true }
    Ready (.recv d e) s k g need → d ≠ 0 → Tab.get (s.core g.id.core).eps e.toNat = some x → x.team = g.id.team → x.recvs = [] →
    (∀ v c, x.kind = 2 → x.unread = some (v, c) → x.offers = [] → Does (.recv d e) s k (fun t h => Awaiting g need none h ∧ SameBytes s t ∧
      Tab.get (t.core g.id.core).eps e.toNat = some { x with unread := none } ∧
      (∃ m, h.accs.getLast? = some m ∧ m.op = .recv v ∧ m.dest = some (sr d) ∧ m.acq = true ∧ m.scope = some .device) ∧
      t.signals = s.signals ++ [⟨c, g.id.core, .element k g.ord, s.tc0⟩])) ∧
    (∀ o more p, x.kind = 1 → x.offers = o :: more → o.try_ = false → o.group ≠ k → s.group o.group = some p →
      Does (.recv d e) s k (fun t h => Awaiting g need none h ∧ SameBytes s t ∧
        Tab.get (t.core g.id.core).eps e.toNat = some { x with offers := more } ∧ (∃ p', t.group o.group = some p' ∧ p'.send = .answered 0) ∧
        (∃ m, h.accs.getLast? = some m ∧ m.op = .recv o.value ∧ m.dest = some (sr d) ∧ m.acq = true ∧ m.scope = some .device) ∧
        t.signals = s.signals ++ [⟨o.core, g.id.core, .element k g.ord, s.tc0⟩]))) ∧
  (∀ d e s k g, let need := needS g [] (some (sr d)) false false
    Ready (.chstat d e) s k g need → Leaves (.chstat d e) s k (fun h => Framed g need none g.sys none h ∧
      ScalarValue d (match Tab.get (s.core g.id.core).eps e.toNat with
        | none => 0
        | some x => BitVec.ofNat 64 (x.kind + (if x.team = g.id.team then 4 else 0) + (if x.unread.isSome then 8 else 0) +
            min 255 x.offers.length * 256 + min 255 x.recvs.length * 65536 + (if x.kind = 2 then x.seq.toNat * 2 ^ 32 else 0))) h)) ∧
  (∀ (a e : BitVec 5) l s k g w, let need := { needS g [(sr a, l), (.s (a.toNat + 1), false)] none false false with closes := true }
    Ready (.send a e l) s k g need → encode (.send a e l) = some w → g.send = .none → 575 < (g.sreg (a.toNat + 1)).toNat → Handled s g →
    ∃ t, exec (.send a e l) s = .next t ∧ Trapped t k g 24 (BitVec.ofNat 64 e.toNat) (g.sreg (a.toNat + 1)) w g.bundlePc g.bundlePc)

/-- R342 to R344, spec/01 R22, spec/03 R63: an offer joins a rendezvous endpoint, or its element replaces the one that a latest-value
endpoint holds, under the next sequence number; a `trysend` is answered by the state of its endpoint, and an endpoint that refuses an
offer answers 2 to it; an element's arrival fills its register; an element at an arrival endpoint starts a group.
Readings and choices of the model that it rests on: log entries 29 and 30. -/
def Obligations.ChannelArrivals : Prop :=
  (∀ s o rest x, s.offers = o :: rest → s.mayArrive o.src o.core o.seq = true → s.refuses o = false →
    Tab.get (s.core o.core).eps o.ep = some x →
    let w : Waiter := ⟨o.group, o.src, o.value, o.try_⟩
    (x.kind = 1 → o.issued = false → o.try_ = false → ∃ t, exec (.channelOfferArrival 0) s = .next t ∧ t.offers = rest ∧ SameBytes s t ∧
      Tab.get (t.core o.core).eps o.ep = some { x with offers := x.offers ++ [w] }) ∧
    (x.kind = 1 → o.issued = false → o.try_ = true → ∃ t, exec (.channelOfferArrival 0) s = .next t ∧ t.offers = rest ∧ SameBytes s t ∧
      (x.offers.length < x.recvs.length → Tab.get (t.core o.core).eps o.ep = some { x with offers := x.offers ++ [w] } ∧
        t.signals = s.signals ++ [⟨o.core, o.src, .answer o.group 0, s.tc0⟩]) ∧
      (x.recvs.length ≤ x.offers.length → Tab.get (t.core o.core).eps o.ep = some x ∧
        t.signals = s.signals ++ [⟨o.core, o.src, .answer o.group 1, s.tc0⟩])) ∧
    (x.kind = 2 → ∃ t, exec (.channelOfferArrival 0) s = .next t ∧ t.offers = rest ∧ SameBytes s t ∧
      ∃ y, Tab.get (t.core o.core).eps o.ep = some y ∧ y.seq = x.seq + 1 ∧ y.team = x.team ∧ y.kind = 2 ∧ y.offers = x.offers ∧ y.recvs = x.recvs ∧
        ∃ v, y.unread = some (v, o.src) ∧ bits v 47 0 = bits o.value 47 0 ∧ bits v 63 48 = (x.seq + 1).toNat)) ∧
  (∀ s o rest, s.offers = o :: rest → s.mayArrive o.src o.core o.seq = true →
    (Tab.get (s.core o.core).eps o.ep = none ∨ s.refuses o = true ∨
      (o.issued = true ∧ ∃ x, Tab.get (s.core o.core).eps o.ep = some x ∧ x.kind ≠ 2)) → ∃ t, exec (.channelOfferArrival 0) s = .next t ∧ t.offers = rest ∧
      SameBytes s t ∧ (∀ c, t.core c = s.core c) ∧ t.signals = s.signals ++
        (if o.try_ then [(⟨o.core, o.src, .answer o.group 2, s.tc0⟩ : Signal)] else [])) ∧
  (∀ s rest core core' q k g idx a p r v, s.signals = ⟨core, core', .element k a.ord, q⟩ :: rest → s.mayArrive core core' q = true →
    s.group k = some g → g.accs[idx]? = some a →
    (∀ b ∈ g.accs.take idx, b.ord ≠ a.ord) → a.op = .recv v → a.dest = some r → a.parts = [p] → p.done = false → p.off = 0 → p.poison = none →
    p.val = v.toNat → a.bits = 64 → a.sext = false → a.keep = none → CanTake s k g idx r → ∃ t h, exec (.syncSignal 0) s = .next t ∧
      t.group k = some h ∧ h.value r p.lane = v ∧ h.empty r = false ∧ h.accs = dropAt g.accs idx ∧ (∀ b, homeByte t b = homeByte s b)) ∧
  (∀ s core ep x o rest tm gr, Tab.get (s.core core).eps ep = some x → x.kind = 3 → x.offers = o :: rest → o.try_ = false →
    s.team x.team = some tm → tm.started = true → tm.status = .running → s.grid tm.grid = some gr → s.freeSlots tm.grid gr ≠ [] →
    ∃ t h slot, exec (.arrivalLaunch core ep) s = .next t ∧ t.nextId = s.nextId + 1 ∧ t.group s.nextId = some h ∧ h.id.arr = true ∧
      h.id.team = x.team ∧ h.id.slot = slot ∧ slot ∈ s.freeSlots tm.grid gr ∧ h.id.num = tm.nextNum ∧ h.sreg 1 = o.value ∧
      h.sreg 2 = BitVec.ofNat 64 ep ∧ h.pc = BitVec.ofNat 64 ((gr.launch.imgbase + 4 * gr.launch.entryarr) % 2 ^ 57) ∧
      Tab.get (t.core core).eps ep = some { x with offers := rest })

/-- R130 to R139: what a granted request adds to the holdings, zeroed (R137), and its status; a request that is not granted leaves them
as they were, and makes `acq.w` wait; one beyond the claim, when it is made or when it is decided again, takes trap 11; `rel` gives up what it names, or, while commands queued before
it touch that, will; a request that the acquisition unit has gone past in this clock waits; cleared words can be used.
Readings and choices of the model that it rests on: log entries 86 and 88. -/
def Obligations.ResourceResults : Prop :=
  (∀ d a kd s k g y,
    let need := { needS g [(sr a, false)] (some (sr d)) false false with closes := true }
    let v := g.sreg a.toNat
    Ready (.acqF d a kd) s k g need → s.team g.id.team = some y → requestTrap (s.launchOf g) kd v = none → kd ≠ .pin →
    (s.core g.id.core).acqPast (s.acqPlace k g) = false → (∀ r, kd = .plane → rectOf v = some r → (s.core g.id.core).scrolled r.keys = false) →
    let r := s.decide g y kd v
    (r ≠ .overrun → Does (.acqF d a kd) s k (fun t h => Framed g need none g.sys none h ∧ SameBytes s t ∧
      ScalarValue d (match r with | .granted => 0 | .unsafeState => 2 | _ => 1) h ∧
      (r = .granted → Granted s t g y kd v) ∧
      (r ≠ .granted → t.team g.id.team = some y ∧ (t.core g.id.core).plane = (s.core g.id.core).plane))) ∧
    (r = .overrun → Handled s g → ∀ w, encode (.acqF d a kd) = some w → ∃ t, exec (.acqF d a kd) s = .next t ∧
      Trapped t k g 11 (BitVec.ofNat 64 (kindCode kd)) v w g.bundlePc g.bundlePc)) ∧
  (∀ a kd s k g y,
    let need := { needS g [(sr a, false)] none false false with closes := true }
    let v := g.sreg a.toNat
    Ready (.acqW a kd) s k g need → s.team g.id.team = some y → requestTrap (s.launchOf g) kd v = none → kd ≠ .pin →
    g.blocked ≠ some .granted → g.blocked ≠ some .overran → (∀ w ∈ (s.core g.id.core).acqWaits, w.group ≠ k) →
    ((s.core g.id.core).acqPast (s.acqPlace k g) = true → Waits (.acqW a kd) s k g (.queue .unit)) ∧
    ((s.core g.id.core).acqPast (s.acqPlace k g) = false → (∀ r, kd = .plane → rectOf v = some r → (s.core g.id.core).scrolled r.keys = false) →
    (s.decide g y kd v = .granted → Does (.acqW a kd) s k (fun t h => Framed g need none g.sys none h ∧ SameBytes s t ∧
      Granted s t g y kd v)) ∧
    (s.decide g y kd v = .unsafeState ∨ (s.decide g y kd v = .busy ∧ s.cycleSlot g.id.core g.id.team kd v = none) →
      Does (.acqW a kd) s k (fun t h => h.place = g.place ∧ h.regs = g.regs ∧ h.blocked = some .grant ∧ SameBytes s t ∧
        (t.core g.id.core).acqWaits = (s.core g.id.core).acqWaits ++ [⟨g.id.team, k, kd, v⟩])))) ∧
  (∀ a kd s k g, Ready (.acqW a kd) s k g { needS g [(sr a, false)] none false false with closes := true } → g.blocked = some .granted →
    Leaves (.acqW a kd) s k (fun h => Framed g { needS g [(sr a, false)] none false false with closes := true } none g.sys none h)) ∧
  (∀ a kd s k g w, Ready (.acqW a kd) s k g { needS g [(sr a, false)] none false false with closes := true } → g.blocked = some .overran →
    encode (.acqW a kd) = some w → Handled s g → ∃ t, exec (.acqW a kd) s = .next t ∧
      Trapped t k g 11 (BitVec.ofNat 64 (kindCode kd)) (g.sreg a.toNat) w g.bundlePc g.bundlePc) ∧
  (∀ a s k g y,
    let need := { needS g [(sr a, false)] none false false with closes := true }
    let m := (g.sreg a.toNat).setWidth 32
    Ready (.acqW a .pin) s k g need → s.team g.id.team = some y → bits (g.sreg a.toNat) 63 32 = 0 → g.blocked ≠ some .granted →
    g.blocked ≠ some .overran → (∀ w ∈ (s.core g.id.core).acqWaits, w.group ≠ k) → (s.core g.id.core).acqPast (s.acqPlace k g) = false → s.decide g y .pin (g.sreg a.toNat) = .granted →
    (∀ n, n < 32 → m.getLsbD n = true → g.pinned n = false → (s.core g.id.core).cached k g.id.foot (.v n) = true) →
    Does (.acqW a .pin) s k (fun t h => h.regs = { g.regs with pin := g.regs.pin ||| m } ∧ h.place = g.nextPlace none ∧ SameBytes s t)) ∧
  (∀ a kd s k g y,
    let need := { needS g [(sr a, false)] none false false with closes := true }
    let v := g.sreg a.toNat
    let c := s.core g.id.core
    Ready (.rel a kd) s k g need → s.team g.id.team = some y → requestTrap (s.launchOf g) kd v = none → c.acqPast 0 = false → c.holdsBack kd v = false →
    (s.relBusy g.id.core g.id.team kd v c.seq = true → Does (.rel a kd) s k (fun t h => Framed g need none g.sys none h ∧ SameBytes s t ∧
      t.team g.id.team = some y ∧ (t.core g.id.core).plane = c.plane ∧
      (t.core g.id.core).rels = c.rels ++ [⟨g.id.team, k, kd, v, c.seq⟩])) ∧
    (s.relBusy g.id.core g.id.team kd v c.seq = false → c.acqWaits = [] → Does (.rel a kd) s k (fun t h => h.place = g.nextPlace none ∧ SameBytes s t ∧
      h.regs = { g.regs with pin := if kd = .pin then g.regs.pin &&& ~~~ v.setWidth 32 else g.regs.pin } ∧
      match kd with
      | .pin => t.team g.id.team = some y
      | .plane => t.team g.id.team = some y ∧ ∀ r, rectOf v = some r →
        (∀ p, r.Has p → (t.core g.id.core).word g.id.team p = none) ∧
        (∀ p w, ¬ r.Has p → (s.core g.id.core).word g.id.team p = some w → w.live = true → (t.core g.id.core).word g.id.team p = some w)
      | .acc => ∃ y', t.team g.id.team = some y' ∧ y'.accHeld = y.accHeld &&& ~~~ v.setWidth 12
      | .tag => ∃ y', t.team g.id.team = some y' ∧ y'.tagHeld = y.tagHeld &&& ~~~ v ∧ y'.tagReady = y.tagReady &&& ~~~ v
      | .ring => t.team g.id.team = some { y with ringHeld := y.ringHeld &&& ~~~ v.setWidth 16 }))) ∧
  (∀ s c, ∃ t, exec (.clearingComplete c) s = .next t ∧ SameBytes s t ∧
    (∀ n, Tab.get (t.core c).plane n = (Tab.get (s.core c).plane n).map (fun w => { w with clr := false })) ∧
    ∀ j, t.team j = (s.team j).map (fun y => if y.core = c then { y with accClr := 0 } else y))

/-- R360 to R363, R365 to R367, R369: a request of a level; a cluster's move, a change of its ratio by one level at a time, up and down;
that it starts towards the level in effect; the caps; how a slack ceiling moves; the busy clocks that the current limiter permits in a window.
Readings and choices of the model that it rests on: log entries 22 and 32. -/
def Obligations.PerformanceResults : Prop :=
  (∀ a s k g y, let need := needS g [(sr a, false)] none false false
    Ready (.setperf a) s k g need → s.team g.id.team = some y → (g.sreg a.toNat).toNat ≤ 11 → Does (.setperf a) s k (fun t h =>
      Framed g need none g.sys none h ∧ SameBytes s t ∧ t.team g.id.team = some { y with request := (g.sreg a.toNat).setWidth 4 })) ∧
  (∀ a s k g y n, let need := needS g [(vr a, false)] none false false
    Ready (.setperfV a) s k g need → s.team g.id.team = some y → n ≤ 11 → g.id.foot ≤ 4 →
    (∀ l, l < g.lanes → bit g.alive l = true → (g.vreg a.toNat l).toNat ≤ n) →
    (∃ l, l < g.lanes ∧ bit g.alive l = true ∧ (g.vreg a.toNat l).toNat = n) → Does (.setperfV a) s k (fun t h =>
      Framed g need none g.sys none h ∧ SameBytes s t ∧ t.team g.id.team = some { y with request := BitVec.ofNat 4 n })) ∧
  (∀ a s k g w, let need := needS g [(sr a, false)] none false false
    Ready (.setperf a) s k g need → encode (.setperf a) = some w → 11 < (g.sreg a.toNat).toNat → Handled s g →
    ∃ t, exec (.setperf a) s = .next t ∧ Trapped t k g 1 0 0 w g.bundlePc g.bundlePc) ∧
  (∀ s c, c < 96 → ∃ t, exec (.perfMoveComplete c) s = .next t ∧ SameBytes s t ∧ (∀ j, j ≠ c → t.cluster j = s.cluster j) ∧
    let x := s.cluster c
    let y := t.cluster c
    (x.moving = none → y = { x with code := x.goal }) ∧
    (∀ r, x.moving = some r → y.ratio = r ∧ y.goal = x.goal ∧ y.supCap = x.supCap ∧ y.mmcCap = x.mmcCap ∧ y.ceil = x.ceil ∧
      (r = x.goal.toNat / 4 → y.code = x.goal ∧ y.moving = none) ∧
      (r ≠ x.goal.toNat / 4 → y.code = x.code ∧ y.moving = some (if r < x.goal.toNat / 4 then r + 1 else r - 1)))) ∧
  (∀ s c, ((∃ e ∈ s.clusters, e.1 = c) ∨ ∃ e ∈ s.teams, clusterOf e.2.core = c) →
    let e := min (s.rmax c) (min (min (s.cluster c).supCap.toNat (s.cluster c).mmcCap.toNat) (s.cluster c).ceil.toNat)
    let x := s.cluster c
    let y := (settlePerf s).cluster c
    SameBytes s (settlePerf s) ∧ y.goal.toNat = e ∧ y.ratio = x.ratio ∧ (x.moving ≠ none → y.moving = x.moving) ∧
      (x.goal.toNat ≠ e → (e < x.code.toNat → y.code.toNat = e) ∧ (x.code.toNat ≤ e → y.code = x.code))) ∧
  (∀ s c v, c < 96 → v.toNat ≤ 11 → ∃ t, exec (.mmcCapChange c v) s = .next t ∧ SameBytes s t ∧
    t.cluster c = { s.cluster c with mmcCap := v } ∧ ∀ j, j ≠ c → t.cluster j = s.cluster j) ∧
  (∀ s, ∃ t, exec .dwellBoundary s = .next t ∧ SameBytes s t ∧ ∀ c, c < 96 →
    let x := s.cluster c
    let y := t.cluster c
    (y.ceil = x.ceil ∨ (y.ceil.toNat + 1 = x.ceil.toNat ∧ y.lowered = 0) ∨
      (x.ceil.toNat ≤ 11 ∧ y.ceil.toNat = x.ceil.toNat + 1 ∧ 2 ≤ x.lowered ∧ y.ceil.toNat ≤ 11)) ∧
    (y.ceil.toNat < x.ceil.toNat → x.slack = true ∧ (s.slackNow c).isSome = true) ∧
    y.supCap = x.supCap ∧ y.mmcCap = x.mmcCap ∧ y.code = x.code) ∧
  (∀ s c, (s.core c).slew.slot = 16 → ∃ t, exec (.slewWindowStart c) s = .next t ∧ SameBytes s t ∧
    64 * ((s.core c).slew.win + 1) ≤ (t.core c).clk ∧
    (t.core c).slew = { (s.core c).slew with
      win := (s.core c).slew.win + 1, prev := (s.core c).slew.used, used := 0, slot := 0, step := bits s.sup.slewctl 6 0 }) ∧
  (∀ s c, (s.core c).slew.slot < 16 →
    let x := (s.core c).slew
    let grant := 4 * (min 64 (x.prev + x.step) * (x.slot + 1) / 64)
    let need := 4 * ((x.prev - x.step) * (x.slot + 1) / 64)
    ∃ t, exec (.granuleSlot c) s = .next t ∧ SameBytes s t ∧
      (t.core c).slew.slot = x.slot + 1 ∧ (t.core c).slew.prev = x.prev ∧ (t.core c).slew.step = x.step ∧
      ((t.core c).slew.used = x.used ∨ (t.core c).slew.used = x.used + 4) ∧
      (x.prev ≤ 64 → x.used % 4 = 0 → x.used ≤ 4 * (min 64 (x.prev + x.step) * x.slot / 64) → (t.core c).slew.used ≤ grant) ∧
      (x.prev ≤ 64 → 4 * ((x.prev - x.step) * x.slot / 64) ≤ x.used → (∀ e ∈ (s.core c).mq, e.isMma = false) → need ≤ (t.core c).slew.used) ∧
      (∀ i e, (s.core c).working = some (i, e) → x.used + 4 ≤ grant → (t.core c).slew.used = x.used + 4 ∧
        (t.core c).slew.charged = some e.group ∧ (t.core c).mq = setAt (s.core c).mq i { e with
          busy := e.busy - 4, due := 64 * x.win + 4 * x.slot + 16 }))

/-- R44 to R47, R51, R52, R62: what `enq` answers and appends; a doorbell takes TAIL and reads CPLHEAD; one that lies too far is ignored,
with QERR set, and every one where no firmware has been accepted (R431); cleared bits; the raise of a queue's priority.
Readings and choices of the model that it rests on: log entries 43 and 83. -/
def Obligations.QueueResults : Prop :=
  (∀ d a b l m e s k g,
    let need := { needS g [(sr a, l), (sr b, m)] (some (sr d)) false e with closes := true }
    let q := (g.sreg a.toNat).toNat
    let rcd := (g.sreg b.toNat).toNat
    Ready (.enq d a b l m e) s k g need → Settled s k g →
    (4095 < q → Does (.enq d a b l m e) s k (fun t h => Framed g need none g.sys none h ∧ ScalarValue d 2 h ∧ SameBytes s t ∧ t.front = s.front)) ∧
    (q ≤ 4095 → readDesc s q = none → Does (.enq d a b l m e) s k (fun t h => Framed g need none g.sys none h ∧ ScalarValue d 3 h ∧
      SameBytes s t ∧ t.front = { s.front with qerr := setBit s.front.qerr q true })) ∧
    (q ≤ 4095 → ∀ x, readDesc s q = some x →
      (x.size ≤ ahead x.head x.tail → Does (.enq d a b l m e) s k (fun t h => Framed g need none g.sys none h ∧ ScalarValue d 1 h ∧
        SameBytes s t ∧ t.front = s.front)) ∧
      (ahead x.head x.tail < x.size → (x.enable = false ∨ x.devenq = false ∨ (x.supv = true ∧ g.id.supv = false)) →
        Does (.enq d a b l m e) s k (fun t h => Framed g need none g.sys none h ∧ ScalarValue d 2 h ∧ SameBytes s t ∧ t.front = s.front)) ∧
      (ahead x.head x.tail < x.size → x.enable = true → x.devenq = true → (x.supv = true → g.id.supv = true) →
        (x.ok = false → Does (.enq d a b l m e) s k (fun t h => Framed g need none g.sys none h ∧ ScalarValue d 3 h ∧ SameBytes s t ∧
          t.front = { s.front with qerr := setBit s.front.qerr q true })) ∧
        (∀ p, x.ok = true → xlat s noCore x.asid (x.ringbase + 64 * (x.tail % x.size)) .write false = .ok p → storePoison s p.pa 64 = none →
          Does (.enq d a b l m e) s k (fun t h => Framed g need none g.sys none h ∧ ScalarValue d 0 h ∧
            (∀ c, homeByte t c =
              if descAddr s q + 0x20 ≤ c ∧ c < descAddr s q + 0x28 then byteOf (descAddr s q + 0x20) ((x.tail + 1) % 2 ^ 32) c
              else if p.pa ≤ c ∧ c < p.pa + 64 then byteOf p.pa (1 + rcd * 2 ^ 64 + rcd * 2 ^ 192) c
              else homeByte s c) ∧ (t.queue q).tail = BitVec.ofNat 32 (x.tail + 1)))))) ∧
  (∀ s q n, s.front.locked = true → exec (.doorbellWrite q n) s = .next s) ∧
  (∀ s q n d, q ≤ 4095 → s.front.locked = false → readDesc s q = some d → d.ok = true → (∀ j, ∀ e ∈ (s.queue j).taken, e.kind ≠ 2) →
    (ahead d.head n.toNat ≤ d.size → ∃ t, exec (.doorbellWrite q n) s = .next t ∧ SameBytes s t ∧
      t.queue q = { s.queue q with
        tail := n
        cplSeen := BitVec.ofNat 32 d.cplhead
        holdCpl := decide (d.size < ahead d.cplhead d.cplnext) } ∧
      (d.size < ahead d.cplhead d.cplnext → t.front.qerr.getLsbD q = true)) ∧
    (d.size < ahead d.head n.toNat → ∃ t, exec (.doorbellWrite q n) s = .next t ∧ SameBytes s t ∧ t.queue q = s.queue q ∧
      t.front.qerr = setBit s.front.qerr q true)) ∧
  (∀ s q d, q ≤ 4095 → readDesc s q = some d → d.ok = true → ∃ t, exec (.cplheadPoll q) s = .next t ∧ SameBytes s t ∧
    t.queue q = { s.queue q with
      cplSeen := BitVec.ofNat 32 d.cplhead
      holdCpl := decide (d.size < ahead d.cplhead d.cplnext) }) ∧
  (∀ s m x, m < 64 → s.front.locked = false → (∀ q, (s.queue q).holdHead = false ∧ (s.queue q).holdPost = false) → ∃ t, exec (.qerrClear m x) s = .next t ∧
    SameBytes s t ∧ ∀ q, q < 4096 → t.front.qerr.getLsbD q = (s.front.qerr.getLsbD q && !(q / 64 == m && x.getLsbD (q % 64)))) ∧
  (∀ s q d e, s.takeable q = some (d, e) → ∃ t, exec (.priorityAging q) s = .next t ∧ SameBytes s t ∧
    (t.queue q).raise = if d.prio + (s.queue q).raise < 3 then (s.queue q).raise + 1 else (s.queue q).raise)

/-- R42, R49 to R51: the head entry of a queue is taken, HEAD is one more, and it completes as its kind says: at once, with status 11
where it is malformed, when its event dword has reached its value, or after it has raised its event dword; a launch entry makes a grid.
Readings and choices of the model that it rests on: log entry 43. -/
def Obligations.EntryResults : Prop :=
  (∀ s q d e b, Takes s q d e → homeByte (takeHead s q d e) b =
    if descAddr s q + 0x18 ≤ b ∧ b < descAddr s q + 0x20 then byteOf (descAddr s q + 0x18) ((d.head + 1) % 2 ^ 32) b else homeByte s b) ∧
  (∀ s q d e pa, Takes s q d e → entryKind e = 0 ∨ 4 < entryKind e → CanPost (takeHead s q d e) q d.taken pa →
    ∃ t, exec (.nothingEntry q) s = .next t ∧ (t.queue q).taken = [] ∧
      Posted (takeHead s q d e) t q d.taken pa (BitVec.ofNat 64 (entryDw e 3)) (if entryBad e then 11 else 0)) ∧
  (∀ s q d e rcd, Takes s q d e → entryKind e = 1 → entryBad e = false →
    (takeHead s q d e).vread d.asid (entryAddr e) 192 .read = some rcd →
    (refusal rcd (entryAddr e) (parseLaunch rcd) d.supv = none → ∃ t g x, exec (.launchEntry q) s = .next t ∧ t.nextId = s.nextId + 1 ∧
      t.grid s.nextId = some g ∧ g.launch = parseLaunch rcd ∧ g.queue = q ∧ g.asid = d.asid ∧ g.supv = d.supv ∧ g.next = 0 ∧ g.ended = none ∧
      (t.queue q).taken = [x] ∧ x.index = d.head ∧ x.grid = some s.nextId ∧ x.token = BitVec.ofNat 64 (entryDw e 3) ∧
      ∀ b, homeByte t b = homeByte (takeHead s q d e) b) ∧
    (∀ c pa, refusal rcd (entryAddr e) (parseLaunch rcd) d.supv = some c → CanPost (takeHead s q d e) q d.taken pa →
      ∃ t, exec (.launchEntry q) s = .next t ∧ (t.queue q).taken = [] ∧ t.grids = s.grids ∧
        Posted (takeHead s q d e) t q d.taken pa (BitVec.ofNat 64 (entryDw e 3)) c)) ∧
  (∀ s q d e v, Takes s q d e → entryKind e = 2 → entryBad e = false → (takeHead s q d e).vread d.asid (entryAddr e) 8 .read = some v →
    readDesc (takeHead s q d e) q = some d.taken →
    (v < entryDw e 2 → ∃ t x, exec (.waitEntry q) s = .next t ∧ (t.queue q).taken = [x] ∧ x.kind = 2 ∧
      x.value = BitVec.ofNat 64 (entryDw e 2) ∧ ∀ b, homeByte t b = homeByte (takeHead s q d e) b) ∧
    (∀ pa, entryDw e 2 ≤ v → CanPost (takeHead s q d e) q d.taken pa → ∃ t, exec (.waitEntry q) s = .next t ∧ (t.queue q).taken = [] ∧
      Posted (takeHead s q d e) t q d.taken pa (BitVec.ofNat 64 (entryDw e 3)) 0)) ∧
  (∀ s q d x v, readDesc s q = some d → (s.queue q).taken = [x] → x.kind = 2 → s.vread d.asid x.addr.toNat 8 .read = some v →
    ((d.ok = true → d.enable = true) → v < x.value.toNat → exec (.waitEntryPoll q) s = .next s) ∧
    (∀ pa, x.value.toNat ≤ v → CanPost s q d pa → ∃ t, exec (.waitEntryPoll q) s = .next t ∧ (t.queue q).taken = [] ∧
      Posted s t q d pa x.token 0)) ∧
  (∀ s q d x pa, CanPost s q d pa → d.enable = false → (s.queue q).taken = [x] → x.kind = 2 →
    (∀ v, s.vread d.asid x.addr.toNat 8 .read = some v → v < x.value.toNat) → ∃ t status, exec (.waitEntryPoll q) s = .next t ∧ (t.queue q).taken = [] ∧ status < 256 ∧ Posted s t q d pa x.token status) ∧
  (∀ s q d e v u pa, Takes s q d e → entryKind e = 3 → entryBad e = false → readDesc (takeHead s q d e) q = some d.taken →
    (takeHead s q d e).vread d.asid (entryAddr e) 8 .both = some v →
    (takeHead s q d e).vwrite d.asid (entryAddr e) (leBytes 8 (max v (entryDw e 2))) = some u → CanPost u q d.taken pa →
    ∃ t, exec (.signalEntry q) s = .next t ∧ (t.queue q).taken = [] ∧ Posted u t q d.taken pa (BitVec.ofNat 64 (entryDw e 3)) 0) ∧
  (∀ s q d e pa, Takes s q d e → entryKind e = 4 → entryBad e = false → CanPost (takeHead s q d e) q d.taken pa →
    ∃ t, exec (.endEntry q) s = .next t ∧ (t.queue q).taken = [] ∧ t.grids = s.grids ∧
      Posted (takeHead s q d e) t q d.taken pa (BitVec.ofNat 64 (entryDw e 3)) 0) ∧
  (∀ s q d e x id g, s.takeable q = some (d, e) → s.chosen q = true → entryKind e = 4 → entryBad e = false → (s.queue q).taken = [x] →
    x.kind = 1 → x.index ≠ d.head → x.grid = some id → s.grid id = some g → g.ended = none → s.groups = [] → s.teams = [] →
    ∃ t g', exec (.endEntry q) s = .next t ∧ t.grid id = some g' ∧ g'.ended = some 17)

/-- R36, R40, R53 to R61, R65, R400, R446: a unit is admitted to cores that have a free slot and its endpoints free; a reservation; teams
start in the order of admission; a group's state at its start; a grid that has ended posts its completion.
Readings and choices of the model that it rests on: log entries 28, 47, 58 and 82. -/
def Obligations.StartResults : Prop :=
  (∀ s id g c, s.grid id = some g → g.waits = true → g.launch.unitTeams = 1 →
    placeUnits g.launch g.next (if g.coresident then g.launch.count7 - g.next else 1) (s.occ.without (s.heldAgainst id g)) = some [c] →
    (s.teamsOn c).length < 8 ∧ (∀ e, e < 32 → g.launch.kindOf e ≠ 0 → Tab.get (s.core c).eps e = none) ∧
    ∃ t x g', exec (.unitAdmission id) s = .next t ∧ SameBytes s t ∧ t.nextId = s.nextId + 2 ∧ t.team s.nextId = some x ∧ x.grid = id ∧
      x.index = g.next ∧ x.core = c ∧ x.started = false ∧ x.request = 7 ∧ x.slot < 8 ∧ (∀ y ∈ s.teamsOn c, y.2.slot ≠ x.slot) ∧
      t.front.admitted = s.front.admitted ++ [s.nextId] ∧ t.grid id = some g' ∧ g'.next = g.next + 1 ∧ g'.reserves = false ∧ g'.since = s.nextId + 1 ∧
      ∀ e, e < 32 → g.launch.kindOf e ≠ 0 → Tab.get (t.core c).eps e = some { team := s.nextId, kind := g.launch.kindOf e }) ∧
  (∀ s id g, s.grid id = some g → g.waits = true → ∃ t, exec (.unitReservation id) s = .next t ∧ SameBytes s t ∧
    t.grid id = some { g with reserves := true }) ∧
  (∀ s n k x pre post, s.front.admitted = pre ++ k :: post → s.team k = some x → dieOf x.core / 6 = n → x.status = .running → x.started = false →
    (∀ j ∈ pre, ∀ y, s.team j = some y → dieOf y.core / 6 ≠ n) → ∃ t, exec (.teamStart n) s = .next t ∧ SameBytes s t ∧
    t.team k = some { x with started := true } ∧ k ∉ t.front.admitted ∧ ∀ j, j ≠ k → t.team j = s.team j) ∧
  (∀ s k x g, s.team k = some x → s.grid x.grid = some g → x.started = true → x.status = .running → x.begun < g.launch.ordinary →
    s.freeSlots x.grid g ≠ [] → 2 ≤ (s.core x.core).freeEntries.length → g.launch.ncpy ≤ x.begun ∧ x.begun < g.launch.ncpy + g.launch.nmat →
    ∃ t h x', exec (.groupStart k) s = .next t ∧ t.nextId = s.nextId + 1 ∧ t.team k = some x' ∧ x'.begun = x.begun + 1 ∧
      t.group s.nextId = some h ∧ h.id.role = .matrix ∧ h.id.num = x.begun ∧ h.id.team = k ∧ h.id.slot ∈ s.freeSlots x.grid g ∧
      h.id.base = g.launch.ctxbase + h.id.slot * g.launch.ctxstride * 65536 ∧ h.id.foot = g.launch.footmat ∧
      h.pc = BitVec.ofNat 64 ((g.launch.imgbase + 4 * g.launch.entrymat) % 2 ^ 57) ∧
      (h.gstate = .pending ∨ h.gstate = .dormant ∨ (h.gstate = .ctxFault ∧ (h.before = .pending ∨ h.before = .dormant))) ∧ h.bundle = none ∧ h.sreg 3 = BitVec.ofNat 64 g.launch.args ∧
      h.sreg 4 = BitVec.ofNat 64 g.launch.imgbase ∧ (∀ n, n < 32 → h.live (.s n) = (n == 0 || n == 3 || n == 4)) ∧
      (∀ n, n < 32 → h.live (.v n) = false) ∧ (∀ j l, 0 < j → j < 8 → l < h.lanes → h.predBit j l = false) ∧
      (h.id.foot ≤ 4 → ∀ l, l < h.lanes → bit h.alive l = true) ∧ h.arrived = 0 ∧ h.sys.fpx = 0) ∧
  (∀ s id g d pa x, s.grids = [(id, g)] → g.ended = none → g.next = g.launch.total → s.teams = [] → g.past = [] → s.flushStalled g = false →
    (s.queue g.queue).taken = [x] → x.index = g.index → CanPost s g.queue d pa → ∃ t, exec (.gridEnd id) s = .next t ∧
      t.grids = [] ∧ (t.queue g.queue).taken = [] ∧ Posted s t g.queue d pa x.token 0)

/-- R101, R109, R110, R114, R115, R124, R125, spec/09 R201: activation, demotion and swaps of groups; a swap takes a group that has been passed over too
often first, then by priority; a fill; the retirement of a special-function result; banks that wake and rest.
Readings and choices of the model that it rests on: log entries 53, 54, 74 and 75. -/
def Obligations.SchedulerResults : Prop :=
  (∀ s c i k h, s.freeTab c = some i → s.nextDormant c = some (k, h) → s.group k = some h → h.log.valid = false →
    (∀ u, readContext s k h = .ok (some u) → ∃ t g0 g, exec (.groupActivation c) s = .next t ∧ SameBytes s t ∧ u.group k = some g0 ∧
      t.group k = some g ∧ g.gstate = .pending ∧ g.sched.tab = some i ∧ g.inMem = false ∧ g.regs = g0.regs ∧ g.sys = g0.sys ∧ g.pc = g0.pc) ∧
    (readContext s k h = .ok none → ∃ t g, exec (.groupActivation c) s = .next t ∧ SameBytes s t ∧ t.group k = some g ∧
      g.gstate = .ctxFault ∧ g.before = .dormant ∧ g.cfcause = 3 ∧ g.cfaddr = h.id.base ∧ g.regs = h.regs) ∧
    (∀ e, readContext s k h = .error e → ∃ t g, exec (.groupActivation c) s = .next t ∧ SameBytes s t ∧ t.group k = some g ∧
      g.gstate = .ctxFault ∧ g.before = .dormant ∧ g.cfcause = (if e.2 then 4 else 1) ∧ g.cfaddr = e.1 ∧ g.regs = h.regs)) ∧
  (∀ s c k h, s.freeTab c = none → s.nextDormant c ≠ none → s.nextDemoted c = some (k, h) → s.group k = some h →
    (writeBack ((closeRegion s k).modGroup k Group.toBoundary) k (gstateCode (if h.gstate = .ctxFault then .ctxFault else .dormant))).2 = true →
    ((h.gstate = .ctxFault ∧ h.before = .pending) ∨ (h.gstate = .pending ∧ (h.sched.yielded = true ∨ h.blocked ≠ none))) ∧
    ∃ t g, exec (.demotion c) s = .next t ∧ t.group k = some g ∧ g.gstate = (if h.gstate = .ctxFault then .ctxFault else .dormant) ∧
      g.before = .dormant ∧ g.sched.tab = none ∧ g.inMem = true ∧ g.sched.prio = .normal) ∧
  (∀ s c k g i out, s.nextPending c = some (k, g) → s.swapPlace c = some (i, out) →
    ((∃ x ∈ s.readyIn c .pending, 32 ≤ x.2.sched.passed) → 32 ≤ g.sched.passed) ∧
    ((∀ x ∈ s.readyIn c .pending, x.2.sched.passed < 32) → ∀ x ∈ s.readyIn c .pending, prioRank g.sched.prio ≤ prioRank x.2.sched.prio) ∧
    ∃ t h, exec (.schedulerSwap c) s = .next t ∧ SameBytes s t ∧ t.group k = some h ∧ h.gstate = .active ∧ h.sched.passed = 0 ∧
      (t.core c).active.getD i none = some k ∧ ∀ x, out = some x →
        (x ≠ k → ∀ y, s.group x = some y → ∃ y', t.group x = some y' ∧ y'.gstate = .pending) ∧
        ∀ e ∈ s.readyIn c .pending, e.1 ≠ k → ∀ y, s.group e.1 = some y → ∃ y', t.group e.1 = some y' ∧ y'.sched.passed = y.sched.passed + 1) ∧
  (∀ s k g n v rs keep, s.group k = some g → g.blocked = some (.fill rs keep) → s.writeHeld k g.id.core g.id.foot (.s n) = false →
    g.gstate = .active ∨ g.gstate = .pending → n ≠ 0 → n < 32 →
    rs.find? (fun r => !(s.core g.id.core).cached k g.id.foot r) = some (.s n) → (s.core g.id.core).room k g.id.foot false (.s n) = true →
    ctxLoad s g (g.id.base + scalarOff n) = .ok v → ∃ t h, exec (.registerFill k) s = .next t ∧ SameBytes s t ∧ t.group k = some h ∧
      h.sreg n = BitVec.ofNat 64 v ∧ (∀ r, r ≠ .s n → ∀ l, h.value r l = g.value r l) ∧ (t.core g.id.core).cached k g.id.foot (.s n) = true) ∧
  (∀ s c i e n g, (s.core c).sfu[i]? = some e → e.dest = some n → e.keep = none → s.group e.group = some g → g.id.core = c → g.inMem = false → g.id.foot ≤ 4 →
    (s.core c).cached e.group g.id.foot (.v n) = true → s.writeHeld e.group c g.id.foot (.v n) (bit e.mask) = false → n < 32 → ∃ t h, exec (.sfuResult c i) s = .next t ∧ SameBytes s t ∧
      (t.core c).sfu = dropAt (s.core c).sfu i ∧ t.group e.group = some h ∧ h.empty (.v n) = false ∧
      h.sys = { g.sys with fpx := g.sys.fpx ||| BitVec.ofNat 64 e.flags.toNat } ∧
      ∀ l, l < g.lanes → h.vreg n l = if bit e.mask l then e.vals.getD l 0 else g.vreg n l) ∧
  (∀ s c p b st, (if p then (s.core c).pstate b else (s.core c).lstate b) = st → (st = .waking ∨ st = .rousing) → ∃ t, exec (.bankWake c p b) s = .next t ∧ SameBytes s t ∧
    (if p then (t.core c).pstate b else (t.core c).lstate b) = .full) ∧
  (∀ s c p b, s.mayRest c b p = true → ∃ t, exec (.bankRetention c p b) s = .next t ∧ SameBytes s t ∧
    (if p then (t.core c).pstate b else (t.core c).lstate b) = .retention ∧ (t.core c).plane = (s.core c).plane ∧ (t.core c).rows = (s.core c).rows)

/-- R386 to R389, R391: `ctxrd` reads a register element of the context that its handler serves, zero where it is dead; `ctxwr` writes one; a
handler that serves none aborts its grid; `tret` resumes or ends the group it serves, and ends the handler; `idem` opens a region at the
next bundle with the group's values at entry; `idem.end` closes one. -/
def Obligations.HandlerResults : Prop :=
  (∀ d a b s k g x y r l, let need := needS g [(sr a, false), (sr b, false)] (some (sr d)) false false
    Ready (.ctxrd d a b) s k g need → Serves s k g a x y → CtxElem y.id.foot r l (g.sreg b.toNat).toNat → y.id.foot ≤ 4 →
    y.empty r = false → s.ctxErrs x y (g.sreg b.toNat).toNat = [] → (y.live r = true → (s.core y.id.core).cached x y.id.foot r = true) →
    Leaves (.ctxrd d a b) s k (fun h => Framed g need none g.sys none h ∧ ScalarValue d (if y.live r then y.value r l else 0) h)) ∧
  (∀ d a b s k g x y r l, let need := needS g [(sr a, false), (sr b, false), (sr d, false)] none false false
    Ready (.ctxwr d a b) s k g need → Serves s k g a x y → CtxElem y.id.foot r l (g.sreg b.toNat).toNat → y.id.foot ≤ 4 →
    y.empty r = false → s.writeHeld x y.id.core y.id.foot r (· == l) = false → y.live r = true → r ≠ .s 0 → (s.core y.id.core).cached x y.id.foot r = true → y.inMem = false →
    Does (.ctxwr d a b) s k (fun t h => Framed g need none g.sys none h ∧ SameBytes s t ∧ ∃ y', t.group x = some y' ∧ y'.value r l = g.sreg d.toNat ∧
      y'.pc = y.pc ∧ y'.sys = { y.sys with wdcount := y'.sys.wdcount } ∧
      ∀ q j, q ≠ r ∨ (∃ n, r = .v n ∧ j ≠ l ∧ j < y.lanes) → y'.value q j = y.value q j ∧ y'.live q = y.live q)) ∧
  (∀ d a b s k g gr, Ready (.ctxrd d a b) s k g (needS g [(sr a, false), (sr b, false)] (some (sr d)) false false) → g.id.serves = none →
    s.grid g.id.grid = some gr → gr.ended = none → ∃ t gr', exec (.ctxrd d a b) s = .next t ∧ t.grid g.id.grid = some gr' ∧ gr'.ended = some 16) ∧
  (∀ a b s k g x y, let need := needS g [(sr a, false), (sr b, false)] none false false
    Ready (.tret a b) s k g need → Serves s k g a x y →
    (g.sreg b.toNat = 0 → y.log.valid = false → Does (.tret a b) s k (fun t h => h.alive = 0 ∧ h.id.serves = none ∧ h.regs = g.regs ∧
      SameBytes s t ∧ ∃ y', t.group x = some y' ∧ (y'.gstate = (if y.sched.tab.isSome then .pending else .dormant) ∨
        (y.sched.tab.isSome = true ∧ y'.gstate = .active)) ∧ y'.pc = y.pc ∧
        y'.regs = y.regs ∧ y'.alive = y.alive)) ∧
    (g.sreg b.toNat = 1 → Does (.tret a b) s k (fun t h => h.alive = 0 ∧ h.id.serves = none ∧ h.regs = g.regs ∧ SameBytes s t ∧
      ∃ y', t.group x = some y' ∧ y'.alive = 0))) ∧
  (∀ s k g, Ready .idem s k g { closes := true } → (s.core g.id.core).scrollOf k = false → Does .idem s k (fun t h =>
    Framed g { closes := true } none g.sys none h ∧ SameBytes s t ∧ ∃ r, h.region = some r ∧ r.entry = g.pc + 4 ∧ r.regs = g.regs ∧
      r.sys = g.sys ∧ r.stouched = 0 ∧ r.vtouched = 0)) ∧
  (∀ s k g, Ready .idemEnd s k g { closes := true } → Leaves .idemEnd s k (fun h => Framed g { closes := true } none g.sys none h ∧ h.region = none))

/-- R119, R120, R245, R249, R390: the statuses of `sret`, `grpsusp`, `grpres` and `asgen`, and what each does to the group or the address
space that it names.
Readings and choices of the model that it rests on: log entries 19 and 20. -/
def Obligations.SupervisorResults : Prop :=
  (∀ d a b s k g, let need := needS g [(sr a, false), (sr b, false)] (some (sr d)) false false
    let v := g.sreg b.toNat
    Ready (.sret d a b) s k g need →
    (v &&& 0xFFFF0000FFFCFC00 ≠ 0 ∨ 1 < bits v 17 16 →
      Leaves (.sret d a b) s k (fun h => Framed g need none g.sys none h ∧ ScalarValue d 2 h)) ∧
    (v &&& 0xFFFF0000FFFCFC00 = 0 → bits v 17 16 ≤ 1 →
      (∀ e ∈ s.groups, ¬ (e.2.id.core = bits v 9 0 ∧ e.2.id.base = (g.sreg a.toNat).toNat ∧ e.2.id.asid = bits v 47 32)) →
      Leaves (.sret d a b) s k (fun h => Framed g need none g.sys none h ∧ ScalarValue d 1 h)) ∧
    (∀ x y gr, v &&& 0xFFFF0000FFFCFC00 = 0 → bits v 17 16 = 1 →
      s.inSlot (bits v 9 0) (g.sreg a.toNat).toNat (fun y => y.id.asid == bits v 47 32) = some (x, y) → s.grid y.id.grid = some gr →
      gr.ended = none → ∃ t gr', exec (.sret d a b) s = .next t ∧ t.grid y.id.grid = some gr' ∧ gr'.ended = some 17) ∧
    (∀ x y, v &&& 0xFFFF0000FFFCFC00 = 0 → bits v 17 16 = 0 → y.gstate ≠ .ctxFault →
      s.inSlot (bits v 9 0) (g.sreg a.toNat).toNat (fun y => y.id.asid == bits v 47 32) = some (x, y) →
      Leaves (.sret d a b) s k (fun h => Framed g need none g.sys none h ∧ ScalarValue d 1 h)) ∧
    (∀ x y, v &&& 0xFFFF0000FFFCFC00 = 0 → bits v 17 16 = 0 → y.gstate = .ctxFault → x ≠ k → s.group x = some y →
      (∀ w ∈ (s.core y.id.core).acqWaits, w.group ≠ x) →
      s.inSlot (bits v 9 0) (g.sreg a.toNat).toNat (fun y => y.id.asid == bits v 47 32) = some (x, y) →
      y.held = [] ∨ (y.held = [.served] ∧ s.ctxErrs x y (y.cfaddr - y.id.base) = [] ∧ ∃ n, ctxLoad s y y.cfaddr = .ok n) → Does (.sret d a b) s k (fun t h =>
        Framed g need none g.sys none h ∧ ScalarValue d 0 h ∧ SameBytes s t ∧ ∃ y', t.group x = some y' ∧ y'.held = [] ∧ y'.regs = y.regs ∧
        y'.pc = y.pc ∧ (y'.gstate = y.before ∨ (y.before = .pending ∧ y'.gstate = .active))))) ∧
  (∀ d a s k g, let need := { needS g [(sr a, false)] (some (sr d)) false false with closes := true }
    Ready (.grpsusp d a) s k g need →
    (∀ n, s.suspTarget k g a = .error n → Leaves (.grpsusp d a) s k (fun h => Framed g need none g.sys none h ∧ ScalarValue d (BitVec.ofNat 64 n) h)) ∧
    ((∀ e ∈ s.groups, ¬ (e.2.id.core = g.id.core ∧ e.2.id.base = (g.sreg a.toNat).toNat)) → (s.core g.id.core).gone = [] →
      s.suspTarget k g a = .error 1) ∧
    (∀ x y, s.group x = some y → s.suspTarget k g a = .ok (x, y) → s.producing x y = false → Unwaited s k → Does (.grpsusp d a) s k (fun t h => ∃ n : Nat,
      Framed g need none g.sys none h ∧ ScalarValue d (BitVec.ofNat 64 n) h ∧ (n = 0 ∨ n = 4) ∧ ∃ y', t.group x = some y' ∧
      y'.regs = y.regs ∧ (n = 0 → y'.gstate = .suspended ∧ y'.inMem = true ∧ y'.sched.tab = none) ∧ (n = 4 → y'.gstate = .ctxFault)))) ∧
  (∀ d a s k g, let need := needS g [(sr a, false)] (some (sr d)) false false
    Ready (.grpres d a) s k g need →
    ((∀ e ∈ s.groups, ¬ (e.2.id.core = g.id.core ∧ e.2.id.base = (g.sreg a.toNat).toNat ∧ e.2.gstate = .suspended)) →
      Leaves (.grpres d a) s k (fun h => Framed g need none g.sys none h ∧ ScalarValue d 1 h)) ∧
    (∀ x y, s.group x = some y → x ≠ k → s.inSlot g.id.core (g.sreg a.toNat).toNat (fun y => y.gstate == .suspended && y.inMem) = some (x, y) →
      Unwaited s k → Does (.grpres d a) s k (fun t h => ∃ n : Nat, Framed g need none g.sys none h ∧ ScalarValue d (BitVec.ofNat 64 n) h ∧ ∃ y', t.group x = some y' ∧
        ((n = 0 ∧ y'.gstate = .dormant) ∨ (n = 2 ∧ y'.gstate = .suspended ∧ y'.cfcause = 3 ∧ y'.cfaddr = y.id.base) ∨
          (n = 3 ∧ y'.gstate = .ctxFault))))) ∧
  (∀ d a b s k g, let need := { needS g [(sr a, false), (sr b, false)] (some (sr d)) false false with closes := true }
    let v := g.sreg a.toNat
    let w := g.sreg b.toNat
    Ready (.asgen d a b) s k g need → g.blocked ≠ some .drain →
    (bits v 63 16 ≠ 0 ∨ bits w 15 2 ≠ 0 ∨ bits w 63 57 ≠ 0 ∨ (bits w 1 0 ≠ 3 ∧ bits w 56 16 ≠ 0) →
      Leaves (.asgen d a b) s k (fun h => Framed g need none g.sys none h ∧ ScalarValue d 2 h)) ∧
    (bits v 63 16 = 0 → w = 0 → (raiseGen s (bits v 15 0)).olderOut (bits v 15 0) (s.gen (bits v 15 0) + 1) = false →
      Does (.asgen d a b) s k (fun t h => Framed g need none g.sys none h ∧ ScalarValue d 0 h ∧ SameBytes s t ∧
        ∀ n, t.gen n = if n = bits v 15 0 then s.gen n + 1 else s.gen n)) ∧
    (∀ x y, bits v 63 16 = 0 → bits w 15 2 = 0 → bits w 63 57 = 0 → bits w 1 0 = 3 → s.group x = some y → y.id.asid = bits v 15 0 →
      y.log.valid = true → y.log.failed = false → y.log.faddr / 65536 = bits w 56 16 → ∃ t y', exec (.asgen d a b) s = .next t ∧
        t.group x = some y' ∧ y'.log.failed = true ∧ (∀ n, t.gen n = s.gen n) ∧
        ⟨16, y.log.bundlepc, y.log.insn, BitVec.ofNat 64 y.log.faddr, BitVec.ofNat 64 y.log.cause, none⟩ ∈ y'.pend))

/-- R393 to R397: a write of PREEMPT sends its signal to the team's core; the team that a pre-empt reaches is flushed, each group back at
its region's entry with the values it had there, or begins to be saved; a group with a trap due takes it first; a saved team gives up its words; a restart makes a flushed team run, and a saved one wait for a core that takes it
back.
Readings and choices of the model that it rests on: log entries 18, 33, 34, 77 and 78. -/
def Obligations.PreemptResults : Prop :=
  (∀ s v k x, s.teamNamed v = some k → s.team k = some x → x.status = .running → (∀ e ∈ s.groups, e.2.id.team = k → e.2.pend = []) →
    (s.mayFlush k = true → ∃ t y, exec (.preemptPreempt v) s = .next t ∧ t.team k = some y ∧ y.status = .flushed ∧ t.preemptState = 2 ∧
      t.preemptPath = false ∧ ((∀ e ∈ s.groups, e.2.id.team = k → Unwaited s e.1) → ∀ j g r, s.group j = some g → g.id.team = k → g.region = some r → ∃ h, t.group j = some h ∧ h.pc = r.entry ∧ h.bundle = none ∧
        h.rptdone = 0 ∧ h.regs = { r.regs with pin := g.regs.pin } ∧ h.sys = g.sys.back r.sys ∧ h.sched.tab = none)) ∧
    (s.mayFlush k = false → ∃ t y, exec (.preemptPreempt v) s = .next t ∧ t.team k = some y ∧ y.status = .saving ∧ t.preemptState = 1 ∧
      t.preemptPath = true ∧ ∀ z ∈ (t.core x.core).copies, z.team ≠ k)) ∧
  (∀ s c v k x, s.teamNamed v = some k → s.team k = some x → bits v 1 0 = 0 → ∃ t, exec (.registerWrite c 1032 v) s = .next t ∧ SameBytes s t ∧
    t.signals = s.signals ++ [⟨c, x.core, .preempt k, s.tc0⟩] ∧ t.teams = s.teams ∧ t.groups = s.groups ∧
    (x.status = .running → t.preemptState = 1)) ∧
  (∀ s (i : Nat) p k x, s.signals[i]? = some p → p.packet = .preempt k → s.mayArrive p.src p.dst p.seq = true → s.team k = some x →
    x.status = .running → (∀ e ∈ s.groups, e.2.id.team = k → e.2.pend = []) → ∃ t y, exec (.syncSignal i) s = .next t ∧ t.team k = some y ∧
      y.status = (if s.mayFlush k then .flushed else .saving)) ∧
  (∀ s v k x j g d, s.teamNamed v = some k → s.team k = some x → x.status = .running → s.groups = [(j, g)] → g.id.team = k →
    g.dueTrap = some d → d.code ≠ 26 → (g.gstate = .active ∨ g.gstate = .pending) → g.alive ≠ 0 → s.atBoundary j g = true → Handled s g →
    ∃ t y h, exec (.preemptPreempt v) s = .next t ∧ t.team k = some y ∧ y.status = .saving ∧ y.handlers = x.handlers ++ [j] ∧
      t.group j = some h ∧ h.trap.cause = d.code ∧ h.trap.deferred = true ∧ h.trap.retpc = g.bundlePc) ∧
  (∀ s v, s.teamNamed v = none → ∃ t, exec (.preemptPreempt v) s = .next t ∧ SameBytes s t ∧ t.preemptState = 5 ∧ t.groups = s.groups ∧
    t.teams = s.teams) ∧
  (∀ s k x gr, s.team k = some x → x.status = .saving → s.drained k x = true → s.groupsOf k = [] → (∀ w ∈ (s.core x.core).acqWaits, w.team ≠ k) → s.grid x.grid = some gr →
    s.saveFault gr.asid (gr.launch.saveArea x.index) gr.launch.saveBytes = none → ∃ t y, exec (.preemptSaveComplete k) s = .next t ∧
      t.team k = some y ∧ y.status = .saved ∧ y.plane = (s.core x.core).plane.filter (fun w => w.2.own == k) ∧
      ∀ w ∈ (t.core x.core).plane, w.2.own ≠ k) ∧
  (∀ s v k x, s.teamNamed v = some k → s.team k = some x →
    (x.status = .flushed → ∃ t, exec (.preemptRestart v) s = .next t ∧ SameBytes s t ∧ t.team k = some { x with status := .running } ∧
      t.preemptState = (if s.preemptComing k then 1 else 0)) ∧
    (x.status = .saved → ∃ t, exec (.preemptRestart v) s = .next t ∧ SameBytes s t ∧ t.team k = some { x with status := .restarting } ∧
      t.preemptState = 4)) ∧
  (∀ s k x c, s.team k = some x → x.status = .restarting → (s.homes k x).find? (s.takesBack k x) = some c → ∃ t y,
    exec (.savedTeamReadmission k) s = .next t ∧ t.team k = some y ∧ y.status = .running ∧ y.core = c ∧ y.hive = x.hive ∧ y.acc = x.acc ∧
      y.accHeld = x.accHeld ∧ y.tagHeld = x.tagHeld ∧ y.phase = x.phase ∧ y.request = x.request ∧ y.key = x.key ∧
      (∃ again, (t.core c).copies = (s.core c).copies ++ again ∧ again.length = x.cmds.length ∧ ∀ (i : Nat) z, x.cmds[i]? = some z →
        ∃ z', again[i]? = some z' ∧ z'.group = z.group ∧ z'.team = z.team ∧ z'.near = z.near ∧ z'.fn = z.fn ∧ z'.tag = z.tag ∧ z'.cw = z.cw ∧
          z'.a = z.a ∧ z'.b = z.b ∧ z'.c = z.c ∧ z'.skew = z.skew ∧ z'.running = z.running) ∧ ∀ j g, s.group j = some g → g.id.team = k → ∃ h, t.group j = some h ∧ h.id.core = c ∧
        h.regs = g.regs ∧ h.pc = g.pc)

/-- R340 to R350, R380 to R386, R398, R399: a watchdog that has run out, a pending cause that is due (the lowest code first, one of poisoned values once those are written, R264), the start of a
handler, an event written into the supervisor's ring, and the retirement of a group and of its team.
Readings and choices of the model that it rests on: log entries 14, 21, 48, 58, 62, 64 and 76. -/
def Obligations.TrapEvents : Prop :=
  (∀ s k g w s', s.group k = some g → (g.gstate = .active ∨ g.gstate = .pending ∨ g.gstate = .dormant) → g.alive ≠ 0 → g.sys.wdlimit ≠ 0 →
    g.sys.wdlimit.toNat ≤ g.sys.wdcount.toNat → s.atBoundary k g = true → Handled s g → fetch s k g = .word w s' →
    ∃ t, exec (.watchdogExpiry k) s = .next t ∧ Trapped t k g 25 g.sys.wdlimit 0 w g.bundlePc g.bundlePc ∧
      ∃ h, t.group k = some h ∧ h.sys = { g.sys with wdcount := 0 }) ∧
  (∀ s k g, s.group k = some g → (g.gstate = .active ∨ g.gstate = .pending) → g.alive ≠ 0 → s.atBoundary k g = true → Handled s g →
    (∃ e ∈ g.pend, g.ripe e = true) → (∀ e ∈ g.pend, e.code ≠ 26) → ∃ t h d, exec (.deferredTrap k) s = .next t ∧ t.group k = some h ∧
      d ∈ g.pend ∧ g.ripe d = true ∧ (∀ e ∈ g.pend, g.ripe e = true → d.code ≤ e.code) ∧ h.trap.cause = d.code ∧ h.trap.deferred = true ∧ h.trap.faultpc = d.faultpc ∧ h.trap.insn = d.insn ∧
      h.trap.info0 = d.info0 ∧ h.trap.info1 = d.info1 ∧ h.pend = g.pend.erase d ∧ h.pc = g.bundlePc ∧
      (g.asking = false → h.regs = g.regs)) ∧
  (∀ s k x n y rest gr, s.team k = some x → x.handlers = n :: rest → s.grid x.grid = some gr → s.group n = some y → y.gstate = .handler →
    x.status = .running → s.freeSlots x.grid gr ≠ [] → ∃ t h x', exec (.handlerStart k) s = .next t ∧ t.nextId = s.nextId + 1 ∧
      t.group s.nextId = some h ∧ h.id.hndl = true ∧ h.id.serves = some n ∧ h.id.role = y.id.role ∧ h.id.num = x.nextNum ∧
      h.pc = BitVec.ofNat 64 ((gr.launch.imgbase + 4 * gr.launch.entrytrap) % 2 ^ 57) ∧ h.sreg 1 = BitVec.ofNat 64 y.id.base ∧
      h.sreg 2 = BitVec.ofNat 64 y.trap.cause ∧ (∀ n, n < 32 → h.live (.s n) = decide (n < 5)) ∧ t.team k = some x' ∧ x'.handlers = rest ∧
      x'.nextNum = x.nextNum + 1) ∧
  (∀ s e rest, s.sysev = e :: rest →
    let log := bits s.sup.sysevq 4 0
    let n := s.sup.sysTail.toNat
    let a := bits s.sup.sysevq 51 12 * 4096 + 32 * (n % 2 ^ log)
    4 ≤ log → log ≤ 12 → e.kind < 256 → ahead s.sup.sysHead.toNat n ≠ 2 ^ log → inHeap a 32 = true → storePoison s a 32 = none →
    ∃ t, exec .systemEventPost s = .next t ∧ t.sysev = rest ∧ t.sup = { s.sup with sysTail := s.sup.sysTail + 1 } ∧
      ∀ b, homeByte t b = if a ≤ b ∧ b < a + 32 then byteOf a (
        e.kind + (if n / 2 ^ log % 2 = 0 then 256 else 0) + e.core % 1024 * 2 ^ 16 + e.asid % 65536 * 2 ^ 48 + e.base % 2 ^ 57 * 2 ^ 64 +
        e.addr % 2 ^ 57 * 2 ^ 128 + e.cause * 2 ^ 192) b else homeByte s b) ∧
  (∀ s k g x gr, s.groups = [(k, g)] → s.mayRetire k g = true → g.id.serves = none → s.teams = [(g.id.team, x)] → s.grid x.grid = some gr →
    x.started = true → gr.launch.ordinary ≤ x.begun → gr.launch.resident = false → (s.core g.id.core).acqPast 0 = false →
    let u := spendContext (closeRegion s k) k g
    (u.2 = true → ∃ t, exec (.groupRetire k) s = .next t ∧ t.groups = [] ∧ t.teams = [] ∧ (g.id.grid, g.id.base) ∈ (t.core g.id.core).gone ∧
      (g.accs = [] → ∀ b, homeByte t b = homeByte u.1 b)) ∧
    (u.2 = false → ∃ t h, exec (.groupRetire k) s = .next t ∧ t.group k = some h ∧ h.gstate = .ctxFault ∧ h.before = g.cameFrom))

/-- R407, R409 to R418: a strike damages a stored word, and one in a latch is masked; a rebuild gives the word back, or marks it where another
row of its group or its parity row is damaged, which a scrub that waits for it counts as uncorrectable; the repair that an entry's first
class asks for; a scrub requests the rebuild of a damaged word and counts a marked one of a core; repairs and their spares; the check of the
matrix rows, for which the slot of a working array is held; replays of a stage, the fourth in succession a persistent fault; link replays
take only time; a die's reset.  An entry that requests nothing leaves the state as it is.
Readings and choices of the model that it rests on: log entries 8, 37, 38, 39, 80, 87 and 101. -/
def Obligations.ReliabilityResults : Prop :=
  (∀ s site, (∀ e ∈ s.errs, e.site ≠ site) → ∃ t, exec (.softError site) s = .next t ∧ SameBytes s t ∧
    t.errs = (if s.stored site then s.errs ++ [⟨site, false⟩] else s.errs) ∧ t.cores = s.cores ∧ t.groups = s.groups ∧ t.poison = s.poison) ∧
  (∀ s, exec (.softError .latch) s = .next s) ∧
  (∀ s g, s.stored (.hbm g) = true → (∃ e ∈ s.errs, e.site = .hbm g) → ∃ t, exec (.softError (.hbm g)) s = .next t ∧ SameBytes s t ∧
    ((∀ b, poisoned t (32 * g) 32 = true ∧ (b / 32 ≠ g → poisoned t b 1 = poisoned s b 1)) ∨ t.poison = s.poison)) ∧
  (∀ s d e rest c, (s.die d).rebuilds = e.site :: rest → e ∈ s.errs → (∀ o ∈ s.errs, o.site = e.site → o = e) → e.marked = false → coreAt e.site = some c →
    (∀ o, e.site ≠ .parity o) →
    ((∀ o ∈ s.errs, sameGroup e.site o.site = false ∧ parityOf e.site o.site = false) → ∃ t, exec (.rebuildComplete d) s = .next t ∧ SameBytes s t ∧
      t.errs = s.errs.filter (fun o => o.site ≠ e.site) ∧ (t.die d).rebuilds = rest.filter (fun r => r ≠ e.site) ∧
      (t.core c).ras.corr = min 0xFFFF ((s.core c).ras.corr + 1) ∧ (t.core c).plane = (s.core c).plane ∧ (t.core c).rows = (s.core c).rows) ∧
    (∀ k o, e.site = .plane c k → o ∈ s.errs → sameGroup e.site o.site = true ∨ parityOf e.site o.site = true → ∃ t, exec (.rebuildComplete d) s = .next t ∧ SameBytes s t ∧
      t.errs = s.errs.map (fun o => if o.site = e.site then { o with marked := true } else o) ∧ (t.die d).rebuilds = rest ∧
      (t.core c).ras.uncorr = (if e.site ∈ (s.die (dieOf c)).scrubs then min 0xFF ((s.core c).ras.uncorr + 1) else (s.core c).ras.uncorr) ∧
      e.site ∉ (t.die (dieOf c)).scrubs ∧ (t.core c).plane = (s.core c).plane)) ∧
  (∀ s d i, ∃ t, exec (.classifierEntryExpiry d i) s = .next t ∧ SameBytes s t ∧ (t.die d).classifier = dropAt (s.die d).classifier i) ∧
  (∀ s d (i : Nat) x, (s.die d).classifier[i]? = some x → x.want = none → exec (.arrayRepair d i) s = .next s) ∧
  (∀ s d (i : Nat) x k word, (s.die d).classifier[i]? = some x → s.mayRepair x = true → x.want = some (k, word) →
    (k = .bank → ∃ t, exec (.arrayRepair d i) s = .next t ∧ SameBytes s t ∧
      (t.core x.core).ras = { (s.core x.core).ras with degraded := true } ∧ (t.core x.core).mapCol = (s.core x.core).mapCol ∧
      (t.core x.core).mapRow = (s.core x.core).mapRow) ∧
    (∀ cell, x.array = 0 → word / 128 = cell →
      (k = .column ∨ k = .cell → (s.core x.core).ras.colSpare = false → ∃ t, exec (.arrayRepair d i) s = .next t ∧ SameBytes s t ∧
        (t.core x.core).mapCol = some (cell % 32) ∧ (t.core x.core).mapRow = (s.core x.core).mapRow ∧ (t.core x.core).ras.colSpare = true ∧
        (t.core x.core).ras.repairs = min 0xFF ((s.core x.core).ras.repairs + 1) ∧ (t.core x.core).plane = (s.core x.core).plane) ∧
      (k = .row → (s.core x.core).ras.rowSpare = false → ∃ t, exec (.arrayRepair d i) s = .next t ∧ SameBytes s t ∧
        (t.core x.core).mapRow = some (cell / 32) ∧ (t.core x.core).mapCol = (s.core x.core).mapCol ∧ (t.core x.core).ras.rowSpare = true ∧
        (t.core x.core).ras.repairs = min 0xFF ((s.core x.core).ras.repairs + 1) ∧ (t.core x.core).plane = (s.core x.core).plane) ∧
      ((s.core x.core).ras.colSpare = true → (s.core x.core).ras.rowSpare = true → ∃ t, exec (.arrayRepair d i) s = .next t ∧ SameBytes s t ∧
        (t.core x.core).ras = { (s.core x.core).ras with degraded := true })) ∧
    (1 ≤ x.array → x.array ≤ 4 → k ≠ .bank →
      let used := Tab.getD (s.core x.core).ras.arrSpares x.array 0
      (used % 256 < 2 → ∃ t, exec (.arrayRepair d i) s = .next t ∧ SameBytes s t ∧
        (t.core x.core).ras.arrSpares = Tab.set (s.core x.core).ras.arrSpares x.array (used + 1) ∧
        (t.core x.core).ras.repairs = min 0xFF ((s.core x.core).ras.repairs + 1)) ∧
      (2 ≤ used % 256 → ∃ t, exec (.arrayRepair d i) s = .next t ∧ SameBytes s t ∧
        (t.core x.core).ras = { (s.core x.core).ras with degraded := true }))) ∧
  (∀ s (i : Nat) e, s.errs[i]? = some e → (s.stored e.site = false → exec (.scrubRead i) s = .next s) ∧
    (∀ c, e.marked = true → s.stored e.site = true → coreAt e.site = some c → ∃ t, exec (.scrubRead i) s = .next t ∧ SameBytes s t ∧
      t.errs = s.errs ∧ (t.core c).ras = { (s.core c).ras with uncorr := min 0xFF ((s.core c).ras.uncorr + 1) }) ∧
    (∀ c k, e.site = .plane c k → e.marked = false → s.stored e.site = true → ∃ t, exec (.scrubRead i) s = .next t ∧ SameBytes s t ∧
      e.site ∈ (t.die (dieOf c)).rebuilds ∧ e.site ∈ (t.die (dieOf c)).scrubs ∧ t.errs = s.errs ∧ t.cores = s.cores) ∧
    (∀ o, e.site = .parity o → e.marked = false → s.stored e.site = true → (∀ x ∈ s.errs, x.site = e.site → x = e) →
      (∀ x ∈ s.errs, inGroup o x.site = false) → ∃ t, exec (.scrubRead i) s = .next t ∧ SameBytes s t ∧
      t.errs = s.errs.filter (fun x => x.site ≠ e.site) ∧ (∀ c, (t.core c).ras = (s.core c).ras) ∧
      ∃ x ∈ (t.die (dieOf (siteCore o))).classifier, x.want ≠ none)) ∧
  (∀ s c r x, (s.core c).working = some x → (s.core c).slew.slot < 16 → (s.core c).slew.at ≤ (s.core c).clk → (∀ e ∈ s.errs, e.site ≠ .matRow c r) →
    ∃ t, exec (.rotatingRowCheck c r) s = .next t ∧ SameBytes s t ∧ t.errs = s.errs ∧ (t.core c).mq = (s.core c).mq ∧
      (t.core c).slew = { (s.core c).slew with
        slot := (s.core c).slew.slot + 1
        used := if (s.core c).slew.used < (s.core c).slew.require then (s.core c).slew.used + 4 else (s.core c).slew.used }) ∧
  (∀ s c r, (s.core c).working = none → ((∀ e ∈ s.errs, e.site ≠ .matRow c r) → exec (.rotatingRowCheck c r) s = .next s) ∧
    ((∃ e ∈ s.errs, e.site = .matRow c r) → ∃ t, exec (.rotatingRowCheck c r) s = .next t ∧ SameBytes s t ∧ (t.core c).ras.arrayFlt = true ∧
      ((s.core c).ras.matSpares < 2 → t.errs = s.errs.filter (fun e => e.site ≠ .matRow c r) ∧
        (t.core c).ras.repairs = min 0xFF ((s.core c).ras.repairs + 1) ∧ (t.core c).ras.degraded = (s.core c).ras.degraded) ∧
      (2 ≤ (s.core c).ras.matSpares → t.errs = s.errs ∧ (t.core c).ras.degraded = true))) ∧
  (∀ s a, ∃ t, exec (.hbmPatrolScrub a) s = .next t ∧ SameBytes s t ∧ t.errs = s.errs.filter (fun e => e.site ≠ .hbm (a / 32)) ∧ t.poison = s.poison) ∧
  (∀ s (x : CoreStage), x.core < 576 → (s.core x.core).quiet →
    let c := x.core
    let q := (s.core c).ras.replays
    let n := Tab.getD q x.stage 0
    ∃ t, exec (.timingReplay x) s = .next t ∧ SameBytes s t ∧ (t.core c).clk = (s.core c).clk + 1 ∧
    (t.core c).plane = (s.core c).plane ∧ (t.core c).rows = (s.core c).rows ∧
    (n < 3 → (t.core c).ras = { (s.core c).ras with replays := Tab.set q x.stage (n + 1) } ∧ t.clusters = s.clusters) ∧
    (3 ≤ n → (t.core c).ras = { (s.core c).ras with replays := Tab.erase q x.stage, timingFlt := true } ∧
      (t.cluster (c / 6)).mmcCap.toNat = (s.cluster (c / 6)).mmcCap.toNat - 1)) ∧
  (∀ s l, exec (.linkFlitReplay l) s = .next s ∧ exec (.fabricWireRepair l) s = .next s) ∧
  (∀ s d u e, ∃ t, exec (.dieReset d u e) s = .next t ∧ SameBytes s t ∧ t.die d =
    { s.die d with
      reftime := 0
      uncoreReset := if u then e else (s.die d).uncoreReset
      coresReset := if u then (s.die d).coresReset else e })

/-- R262, R421, R424, R427 to R430, R447: the transitions of a port, each reported to the host, beside which every other port stays as it
was; a load that is outstanding when its port enters Down will complete with poison; an inbound request is served only by a port that is Up
and while PEERWIN grants its window, reaches the home where it translates, and is answered, or logged and answered with an error where it
faults; a BAR2 request reaches the heap that BAR2MAP names, and one that may not is an Unsupported Request; the host writes and reads
QTABLE.
Readings and choices of the model that it rests on: log entries 40, 72, 90 and 91. -/
def Obligations.PortResults : Prop :=
  (∀ s p l, ∃ t, exec (.portFailover p l) s = .next t ∧ SameBytes s t ∧ Reported s t p ∧ (∀ q, q ≠ p → t.port q = s.port q) ∧
    ((s.port p).state = .up → (s.port p).spareUsed = false → t.port p = { s.port p with state := .failover, lane := l }) ∧
    ((s.port p).state = .up → (s.port p).spareUsed = true → Retrains (s.port p) (t.port p)) ∧
    ((s.port p).state = .failover → Retrains (s.port p) (t.port p)) ∧
    ((s.port p).state = .retrain ∨ (s.port p).state = .down → t.port p = s.port p)) ∧
  (∀ s p, (s.port p).state = .failover → ∃ t, exec (.portFailoverComplete p) s = .next t ∧ SameBytes s t ∧ Reported s t p ∧ (∀ q, q ≠ p → t.port q = s.port q) ∧
    t.port p = { s.port p with state := .up, spareUsed := true, badLane := (s.port p).lane }) ∧
  (∀ s p, (s.port p).state = .up ∨ (s.port p).state = .failover → ∃ t, exec (.portRetrain p) s = .next t ∧ SameBytes s t ∧ Reported s t p ∧
    (∀ q, q ≠ p → t.port q = s.port q) ∧ Retrains (s.port p) (t.port p)) ∧
  (∀ s p l, (s.port p).state = .retrain → ∃ t u v, exec (.portRetrainEnd p true (some l)) s = .next t ∧ exec (.portRetrainEnd p true none) s = .next u ∧
    exec (.portRetrainEnd p false none) s = .next v ∧ t.port p = { s.port p with state := .up, spareUsed := true, badLane := l } ∧
    u.port p = { s.port p with state := .up, spareUsed := false, badLane := 0 } ∧ v.port p = { s.port p with state := .down } ∧
    Reported s t p ∧ Reported s u p ∧ Reported s v p ∧ ∀ q, q ≠ p → t.port q = s.port q ∧ u.port q = s.port q ∧ v.port q = s.port q) ∧
  (∀ s p, ∃ t, exec (.lossOfSignal p) s = .next t ∧ Reported s t p ∧ (∀ q, q ≠ p → t.port q = s.port q) ∧ t.port p = { s.port p with state := .down } ∧
    ((s.port p).state = .up ∨ (s.port p).state = .down → SameBytes s t)) ∧
  (∀ s p k g (idx i : Nat) a x, (s.port p).state = .up → s.group k = some g → g.accs[idx]? = some a → a.parts[i]? = some x → targetOf x.pa = .peer p →
    a.op = .load → s.inOrder k g idx i a x = true → ∃ t h a', exec (.lossOfSignal p) s = .next t ∧ t.group k = some h ∧ h.accs[idx]? = some a' ∧
      a'.parts[i]? = some { x with poison := some .unreachable }) ∧
  (∀ s p, (s.port p).state = .up → ∃ t, exec (.portFlitReplay p) s = .next t ∧ SameBytes s t ∧ Reported s t p ∧ (∀ q, q ≠ p → t.port q = s.port q) ∧
    (t.port p = { s.port p with replays := 1 } ∨
      ((s.port p).replays < 16 ∧ t.port p = { s.port p with replays := (s.port p).replays + 1 }) ∨
      (16 ≤ (s.port p).replays ∧ Retrains (s.port p) (t.port p)))) ∧
  (∀ s p a r, ((s.port p).state ≠ .up → exec (.inboundPeerAccess p a r) s = .next s) ∧
    (p < 36 → (s.port p).state = .up →
      let n := peerSize r
      let faults := fun (addr : Nat) (c : BitVec 4) => ∃ t, exec (.inboundPeerAccess p a r) s = .next t ∧ SameBytes s t ∧ InboundFault s t p addr c
      let answers := fun (y : PeerReply) (to_ : Nat → Byte) => ∃ t, exec (.inboundPeerAccess p a r) s = .next t ∧ (∀ q, q ≠ p → t.port q = s.port q) ∧
        t.port p = { s.port p with reply := some y } ∧ ∀ b, homeByte t b = to_ b
      (s.sup.peerwin.getLsbD 16 = false → faults a.toNat 1) ∧
      (s.sup.peerwin.getLsbD 16 = true → a.toNat % 65536 + n ≤ 65536 →
        let acc := xlat s noCore (bits s.sup.peerwin 15 0) a.toNat (peerWant r) true
        (∀ c, acc = .error c → faults a.toNat 1) ∧
        (∀ x, acc = .ok x → (∀ h, targetOf x.pa ≠ .heap h) → faults a.toNat 1) ∧
        (∀ x h, acc = .ok x → targetOf x.pa = .heap h → (s.die h).uncoreReset = true → faults x.pa 3) ∧
        (∀ x h, acc = .ok x → targetOf x.pa = .heap h → (s.die h).uncoreReset = false →
          (peerWant r ≠ .write → poisoned s x.pa n = true → faults x.pa 2) ∧
          (∀ m, r = .read m → poisoned s x.pa m = false →
            answers (.data ((List.range m).map (fun i => homeByte s (x.pa + i)))) (homeByte s)) ∧
          (∀ bs, r = .write bs → answers .done (fun b => if x.pa ≤ b ∧ b < x.pa + bs.length then bs.getD (b - x.pa) 0 else homeByte s b)) ∧
          (∀ f m u v, r = .atomic f m u v → poisoned s x.pa m = false → a.toNat % m = 0 →
            let old := readLe (homeByte s) x.pa m
            answers (.data (leBytes m old)) (fun b => if x.pa ≤ b ∧ b < x.pa + m then
              byteOf x.pa (atomNew f (8 * m) old (u.toNat % 2 ^ (8 * m)) (v.toNat % 2 ^ (8 * m))).1 b else homeByte s b)))))) ∧
  (∀ s (o : BitVec 36) r,
    let a := bits s.sup.bar2map 4 0 * 2 ^ 36 + o.toNat
    let answers := fun (y : HostReply) => exec (.bar2HostAccess (.bar2 o) r) s = .next { s with front := { s.front with reply := some y } }
    (s.sup.bar2map.getLsbD 8 = false ∨ s.front.locked = true ∨ r = .other → answers .unsupported) ∧
    (s.sup.bar2map.getLsbD 8 = true → s.front.locked = false →
      (∀ n, r = .read n → (inHeap a n = false → answers .unsupported) ∧
        (inHeap a n = true → (poisonAt s a n ≠ none → answers .poisoned) ∧
          (poisonAt s a n = none → answers (.data ((List.range n).map (fun i => homeByte s (a + i))))))) ∧
      (∀ bs, r = .write bs → (inHeap a bs.length = false → answers .unsupported) ∧
        (inHeap a bs.length = true → storePoison s a bs.length = none → ∃ t, exec (.bar2HostAccess (.bar2 o) r) s = .next t ∧ t.front = s.front ∧
          ∀ b, homeByte t b = if a ≤ b ∧ b < a + bs.length then bs.getD (b - a) 0 else homeByte s b)))) ∧
  (∀ s (v : Word), s.front.locked = false →
    exec (.bar2HostAccess (.bar0 0x08000) (.write (leBytes 8 v.toNat))) s =
      .next { s with front := { s.front with qtable := v &&& 0x000FFFFFFFFF0000 } } ∧
    exec (.bar2HostAccess (.bar0 0x08000) (.read 8)) s =
      .next { s with front := { s.front with reply := some (.data (leBytes 8 s.front.qtable.toNat)) } }) ∧
  (∀ s r, exec (.bar2HostAccess .elsewhere r) s = .next { s with front := { s.front with reply := some .unsupported } })

/-- R413, R421, R423, R431, R432: an attestation request and its report, whose fields lie where the table puts them; firmware that is signed and
not below the rollback counter runs, other firmware does not, and at power-up it leaves every port Down; power states; a function-level reset ends the grids, clears QERR and every
ENABLE and keeps the supervisor registers; a module reset keeps device memory and repairs.  That a report which was not requested leaves the
state as it is, and that a grid lost to a reset posts no event, are the model's own.
Readings and choices of the model that it rests on: log entries 8, 42, 44, 45 and 46. -/
def Obligations.ResetAndTrustResults : Prop :=
  (∀ s n, (s.front.mailbox = 1 → exec (.attestationRequest n) s = .next s) ∧
    (s.front.mailbox ≠ 1 → exec (.attestationRequest n) s = .next { s with front := { s.front with nonce := n, mailbox := 1 } })) ∧
  (∀ (s : State), (s.front.mailbox ≠ 1 → exec .attestationReport s = .next s) ∧
    (s.front.mailbox = 1 → ∃ t, exec .attestationReport s = .next t ∧ t = { s with front := { s.front with mailbox := 2, report := t.front.report } } ∧
      let field := fun (off n : Nat) => t.front.report.extractLsb' (8 * off) (8 * n)
      field 0x000 64 = s.front.nonce ∧
      field 0x040 64 = s.front.stages.foldl (fun c d => sha512 (leBytes 64 c.toNat ++ leBytes 64 d.toNat)) Config.bootChain ∧
      field 0x080 4 = s.front.version.getD Config.bootVersion ∧
      field 0x084 4 = Config.rollback ∧
      field 0x088 16 = Config.serial ∧
      field 0x098 133 = Config.identityKey ∧
      field 0x11D 132 = Config.signature (field 0x000 0x11D))) ∧
  (∀ s d v i, (i.signed = true → Config.rollback.toNat ≤ v.toNat → sha512 i.contents = d → exec (.firmwareImageLoad d v i) s =
      .next { s with front := { s.front with
        stages := s.front.stages ++ [d], version := some v, locked := s.front.locked && !i.powerUp } }) ∧
    (i.signed = false ∨ v.toNat < Config.rollback.toNat ∨ sha512 i.contents ≠ d → exec (.firmwareImageLoad d v i) s =
      .next (if i.powerUp then { s with ports := [], front := { s.front with locked := true } } else s))) ∧
  (∀ s b, exec (.powerStateChange b) s = .next { s with front := { s.front with d3 := b } }) ∧
  (∀ s, s.grids = [] → ∃ t, exec .functionLevelReset s = .next t ∧ t.sup = s.sup ∧ t.front.qerr = 0 ∧ t.front.admitted = [] ∧
    t.front.qtable = s.front.qtable ∧ t.poison = s.poison ∧
    ∀ b, homeByte t b = if inHeap (descAddr s 0) 262144 = true ∧ descAddr s 0 ≤ b ∧ b < descAddr s 0 + 262144 ∧ (b - descAddr s 0) % 64 = 0x0A
      then homeByte s b &&& 0xFE else homeByte s b) ∧
  (∀ s id g, s.grids = [(id, g)] → g.ended = none → (∀ e ∈ s.cores, e.2.acqWaits = []) →
    (∀ x, (endGrid s id 18 0).grid id = some x → (endGrid s id 18 0).flushStalled x = false) →
    ∃ t, exec .functionLevelReset s = .next t ∧ t.grids = [] ∧ t.sup = s.sup ∧ t.front.qerr = 0 ∧
    t.sysev = s.sysev) ∧
  (∀ s, s.grids = [] → ∃ t, exec .moduleReset s = .next t ∧ (∀ b, homeByte t b = homeByte s b) ∧ t.poison = s.poison ∧ t.sup = State.reset.sup ∧
    t.gens = [] ∧ t.groups = [] ∧ t.teams = [] ∧ t.grids = [] ∧ t.ports = [] ∧ t.clusters = [] ∧ t.dies = [] ∧ t.front.qtable = 0 ∧ t.front.qerr = 0 ∧
    t.front.stages = s.front.stages ∧ ∀ c, (t.core c).mapCol = (s.core c).mapCol ∧ (t.core c).mapRow = (s.core c).mapRow ∧ (t.core c).plane = [] ∧
      (t.core c).ras.colSpare = (s.core c).ras.colSpare ∧ (t.core c).ras.rowSpare = (s.core c).ras.rowSpare ∧
      (t.core c).ras.corr = 0 ∧ (t.core c).clk = 0)

/-- Of the model's step: where a turn is group `k`'s, no trap is due, and the word fetched for it, stepped as its repeat says, decodes to `i`, a
step is `exec i` there, and what every step ends with: where no clock has passed and nothing falls due, the moves and the slack of clusters,
the groups that enter free positions of active sets, and the issuing group's name taken away. The word fetched is the four bytes at the translated pc (R66, R81, R83).
Readings and choices of the model that it rests on: log entries 5, 6, 9, 14, 15, 66 and 76. -/
def Obligations.StepRunsDecoded : Prop :=
  (∀ s s1 s2 k g w w' i, s.turn = (some (.issue k), s1) → s1.group k = some g → s1.canIssue g = true →
    (g.dueTrap = none ∨ s1.atBoundary k g = false) → (g.barks = false ∨ s1.atBoundary k g = false) →
    fetch s1 k g = .word w s2 → g.rptOver w = false → g.wordDue w = some w' → decode w' = .ok i → i.wf →
    step s = closeStep s (exec i { s2 with cur := some k })) ∧
  (∀ (s : State) k rest, s.agenda = .issue k :: rest → (s.elder k = none → s.turn = (some (.issue k), { s with agenda := rest })) ∧
    ∀ x, s.elder k = some x → s.turn = (some (.issue x), s)) ∧
  (∀ s k g gr p, s.group k = some g → g.fetchWait = none → s.errs = [] → s.grid g.id.grid = some gr → g.pc.toNat % 4 = 0 →
    gr.launch.imgbase + 256 ≤ g.pc.toNat → g.pc.toNat < gr.launch.imgbase + 4 * gr.launch.imgwords →
    xlat s g.id.core g.id.asid g.pc.toNat .fetch (!g.id.supv) = .ok p → poisonAt s p.pa 4 = none →
    ∃ s2, fetch s k g = .word (BitVec.ofNat 32 (readLe (coreByte s g.id.core) p.pa 4)) s2 ∧ SameBytes s s2 ∧ s2.still = s.still ∧
      (∀ j, s2.group j = s.group j) ∧ (∀ j, s2.team j = s.team j) ∧ (∀ d, s2.die d = s.die d) ∧ s2.errs = s.errs ∧ s2.fresh = s.fresh ∧
      ∀ c, { s2.core c with tlb := (s.core c).tlb } = s.core c) ∧
  (∀ (g : Group) w, (isHint w = true ∨ g.bundle = none ∨ ∃ b, g.bundle = some b ∧ b.rpt = none) → g.wordDue w = some w ∧ g.rptOver w = false) ∧
  (∀ old s, ∃ t, closeStep old (.next s) = .next t ∧ t.cur = none ∧ ((∀ e ∈ s.groups, e.2.inMem = false) →
    (∀ e ∈ s.groups, e.2.gstate = .ctxFault → e.2.bundle = none) → (∀ e ∈ s.cores, e.2.rels = []) →
    (∀ c, (old.core c).clk = (s.core c).clk) →
    SameBytes s t ∧ { t.still with cur := s.cur, clusters := s.clusters } = s.still ∧ t.dies = s.dies ∧ t.teams = s.teams ∧ t.errs = s.errs ∧
    (∀ c, { t.core c with active := (s.core c).active } = s.core c) ∧
    ∀ j, (t.group j).map (fun g => { g with gstate := .dormant, sched := {} }) =
      (s.group j).map (fun g => { g with gstate := .dormant, sched := {} }))) ∧
  (∀ old f, closeStep old (.fault f) = .fault f) ∧ (∀ old r, closeStep old (.refused r) = .refused r)

/-- Of a few words, each field written out from its format (R67, R68, R76 to R79): what each decodes to, and words that are none. -/
def Obligations.DecodeWords : Prop :=
  decode 0b000001_0000_00111_00101_00110_000_0_0_0_0 = .ok (.add 7 5 6 false false false false) ∧
  decode 0b000100_0000_00111_00101_11111111111_1 = .ok (.addi 7 5 true 0x7FF) ∧
  decode 0b001000_0010_01001_11111111111111110 = .ok (.bnz 9 0x1FFFE) ∧
  decode 0b010010_0000_00001_00010_00011_101_0_0_0_1 = .ok (.vadd .w32 1 2 3 5 false false false true) ∧
  decode 0b011000_0001_00001_00010_00011_000_0_0_0_0 = .ok (.vaddF32 .rn 1 2 3 0 false false false) ∧
  (∀ n, decode (BitVec.ofNat 32 (n % 2 ^ 26)) = .error .reservedMajor) ∧
  decode 0b000001_0000_00111_00101_00110_001_0_0_0_0 = .error .reservedField ∧
  decode 0b000100_1100_00111_00101_00000000001_0 = .error .unassigned ∧
  decode 0b000100_0100_00111_00101_00001000000_0 = .error .refusedOperand

/-- R65, R107, R214, R339, R360 to R367, R414, R429, R430: what reset leaves: no work, memory with nothing listed, every register of the module at the
value that the tables give, every cluster at code 0 under caps of 11, every bank off, every port Down.
Readings and choices of the model that it rests on: log entries 2 and 3. -/
def Obligations.ResetState : Prop :=
  let s := State.reset
  Safe s ∧ (∀ a, homeByte s a = 0) ∧ s.grids = [] ∧ s.teams = [] ∧ s.groups = [] ∧ s.barriers = [] ∧ s.signals = [] ∧ s.errs = [] ∧
  s.front.qtable = 0 ∧ s.front.qerr = 0 ∧ s.sup.astable = 0 ∧ s.sup.barstag = 128 ∧ s.sup.slewctl = 16 ∧ s.sup.sysevq = 0 ∧
  s.sup.bar2map = 0 ∧ s.sup.peerwin = 0 ∧ s.readPortstat = 3 ∧ s.readPortflt = 0 ∧
  (∀ c, (s.cluster c).supCap = 11 ∧ (s.cluster c).mmcCap = 11 ∧ (s.cluster c).ceil = 11 ∧ (s.cluster c).code = 0 ∧
    (s.cluster c).goal = 0 ∧ (s.cluster c).ratio = 0 ∧ (s.cluster c).moving = none) ∧
  (∀ c b, (s.core c).pstate b = .off ∧ (s.core c).lstate b = .off) ∧ (∀ c, (s.core c).ras.read = 0 ∧ (s.core c).mapCol = none ∧ (s.core c).mapRow = none) ∧
  (∀ p, (s.port p).state = .down ∧ (s.port p).enable = false)

/-- Decoding and encoding agree on every word that the table gives an encoding: a well-formed instruction's word, for every value of every
operand, decodes to it (R66 to R88). -/
def Obligations.RoundTrip : Prop :=
  ∀ i w, encode i = some w → i.wf = true → decode w = .ok i

/-- Memory keeps its canonical form, with rising addresses and no entry that reads as an unlisted address reads, in every step from every
state in which it has it (the form is the model's own: log entry 2). -/
def Obligations.MemoryForm : Prop :=
  ∀ s t, Safe s → step s = .next t → Safe t
end

