-- ==== Sys2Proof/Laws/Decode.lean ====
section
/-!
SUPPORT. Laws of the encoding: each format's fields come back out of the word they are packed into, and each enumerated field
out of its bits.
-/

namespace Sys2Proof

theorem flag_eq {m : Nat} {w : BitVec m} {n : Nat} {b : Bool} (h : w.toNat / 2 ^ n % 2 = b.toNat) : flag w n = b := by
  unfold flag
  rw [h]
  cases b <;> rfl

@[simp] theorem Rm.ofBits_toBits (x : Rm) : Rm.ofBits x.toBits = some x := by
  cases x <;> rfl

@[simp] theorem Wid3.ofBits_toBits (x : Wid3) : Wid3.ofBits x.toBits = some x := by
  cases x <;> rfl

@[simp] theorem Wid4.ofBits_toBits (x : Wid4) : Wid4.ofBits x.toBits = some x := by
  cases x <;> rfl

@[simp] theorem Half.ofBits_toBits (x : Half) : Half.ofBits x.toBits = some x := by
  cases x <;> rfl

@[simp] theorem Dir.ofBits_toBits (x : Dir) : Dir.ofBits x.toBits = some x := by
  cases x <;> rfl

@[simp] theorem Edge.ofBits_toBits (x : Edge) : Edge.ofBits x.toBits = some x := by
  cases x <;> rfl

@[simp] theorem Sc.ofBits_toBits (x : Sc) : Sc.ofBits x.toBits = some x := by
  cases x <;> rfl

@[simp] theorem AcqKind.ofBits_toBits (x : AcqKind) : AcqKind.ofBits x.toBits = some x := by
  cases x <;> rfl

@[simp] theorem MSel.ofBits_toBits (x : MSel) : MSel.ofBits x.toBits = some x := by
  cases x <;> rfl

@[simp] theorem PackForm.ofBits_toBits (x : PackForm) : PackForm.ofBits x.toBits = some x := by
  cases x <;> rfl

@[simp] theorem NumTy.ofBits_toBits (x : NumTy) : NumTy.ofBits x.toBits = some x := by
  cases x <;> rfl

@[simp] theorem KeyTy.ofBits_toBits (x : KeyTy) : KeyTy.ofBits x.toBits = some x := by
  cases x <;> rfl

@[simp] theorem Scope.ofBits_toBits (x : Scope) : Scope.ofBits x.toBits = some x := by
  cases x <;> rfl

@[simp] theorem FenceKind.ofBits_toBits (x : FenceKind) : FenceKind.ofBits x.toBits = some x := by
  cases x <;> rfl

@[simp] theorem ModScope.ofBits_toBits (x : ModScope) : ModScope.ofBits x.toBits = some x := by
  obtain _ | s := x
  · rfl
  · cases s <;> rfl

@[simp] theorem ModOrder.ofBits_toBits (x : ModOrder) : ModOrder.ofBits x.toBits = some x := by
  cases x <;> rfl

@[simp] theorem ModCache.ofBits_toBits (x : ModCache) : ModCache.ofBits x.toBits = some x := by
  cases x <;> rfl

@[simp] theorem FmtA.op_pack (op : BitVec 6) (f : FmtA) : field (FmtA.pack op f) 26 6 = op := by
  obtain ⟨fn, d, a, b, q, la, lb, e, x⟩ := f
  apply BitVec.eq_of_toNat_eq
  have := op.isLt; have := fn.isLt; have := d.isLt; have := a.isLt; have := b.isLt; have := q.isLt; have := la.toNat_lt; have := lb.toNat_lt; have := e.toNat_lt; have := x.toNat_lt
  simp only [field, FmtA.pack, word, BitVec.toNat_ofNat]
  omega

@[simp] theorem FmtA.unpack_pack (op : BitVec 6) (f : FmtA) : FmtA.unpack (FmtA.pack op f) = f := by
  obtain ⟨fn, d, a, b, q, la, lb, e, x⟩ := f
  have := op.isLt; have := fn.isLt; have := d.isLt; have := a.isLt; have := b.isLt; have := q.isLt; have := la.toNat_lt; have := lb.toNat_lt; have := e.toNat_lt; have := x.toNat_lt
  simp only [field, FmtA.unpack, FmtA.pack, word, FmtA.mk.injEq]
  refine ⟨?_, ?_, ?_, ?_, ?_, ?_, ?_, ?_, ?_⟩
  · apply BitVec.eq_of_toNat_eq; simp only [BitVec.toNat_ofNat]; omega
  · apply BitVec.eq_of_toNat_eq; simp only [BitVec.toNat_ofNat]; omega
  · apply BitVec.eq_of_toNat_eq; simp only [BitVec.toNat_ofNat]; omega
  · apply BitVec.eq_of_toNat_eq; simp only [BitVec.toNat_ofNat]; omega
  · apply BitVec.eq_of_toNat_eq; simp only [BitVec.toNat_ofNat]; omega
  · apply flag_eq; simp only [BitVec.toNat_ofNat]; omega
  · apply flag_eq; simp only [BitVec.toNat_ofNat]; omega
  · apply flag_eq; simp only [BitVec.toNat_ofNat]; omega
  · apply flag_eq; simp only [BitVec.toNat_ofNat]; omega

@[simp] theorem FmtA.fn_pack (op : BitVec 6) (f : FmtA) : field (FmtA.pack op f) 22 4 = f.fn :=
  congrArg FmtA.fn (FmtA.unpack_pack op f)

@[simp] theorem FmtIS.op_pack (op : BitVec 6) (f : FmtIS) : field (FmtIS.pack op f) 26 6 = op := by
  obtain ⟨fn, d, a, la, imm⟩ := f
  apply BitVec.eq_of_toNat_eq
  have := op.isLt; have := fn.isLt; have := d.isLt; have := a.isLt; have := la.toNat_lt; have := imm.isLt
  simp only [field, FmtIS.pack, word, BitVec.toNat_ofNat]
  omega

@[simp] theorem FmtIS.unpack_pack (op : BitVec 6) (f : FmtIS) : FmtIS.unpack (FmtIS.pack op f) = f := by
  obtain ⟨fn, d, a, la, imm⟩ := f
  have := op.isLt; have := fn.isLt; have := d.isLt; have := a.isLt; have := la.toNat_lt; have := imm.isLt
  simp only [field, FmtIS.unpack, FmtIS.pack, word, FmtIS.mk.injEq]
  refine ⟨?_, ?_, ?_, ?_, ?_⟩
  · apply BitVec.eq_of_toNat_eq; simp only [BitVec.toNat_ofNat]; omega
  · apply BitVec.eq_of_toNat_eq; simp only [BitVec.toNat_ofNat]; omega
  · apply BitVec.eq_of_toNat_eq; simp only [BitVec.toNat_ofNat]; omega
  · apply flag_eq; simp only [BitVec.toNat_ofNat]; omega
  · apply BitVec.eq_of_toNat_eq; simp only [BitVec.toNat_ofNat]; omega

@[simp] theorem FmtIS.fn_pack (op : BitVec 6) (f : FmtIS) : field (FmtIS.pack op f) 22 4 = f.fn :=
  congrArg FmtIS.fn (FmtIS.unpack_pack op f)

@[simp] theorem FmtIV.op_pack (op : BitVec 6) (f : FmtIV) : field (FmtIV.pack op f) 26 6 = op := by
  obtain ⟨fn, d, a, q, la, imm⟩ := f
  apply BitVec.eq_of_toNat_eq
  have := op.isLt; have := fn.isLt; have := d.isLt; have := a.isLt; have := q.isLt; have := la.toNat_lt; have := imm.isLt
  simp only [field, FmtIV.pack, word, BitVec.toNat_ofNat]
  omega

@[simp] theorem FmtIV.unpack_pack (op : BitVec 6) (f : FmtIV) : FmtIV.unpack (FmtIV.pack op f) = f := by
  obtain ⟨fn, d, a, q, la, imm⟩ := f
  have := op.isLt; have := fn.isLt; have := d.isLt; have := a.isLt; have := q.isLt; have := la.toNat_lt; have := imm.isLt
  simp only [field, FmtIV.unpack, FmtIV.pack, word, FmtIV.mk.injEq]
  refine ⟨?_, ?_, ?_, ?_, ?_, ?_⟩
  · apply BitVec.eq_of_toNat_eq; simp only [BitVec.toNat_ofNat]; omega
  · apply BitVec.eq_of_toNat_eq; simp only [BitVec.toNat_ofNat]; omega
  · apply BitVec.eq_of_toNat_eq; simp only [BitVec.toNat_ofNat]; omega
  · apply BitVec.eq_of_toNat_eq; simp only [BitVec.toNat_ofNat]; omega
  · apply flag_eq; simp only [BitVec.toNat_ofNat]; omega
  · apply BitVec.eq_of_toNat_eq; simp only [BitVec.toNat_ofNat]; omega

@[simp] theorem FmtIV.fn_pack (op : BitVec 6) (f : FmtIV) : field (FmtIV.pack op f) 22 4 = f.fn :=
  congrArg FmtIV.fn (FmtIV.unpack_pack op f)

@[simp] theorem FmtC.op_pack (op : BitVec 6) (f : FmtC) : field (FmtC.pack op f) 26 6 = op := by
  obtain ⟨fn, d, a, src, z, q, la, rm, x⟩ := f
  apply BitVec.eq_of_toNat_eq
  have := op.isLt; have := fn.isLt; have := d.isLt; have := a.isLt; have := src.isLt; have := z.toNat_lt; have := q.isLt; have := la.toNat_lt; have := rm.isLt; have := x.toNat_lt
  simp only [field, FmtC.pack, word, BitVec.toNat_ofNat]
  omega

@[simp] theorem FmtC.unpack_pack (op : BitVec 6) (f : FmtC) : FmtC.unpack (FmtC.pack op f) = f := by
  obtain ⟨fn, d, a, src, z, q, la, rm, x⟩ := f
  have := op.isLt; have := fn.isLt; have := d.isLt; have := a.isLt; have := src.isLt; have := z.toNat_lt; have := q.isLt; have := la.toNat_lt; have := rm.isLt; have := x.toNat_lt
  simp only [field, FmtC.unpack, FmtC.pack, word, FmtC.mk.injEq]
  refine ⟨?_, ?_, ?_, ?_, ?_, ?_, ?_, ?_, ?_⟩
  · apply BitVec.eq_of_toNat_eq; simp only [BitVec.toNat_ofNat]; omega
  · apply BitVec.eq_of_toNat_eq; simp only [BitVec.toNat_ofNat]; omega
  · apply BitVec.eq_of_toNat_eq; simp only [BitVec.toNat_ofNat]; omega
  · apply BitVec.eq_of_toNat_eq; simp only [BitVec.toNat_ofNat]; omega
  · apply flag_eq; simp only [BitVec.toNat_ofNat]; omega
  · apply BitVec.eq_of_toNat_eq; simp only [BitVec.toNat_ofNat]; omega
  · apply flag_eq; simp only [BitVec.toNat_ofNat]; omega
  · apply BitVec.eq_of_toNat_eq; simp only [BitVec.toNat_ofNat]; omega
  · apply flag_eq; simp only [BitVec.toNat_ofNat]; omega

@[simp] theorem FmtC.fn_pack (op : BitVec 6) (f : FmtC) : field (FmtC.pack op f) 22 4 = f.fn :=
  congrArg FmtC.fn (FmtC.unpack_pack op f)

@[simp] theorem FmtM.op_pack (op : BitVec 6) (f : FmtM) : field (FmtM.pack op f) 26 6 = op := by
  obtain ⟨fn, d, b, i, q, ld, vol, sc⟩ := f
  apply BitVec.eq_of_toNat_eq
  have := op.isLt; have := fn.isLt; have := d.isLt; have := b.isLt; have := i.isLt; have := q.isLt; have := ld.toNat_lt; have := vol.toNat_lt; have := sc.isLt
  simp only [field, FmtM.pack, word, BitVec.toNat_ofNat]
  omega

@[simp] theorem FmtM.unpack_pack (op : BitVec 6) (f : FmtM) : FmtM.unpack (FmtM.pack op f) = f := by
  obtain ⟨fn, d, b, i, q, ld, vol, sc⟩ := f
  have := op.isLt; have := fn.isLt; have := d.isLt; have := b.isLt; have := i.isLt; have := q.isLt; have := ld.toNat_lt; have := vol.toNat_lt; have := sc.isLt
  simp only [field, FmtM.unpack, FmtM.pack, word, FmtM.mk.injEq]
  refine ⟨?_, ?_, ?_, ?_, ?_, ?_, ?_, ?_⟩
  · apply BitVec.eq_of_toNat_eq; simp only [BitVec.toNat_ofNat]; omega
  · apply BitVec.eq_of_toNat_eq; simp only [BitVec.toNat_ofNat]; omega
  · apply BitVec.eq_of_toNat_eq; simp only [BitVec.toNat_ofNat]; omega
  · apply BitVec.eq_of_toNat_eq; simp only [BitVec.toNat_ofNat]; omega
  · apply BitVec.eq_of_toNat_eq; simp only [BitVec.toNat_ofNat]; omega
  · apply flag_eq; simp only [BitVec.toNat_ofNat]; omega
  · apply flag_eq; simp only [BitVec.toNat_ofNat]; omega
  · apply BitVec.eq_of_toNat_eq; simp only [BitVec.toNat_ofNat]; omega

@[simp] theorem FmtM.fn_pack (op : BitVec 6) (f : FmtM) : field (FmtM.pack op f) 22 4 = f.fn :=
  congrArg FmtM.fn (FmtM.unpack_pack op f)

@[simp] theorem FmtB.op_pack (op : BitVec 6) (f : FmtB) : field (FmtB.pack op f) 26 6 = op := by
  obtain ⟨fn, r, off⟩ := f
  apply BitVec.eq_of_toNat_eq
  have := op.isLt; have := fn.isLt; have := r.isLt; have := off.isLt
  simp only [field, FmtB.pack, word, BitVec.toNat_ofNat]
  omega

@[simp] theorem FmtB.unpack_pack (op : BitVec 6) (f : FmtB) : FmtB.unpack (FmtB.pack op f) = f := by
  obtain ⟨fn, r, off⟩ := f
  have := op.isLt; have := fn.isLt; have := r.isLt; have := off.isLt
  simp only [field, FmtB.unpack, FmtB.pack, word, FmtB.mk.injEq]
  refine ⟨?_, ?_, ?_⟩
  · apply BitVec.eq_of_toNat_eq; simp only [BitVec.toNat_ofNat]; omega
  · apply BitVec.eq_of_toNat_eq; simp only [BitVec.toNat_ofNat]; omega
  · apply BitVec.eq_of_toNat_eq; simp only [BitVec.toNat_ofNat]; omega

@[simp] theorem FmtB.fn_pack (op : BitVec 6) (f : FmtB) : field (FmtB.pack op f) 22 4 = f.fn :=
  congrArg FmtB.fn (FmtB.unpack_pack op f)

@[simp] theorem FmtWin.op_pack (op : BitVec 6) (f : FmtWin) : field (FmtWin.pack op f) 26 6 = op := by
  obtain ⟨fn, d, dx, dy, z, q, l⟩ := f
  apply BitVec.eq_of_toNat_eq
  have := op.isLt; have := fn.isLt; have := d.isLt; have := dx.isLt; have := dy.isLt; have := z.isLt; have := q.isLt; have := l.toNat_lt
  simp only [field, FmtWin.pack, word, BitVec.toNat_ofNat]
  omega

@[simp] theorem FmtWin.unpack_pack (op : BitVec 6) (f : FmtWin) : FmtWin.unpack (FmtWin.pack op f) = f := by
  obtain ⟨fn, d, dx, dy, z, q, l⟩ := f
  have := op.isLt; have := fn.isLt; have := d.isLt; have := dx.isLt; have := dy.isLt; have := z.isLt; have := q.isLt; have := l.toNat_lt
  simp only [field, FmtWin.unpack, FmtWin.pack, word, FmtWin.mk.injEq]
  refine ⟨?_, ?_, ?_, ?_, ?_, ?_, ?_⟩
  · apply BitVec.eq_of_toNat_eq; simp only [BitVec.toNat_ofNat]; omega
  · apply BitVec.eq_of_toNat_eq; simp only [BitVec.toNat_ofNat]; omega
  · apply BitVec.eq_of_toNat_eq; simp only [BitVec.toNat_ofNat]; omega
  · apply BitVec.eq_of_toNat_eq; simp only [BitVec.toNat_ofNat]; omega
  · apply BitVec.eq_of_toNat_eq; simp only [BitVec.toNat_ofNat]; omega
  · apply BitVec.eq_of_toNat_eq; simp only [BitVec.toNat_ofNat]; omega
  · apply flag_eq; simp only [BitVec.toNat_ofNat]; omega

@[simp] theorem FmtWin.fn_pack (op : BitVec 6) (f : FmtWin) : field (FmtWin.pack op f) 22 4 = f.fn :=
  congrArg FmtWin.fn (FmtWin.unpack_pack op f)

@[simp] theorem FmtScr.op_pack (op : BitVec 6) (f : FmtScr) : field (FmtScr.pack op f) 26 6 = op := by
  obtain ⟨fn, h, dist, dir, edge, fs, z⟩ := f
  apply BitVec.eq_of_toNat_eq
  have := op.isLt; have := fn.isLt; have := h.isLt; have := dist.isLt; have := dir.isLt; have := edge.isLt; have := fs.isLt; have := z.isLt
  simp only [field, FmtScr.pack, word, BitVec.toNat_ofNat]
  omega

@[simp] theorem FmtScr.unpack_pack (op : BitVec 6) (f : FmtScr) : FmtScr.unpack (FmtScr.pack op f) = f := by
  obtain ⟨fn, h, dist, dir, edge, fs, z⟩ := f
  have := op.isLt; have := fn.isLt; have := h.isLt; have := dist.isLt; have := dir.isLt; have := edge.isLt; have := fs.isLt; have := z.isLt
  simp only [field, FmtScr.unpack, FmtScr.pack, word, FmtScr.mk.injEq]
  refine ⟨?_, ?_, ?_, ?_, ?_, ?_, ?_⟩
  · apply BitVec.eq_of_toNat_eq; simp only [BitVec.toNat_ofNat]; omega
  · apply BitVec.eq_of_toNat_eq; simp only [BitVec.toNat_ofNat]; omega
  · apply BitVec.eq_of_toNat_eq; simp only [BitVec.toNat_ofNat]; omega
  · apply BitVec.eq_of_toNat_eq; simp only [BitVec.toNat_ofNat]; omega
  · apply BitVec.eq_of_toNat_eq; simp only [BitVec.toNat_ofNat]; omega
  · apply BitVec.eq_of_toNat_eq; simp only [BitVec.toNat_ofNat]; omega
  · apply BitVec.eq_of_toNat_eq; simp only [BitVec.toNat_ofNat]; omega

@[simp] theorem FmtScr.fn_pack (op : BitVec 6) (f : FmtScr) : field (FmtScr.pack op f) 22 4 = f.fn :=
  congrArg FmtScr.fn (FmtScr.unpack_pack op f)

@[simp] theorem FmtCmd.op_pack (op : BitVec 6) (f : FmtCmd) : field (FmtCmd.pack op f) 26 6 = op := by
  obtain ⟨fn, a, tag, cw, z⟩ := f
  apply BitVec.eq_of_toNat_eq
  have := op.isLt; have := fn.isLt; have := a.isLt; have := tag.isLt; have := cw.isLt; have := z.isLt
  simp only [field, FmtCmd.pack, word, BitVec.toNat_ofNat]
  omega

@[simp] theorem FmtCmd.unpack_pack (op : BitVec 6) (f : FmtCmd) : FmtCmd.unpack (FmtCmd.pack op f) = f := by
  obtain ⟨fn, a, tag, cw, z⟩ := f
  have := op.isLt; have := fn.isLt; have := a.isLt; have := tag.isLt; have := cw.isLt; have := z.isLt
  simp only [field, FmtCmd.unpack, FmtCmd.pack, word, FmtCmd.mk.injEq]
  refine ⟨?_, ?_, ?_, ?_, ?_⟩
  · apply BitVec.eq_of_toNat_eq; simp only [BitVec.toNat_ofNat]; omega
  · apply BitVec.eq_of_toNat_eq; simp only [BitVec.toNat_ofNat]; omega
  · apply BitVec.eq_of_toNat_eq; simp only [BitVec.toNat_ofNat]; omega
  · apply BitVec.eq_of_toNat_eq; simp only [BitVec.toNat_ofNat]; omega
  · apply BitVec.eq_of_toNat_eq; simp only [BitVec.toNat_ofNat]; omega

@[simp] theorem FmtCmd.fn_pack (op : BitVec 6) (f : FmtCmd) : field (FmtCmd.pack op f) 22 4 = f.fn :=
  congrArg FmtCmd.fn (FmtCmd.unpack_pack op f)

@[simp] theorem FmtTag.op_pack (op : BitVec 6) (f : FmtTag) : field (FmtTag.pack op f) 26 6 = op := by
  obtain ⟨fn, d, a, z⟩ := f
  apply BitVec.eq_of_toNat_eq
  have := op.isLt; have := fn.isLt; have := d.isLt; have := a.isLt; have := z.isLt
  simp only [field, FmtTag.pack, word, BitVec.toNat_ofNat]
  omega

@[simp] theorem FmtTag.unpack_pack (op : BitVec 6) (f : FmtTag) : FmtTag.unpack (FmtTag.pack op f) = f := by
  obtain ⟨fn, d, a, z⟩ := f
  have := op.isLt; have := fn.isLt; have := d.isLt; have := a.isLt; have := z.isLt
  simp only [field, FmtTag.unpack, FmtTag.pack, word, FmtTag.mk.injEq]
  refine ⟨?_, ?_, ?_, ?_⟩
  · apply BitVec.eq_of_toNat_eq; simp only [BitVec.toNat_ofNat]; omega
  · apply BitVec.eq_of_toNat_eq; simp only [BitVec.toNat_ofNat]; omega
  · apply BitVec.eq_of_toNat_eq; simp only [BitVec.toNat_ofNat]; omega
  · apply BitVec.eq_of_toNat_eq; simp only [BitVec.toNat_ofNat]; omega

@[simp] theorem FmtTag.fn_pack (op : BitVec 6) (f : FmtTag) : field (FmtTag.pack op f) 22 4 = f.fn :=
  congrArg FmtTag.fn (FmtTag.unpack_pack op f)

@[simp] theorem FmtMma.op_pack (op : BitVec 6) (f : FmtMma) : field (FmtMma.pack op f) 26 6 = op := by
  obtain ⟨fn, a, s, m, n, q, r, c⟩ := f
  apply BitVec.eq_of_toNat_eq
  have := op.isLt; have := fn.isLt; have := a.isLt; have := s.isLt; have := m.isLt; have := n.isLt; have := q.isLt; have := r.toNat_lt; have := c.toNat_lt
  simp only [field, FmtMma.pack, word, BitVec.toNat_ofNat]
  omega

@[simp] theorem FmtMma.unpack_pack (op : BitVec 6) (f : FmtMma) : FmtMma.unpack (FmtMma.pack op f) = f := by
  obtain ⟨fn, a, s, m, n, q, r, c⟩ := f
  have := op.isLt; have := fn.isLt; have := a.isLt; have := s.isLt; have := m.isLt; have := n.isLt; have := q.isLt; have := r.toNat_lt; have := c.toNat_lt
  simp only [field, FmtMma.unpack, FmtMma.pack, word, FmtMma.mk.injEq]
  refine ⟨?_, ?_, ?_, ?_, ?_, ?_, ?_, ?_⟩
  · apply BitVec.eq_of_toNat_eq; simp only [BitVec.toNat_ofNat]; omega
  · apply BitVec.eq_of_toNat_eq; simp only [BitVec.toNat_ofNat]; omega
  · apply BitVec.eq_of_toNat_eq; simp only [BitVec.toNat_ofNat]; omega
  · apply BitVec.eq_of_toNat_eq; simp only [BitVec.toNat_ofNat]; omega
  · apply BitVec.eq_of_toNat_eq; simp only [BitVec.toNat_ofNat]; omega
  · apply BitVec.eq_of_toNat_eq; simp only [BitVec.toNat_ofNat]; omega
  · apply flag_eq; simp only [BitVec.toNat_ofNat]; omega
  · apply flag_eq; simp only [BitVec.toNat_ofNat]; omega

@[simp] theorem FmtMma.fn_pack (op : BitVec 6) (f : FmtMma) : field (FmtMma.pack op f) 22 4 = f.fn :=
  congrArg FmtMma.fn (FmtMma.unpack_pack op f)

@[simp] theorem FmtAcc.op_pack (op : BitVec 6) (f : FmtAcc) : field (FmtAcc.pack op f) 26 6 = op := by
  obtain ⟨fn, h, s, n, c, r, q, z⟩ := f
  apply BitVec.eq_of_toNat_eq
  have := op.isLt; have := fn.isLt; have := h.isLt; have := s.isLt; have := n.isLt; have := c.isLt; have := r.isLt; have := q.isLt; have := z.toNat_lt
  simp only [field, FmtAcc.pack, word, BitVec.toNat_ofNat]
  omega

@[simp] theorem FmtAcc.unpack_pack (op : BitVec 6) (f : FmtAcc) : FmtAcc.unpack (FmtAcc.pack op f) = f := by
  obtain ⟨fn, h, s, n, c, r, q, z⟩ := f
  have := op.isLt; have := fn.isLt; have := h.isLt; have := s.isLt; have := n.isLt; have := c.isLt; have := r.isLt; have := q.isLt; have := z.toNat_lt
  simp only [field, FmtAcc.unpack, FmtAcc.pack, word, FmtAcc.mk.injEq]
  refine ⟨?_, ?_, ?_, ?_, ?_, ?_, ?_, ?_⟩
  · apply BitVec.eq_of_toNat_eq; simp only [BitVec.toNat_ofNat]; omega
  · apply BitVec.eq_of_toNat_eq; simp only [BitVec.toNat_ofNat]; omega
  · apply BitVec.eq_of_toNat_eq; simp only [BitVec.toNat_ofNat]; omega
  · apply BitVec.eq_of_toNat_eq; simp only [BitVec.toNat_ofNat]; omega
  · apply BitVec.eq_of_toNat_eq; simp only [BitVec.toNat_ofNat]; omega
  · apply BitVec.eq_of_toNat_eq; simp only [BitVec.toNat_ofNat]; omega
  · apply BitVec.eq_of_toNat_eq; simp only [BitVec.toNat_ofNat]; omega
  · apply flag_eq; simp only [BitVec.toNat_ofNat]; omega

@[simp] theorem FmtAcc.fn_pack (op : BitVec 6) (f : FmtAcc) : field (FmtAcc.pack op f) 22 4 = f.fn :=
  congrArg FmtAcc.fn (FmtAcc.unpack_pack op f)

@[simp] theorem FmtMq.op_pack (op : BitVec 6) (f : FmtMq) : field (FmtMq.pack op f) 26 6 = op := by
  obtain ⟨fn, y, s, z⟩ := f
  apply BitVec.eq_of_toNat_eq
  have := op.isLt; have := fn.isLt; have := y.isLt; have := s.isLt; have := z.isLt
  simp only [field, FmtMq.pack, word, BitVec.toNat_ofNat]
  omega

@[simp] theorem FmtMq.unpack_pack (op : BitVec 6) (f : FmtMq) : FmtMq.unpack (FmtMq.pack op f) = f := by
  obtain ⟨fn, y, s, z⟩ := f
  have := op.isLt; have := fn.isLt; have := y.isLt; have := s.isLt; have := z.isLt
  simp only [field, FmtMq.unpack, FmtMq.pack, word, FmtMq.mk.injEq]
  refine ⟨?_, ?_, ?_, ?_⟩
  · apply BitVec.eq_of_toNat_eq; simp only [BitVec.toNat_ofNat]; omega
  · apply BitVec.eq_of_toNat_eq; simp only [BitVec.toNat_ofNat]; omega
  · apply BitVec.eq_of_toNat_eq; simp only [BitVec.toNat_ofNat]; omega
  · apply BitVec.eq_of_toNat_eq; simp only [BitVec.toNat_ofNat]; omega

@[simp] theorem FmtMq.fn_pack (op : BitVec 6) (f : FmtMq) : field (FmtMq.pack op f) 22 4 = f.fn :=
  congrArg FmtMq.fn (FmtMq.unpack_pack op f)

@[simp] theorem FmtBar.op_pack (op : BitVec 6) (f : FmtBar) : field (FmtBar.pack op f) 26 6 = op := by
  obtain ⟨fn, l, z⟩ := f
  apply BitVec.eq_of_toNat_eq
  have := op.isLt; have := fn.isLt; have := l.isLt; have := z.isLt
  simp only [field, FmtBar.pack, word, BitVec.toNat_ofNat]
  omega

@[simp] theorem FmtBar.unpack_pack (op : BitVec 6) (f : FmtBar) : FmtBar.unpack (FmtBar.pack op f) = f := by
  obtain ⟨fn, l, z⟩ := f
  have := op.isLt; have := fn.isLt; have := l.isLt; have := z.isLt
  simp only [field, FmtBar.unpack, FmtBar.pack, word, FmtBar.mk.injEq]
  refine ⟨?_, ?_, ?_⟩
  · apply BitVec.eq_of_toNat_eq; simp only [BitVec.toNat_ofNat]; omega
  · apply BitVec.eq_of_toNat_eq; simp only [BitVec.toNat_ofNat]; omega
  · apply BitVec.eq_of_toNat_eq; simp only [BitVec.toNat_ofNat]; omega

@[simp] theorem FmtBar.fn_pack (op : BitVec 6) (f : FmtBar) : field (FmtBar.pack op f) 22 4 = f.fn :=
  congrArg FmtBar.fn (FmtBar.unpack_pack op f)

@[simp] theorem FmtFen.op_pack (op : BitVec 6) (f : FmtFen) : field (FmtFen.pack op f) 26 6 = op := by
  obtain ⟨fn, s, k, z⟩ := f
  apply BitVec.eq_of_toNat_eq
  have := op.isLt; have := fn.isLt; have := s.isLt; have := k.isLt; have := z.isLt
  simp only [field, FmtFen.pack, word, BitVec.toNat_ofNat]
  omega

@[simp] theorem FmtFen.unpack_pack (op : BitVec 6) (f : FmtFen) : FmtFen.unpack (FmtFen.pack op f) = f := by
  obtain ⟨fn, s, k, z⟩ := f
  have := op.isLt; have := fn.isLt; have := s.isLt; have := k.isLt; have := z.isLt
  simp only [field, FmtFen.unpack, FmtFen.pack, word, FmtFen.mk.injEq]
  refine ⟨?_, ?_, ?_, ?_⟩
  · apply BitVec.eq_of_toNat_eq; simp only [BitVec.toNat_ofNat]; omega
  · apply BitVec.eq_of_toNat_eq; simp only [BitVec.toNat_ofNat]; omega
  · apply BitVec.eq_of_toNat_eq; simp only [BitVec.toNat_ofNat]; omega
  · apply BitVec.eq_of_toNat_eq; simp only [BitVec.toNat_ofNat]; omega

@[simp] theorem FmtFen.fn_pack (op : BitVec 6) (f : FmtFen) : field (FmtFen.pack op f) 22 4 = f.fn :=
  congrArg FmtFen.fn (FmtFen.unpack_pack op f)

@[simp] theorem FmtRng.op_pack (op : BitVec 6) (f : FmtRng) : field (FmtRng.pack op f) 26 6 = op := by
  obtain ⟨fn, d, g, s, p, z⟩ := f
  apply BitVec.eq_of_toNat_eq
  have := op.isLt; have := fn.isLt; have := d.isLt; have := g.isLt; have := s.isLt; have := p.toNat_lt; have := z.isLt
  simp only [field, FmtRng.pack, word, BitVec.toNat_ofNat]
  omega

@[simp] theorem FmtRng.unpack_pack (op : BitVec 6) (f : FmtRng) : FmtRng.unpack (FmtRng.pack op f) = f := by
  obtain ⟨fn, d, g, s, p, z⟩ := f
  have := op.isLt; have := fn.isLt; have := d.isLt; have := g.isLt; have := s.isLt; have := p.toNat_lt; have := z.isLt
  simp only [field, FmtRng.unpack, FmtRng.pack, word, FmtRng.mk.injEq]
  refine ⟨?_, ?_, ?_, ?_, ?_, ?_⟩
  · apply BitVec.eq_of_toNat_eq; simp only [BitVec.toNat_ofNat]; omega
  · apply BitVec.eq_of_toNat_eq; simp only [BitVec.toNat_ofNat]; omega
  · apply BitVec.eq_of_toNat_eq; simp only [BitVec.toNat_ofNat]; omega
  · apply BitVec.eq_of_toNat_eq; simp only [BitVec.toNat_ofNat]; omega
  · apply flag_eq; simp only [BitVec.toNat_ofNat]; omega
  · apply BitVec.eq_of_toNat_eq; simp only [BitVec.toNat_ofNat]; omega

@[simp] theorem FmtRng.fn_pack (op : BitVec 6) (f : FmtRng) : field (FmtRng.pack op f) 22 4 = f.fn :=
  congrArg FmtRng.fn (FmtRng.unpack_pack op f)

@[simp] theorem FmtChn.op_pack (op : BitVec 6) (f : FmtChn) : field (FmtChn.pack op f) 26 6 = op := by
  obtain ⟨fn, d, a, ep, l, z⟩ := f
  apply BitVec.eq_of_toNat_eq
  have := op.isLt; have := fn.isLt; have := d.isLt; have := a.isLt; have := ep.isLt; have := l.toNat_lt; have := z.isLt
  simp only [field, FmtChn.pack, word, BitVec.toNat_ofNat]
  omega

@[simp] theorem FmtChn.unpack_pack (op : BitVec 6) (f : FmtChn) : FmtChn.unpack (FmtChn.pack op f) = f := by
  obtain ⟨fn, d, a, ep, l, z⟩ := f
  have := op.isLt; have := fn.isLt; have := d.isLt; have := a.isLt; have := ep.isLt; have := l.toNat_lt; have := z.isLt
  simp only [field, FmtChn.unpack, FmtChn.pack, word, FmtChn.mk.injEq]
  refine ⟨?_, ?_, ?_, ?_, ?_, ?_⟩
  · apply BitVec.eq_of_toNat_eq; simp only [BitVec.toNat_ofNat]; omega
  · apply BitVec.eq_of_toNat_eq; simp only [BitVec.toNat_ofNat]; omega
  · apply BitVec.eq_of_toNat_eq; simp only [BitVec.toNat_ofNat]; omega
  · apply BitVec.eq_of_toNat_eq; simp only [BitVec.toNat_ofNat]; omega
  · apply flag_eq; simp only [BitVec.toNat_ofNat]; omega
  · apply BitVec.eq_of_toNat_eq; simp only [BitVec.toNat_ofNat]; omega

@[simp] theorem FmtChn.fn_pack (op : BitVec 6) (f : FmtChn) : field (FmtChn.pack op f) 22 4 = f.fn :=
  congrArg FmtChn.fn (FmtChn.unpack_pack op f)

@[simp] theorem FmtAcq.op_pack (op : BitVec 6) (f : FmtAcq) : field (FmtAcq.pack op f) 26 6 = op := by
  obtain ⟨fn, d, a, k, z⟩ := f
  apply BitVec.eq_of_toNat_eq
  have := op.isLt; have := fn.isLt; have := d.isLt; have := a.isLt; have := k.isLt; have := z.isLt
  simp only [field, FmtAcq.pack, word, BitVec.toNat_ofNat]
  omega

@[simp] theorem FmtAcq.unpack_pack (op : BitVec 6) (f : FmtAcq) : FmtAcq.unpack (FmtAcq.pack op f) = f := by
  obtain ⟨fn, d, a, k, z⟩ := f
  have := op.isLt; have := fn.isLt; have := d.isLt; have := a.isLt; have := k.isLt; have := z.isLt
  simp only [field, FmtAcq.unpack, FmtAcq.pack, word, FmtAcq.mk.injEq]
  refine ⟨?_, ?_, ?_, ?_, ?_⟩
  · apply BitVec.eq_of_toNat_eq; simp only [BitVec.toNat_ofNat]; omega
  · apply BitVec.eq_of_toNat_eq; simp only [BitVec.toNat_ofNat]; omega
  · apply BitVec.eq_of_toNat_eq; simp only [BitVec.toNat_ofNat]; omega
  · apply BitVec.eq_of_toNat_eq; simp only [BitVec.toNat_ofNat]; omega
  · apply BitVec.eq_of_toNat_eq; simp only [BitVec.toNat_ofNat]; omega

@[simp] theorem FmtAcq.fn_pack (op : BitVec 6) (f : FmtAcq) : field (FmtAcq.pack op f) 22 4 = f.fn :=
  congrArg FmtAcq.fn (FmtAcq.unpack_pack op f)

@[simp] theorem FmtCtx.op_pack (op : BitVec 6) (f : FmtCtx) : field (FmtCtx.pack op f) 26 6 = op := by
  obtain ⟨fn, d, a, b, z⟩ := f
  apply BitVec.eq_of_toNat_eq
  have := op.isLt; have := fn.isLt; have := d.isLt; have := a.isLt; have := b.isLt; have := z.isLt
  simp only [field, FmtCtx.pack, word, BitVec.toNat_ofNat]
  omega

@[simp] theorem FmtCtx.unpack_pack (op : BitVec 6) (f : FmtCtx) : FmtCtx.unpack (FmtCtx.pack op f) = f := by
  obtain ⟨fn, d, a, b, z⟩ := f
  have := op.isLt; have := fn.isLt; have := d.isLt; have := a.isLt; have := b.isLt; have := z.isLt
  simp only [field, FmtCtx.unpack, FmtCtx.pack, word, FmtCtx.mk.injEq]
  refine ⟨?_, ?_, ?_, ?_, ?_⟩
  · apply BitVec.eq_of_toNat_eq; simp only [BitVec.toNat_ofNat]; omega
  · apply BitVec.eq_of_toNat_eq; simp only [BitVec.toNat_ofNat]; omega
  · apply BitVec.eq_of_toNat_eq; simp only [BitVec.toNat_ofNat]; omega
  · apply BitVec.eq_of_toNat_eq; simp only [BitVec.toNat_ofNat]; omega
  · apply BitVec.eq_of_toNat_eq; simp only [BitVec.toNat_ofNat]; omega

@[simp] theorem FmtCtx.fn_pack (op : BitVec 6) (f : FmtCtx) : field (FmtCtx.pack op f) 22 4 = f.fn :=
  congrArg FmtCtx.fn (FmtCtx.unpack_pack op f)

@[simp] theorem FmtRpt.op_pack (op : BitVec 6) (f : FmtRpt) : field (FmtRpt.pack op f) 26 6 = op := by
  obtain ⟨n, sd, sa, sb, st, z⟩ := f
  apply BitVec.eq_of_toNat_eq
  have := op.isLt; have := n.isLt; have := sd.toNat_lt; have := sa.toNat_lt; have := sb.toNat_lt; have := st.isLt; have := z.isLt
  simp only [field, FmtRpt.pack, word, BitVec.toNat_ofNat]
  omega

@[simp] theorem FmtRpt.unpack_pack (op : BitVec 6) (f : FmtRpt) : FmtRpt.unpack (FmtRpt.pack op f) = f := by
  obtain ⟨n, sd, sa, sb, st, z⟩ := f
  have := op.isLt; have := n.isLt; have := sd.toNat_lt; have := sa.toNat_lt; have := sb.toNat_lt; have := st.isLt; have := z.isLt
  simp only [field, FmtRpt.unpack, FmtRpt.pack, word, FmtRpt.mk.injEq]
  refine ⟨?_, ?_, ?_, ?_, ?_, ?_⟩
  · apply BitVec.eq_of_toNat_eq; simp only [BitVec.toNat_ofNat]; omega
  · apply flag_eq; simp only [BitVec.toNat_ofNat]; omega
  · apply flag_eq; simp only [BitVec.toNat_ofNat]; omega
  · apply flag_eq; simp only [BitVec.toNat_ofNat]; omega
  · apply BitVec.eq_of_toNat_eq; simp only [BitVec.toNat_ofNat]; omega
  · apply BitVec.eq_of_toNat_eq; simp only [BitVec.toNat_ofNat]; omega

@[simp] theorem FmtWide.op_pack (op : BitVec 6) (f : FmtWide) : field (FmtWide.pack op f) 26 6 = op := by
  obtain ⟨k, p⟩ := f
  apply BitVec.eq_of_toNat_eq
  have := op.isLt; have := k.isLt; have := p.isLt
  simp only [field, FmtWide.pack, word, BitVec.toNat_ofNat]
  omega

@[simp] theorem FmtWide.unpack_pack (op : BitVec 6) (f : FmtWide) : FmtWide.unpack (FmtWide.pack op f) = f := by
  obtain ⟨k, p⟩ := f
  have := op.isLt; have := k.isLt; have := p.isLt
  simp only [field, FmtWide.unpack, FmtWide.pack, word, FmtWide.mk.injEq]
  refine ⟨?_, ?_⟩
  · apply BitVec.eq_of_toNat_eq; simp only [BitVec.toNat_ofNat]; omega
  · apply BitVec.eq_of_toNat_eq; simp only [BitVec.toNat_ofNat]; omega

@[simp] theorem FmtWide.k_pack (op : BitVec 6) (f : FmtWide) : field (FmtWide.pack op f) 24 2 = f.k :=
  congrArg FmtWide.k (FmtWide.unpack_pack op f)

@[simp] theorem FmtMod.op_pack (op : BitVec 6) (f : FmtMod) : field (FmtMod.pack op f) 26 6 = op := by
  obtain ⟨k, s, o, c, t, z⟩ := f
  apply BitVec.eq_of_toNat_eq
  have := op.isLt; have := k.isLt; have := s.isLt; have := o.isLt; have := c.isLt; have := t.toNat_lt; have := z.isLt
  simp only [field, FmtMod.pack, word, BitVec.toNat_ofNat]
  omega

@[simp] theorem FmtMod.unpack_pack (op : BitVec 6) (f : FmtMod) : FmtMod.unpack (FmtMod.pack op f) = f := by
  obtain ⟨k, s, o, c, t, z⟩ := f
  have := op.isLt; have := k.isLt; have := s.isLt; have := o.isLt; have := c.isLt; have := t.toNat_lt; have := z.isLt
  simp only [field, FmtMod.unpack, FmtMod.pack, word, FmtMod.mk.injEq]
  refine ⟨?_, ?_, ?_, ?_, ?_, ?_⟩
  · apply BitVec.eq_of_toNat_eq; simp only [BitVec.toNat_ofNat]; omega
  · apply BitVec.eq_of_toNat_eq; simp only [BitVec.toNat_ofNat]; omega
  · apply BitVec.eq_of_toNat_eq; simp only [BitVec.toNat_ofNat]; omega
  · apply BitVec.eq_of_toNat_eq; simp only [BitVec.toNat_ofNat]; omega
  · apply flag_eq; simp only [BitVec.toNat_ofNat]; omega
  · apply BitVec.eq_of_toNat_eq; simp only [BitVec.toNat_ofNat]; omega

@[simp] theorem FmtMod.k_pack (op : BitVec 6) (f : FmtMod) : field (FmtMod.pack op f) 24 2 = f.k :=
  congrArg FmtMod.k (FmtMod.unpack_pack op f)

@[simp] theorem FmtSch.op_pack (op : BitVec 6) (f : FmtSch) : field (FmtSch.pack op f) 26 6 = op := by
  obtain ⟨k, y, p, z, s⟩ := f
  apply BitVec.eq_of_toNat_eq
  have := op.isLt; have := k.isLt; have := y.toNat_lt; have := p.isLt; have := z.isLt; have := s.isLt
  simp only [field, FmtSch.pack, word, BitVec.toNat_ofNat]
  omega

@[simp] theorem FmtSch.unpack_pack (op : BitVec 6) (f : FmtSch) : FmtSch.unpack (FmtSch.pack op f) = f := by
  obtain ⟨k, y, p, z, s⟩ := f
  have := op.isLt; have := k.isLt; have := y.toNat_lt; have := p.isLt; have := z.isLt; have := s.isLt
  simp only [field, FmtSch.unpack, FmtSch.pack, word, FmtSch.mk.injEq]
  refine ⟨?_, ?_, ?_, ?_, ?_⟩
  · apply BitVec.eq_of_toNat_eq; simp only [BitVec.toNat_ofNat]; omega
  · apply flag_eq; simp only [BitVec.toNat_ofNat]; omega
  · apply BitVec.eq_of_toNat_eq; simp only [BitVec.toNat_ofNat]; omega
  · apply BitVec.eq_of_toNat_eq; simp only [BitVec.toNat_ofNat]; omega
  · apply BitVec.eq_of_toNat_eq; simp only [BitVec.toNat_ofNat]; omega

@[simp] theorem FmtSch.k_pack (op : BitVec 6) (f : FmtSch) : field (FmtSch.pack op f) 24 2 = f.k :=
  congrArg FmtSch.k (FmtSch.unpack_pack op f)

theorem raw_01 {w : BitVec 32} (h : field w 26 6 = 1) : decodeRaw w = dec01 w := by
  unfold decodeRaw; rw [h]; rfl

theorem raw_02 {w : BitVec 32} (h : field w 26 6 = 2) : decodeRaw w = dec02 w := by
  unfold decodeRaw; rw [h]; rfl

theorem raw_03 {w : BitVec 32} (h : field w 26 6 = 3) : decodeRaw w = dec03 w := by
  unfold decodeRaw; rw [h]; rfl

theorem raw_04 {w : BitVec 32} (h : field w 26 6 = 4) : decodeRaw w = dec04 w := by
  unfold decodeRaw; rw [h]; rfl

theorem raw_05 {w : BitVec 32} (h : field w 26 6 = 5) : decodeRaw w = dec05 w := by
  unfold decodeRaw; rw [h]; rfl

theorem raw_06 {w : BitVec 32} (h : field w 26 6 = 6) : decodeRaw w = dec06 w := by
  unfold decodeRaw; rw [h]; rfl

theorem raw_07 {w : BitVec 32} (h : field w 26 6 = 7) : decodeRaw w = dec07 w := by
  unfold decodeRaw; rw [h]; rfl

theorem raw_08 {w : BitVec 32} (h : field w 26 6 = 8) : decodeRaw w = dec08 w := by
  unfold decodeRaw; rw [h]; rfl

theorem raw_09 {w : BitVec 32} (h : field w 26 6 = 9) : decodeRaw w = dec09 w := by
  unfold decodeRaw; rw [h]; rfl

theorem raw_0a {w : BitVec 32} (h : field w 26 6 = 10) : decodeRaw w = dec0A w := by
  unfold decodeRaw; rw [h]; rfl

theorem raw_10 {w : BitVec 32} (h : field w 26 6 = 16) : decodeRaw w = dec10 w := by
  unfold decodeRaw; rw [h]; rfl

theorem raw_11 {w : BitVec 32} (h : field w 26 6 = 17) : decodeRaw w = dec11 w := by
  unfold decodeRaw; rw [h]; rfl

theorem raw_12 {w : BitVec 32} (h : field w 26 6 = 18) : decodeRaw w = dec12 w := by
  unfold decodeRaw; rw [h]; rfl

theorem raw_13 {w : BitVec 32} (h : field w 26 6 = 19) : decodeRaw w = dec13 w := by
  unfold decodeRaw; rw [h]; rfl

theorem raw_14 {w : BitVec 32} (h : field w 26 6 = 20) : decodeRaw w = dec14 w := by
  unfold decodeRaw; rw [h]; rfl

theorem raw_15 {w : BitVec 32} (h : field w 26 6 = 21) : decodeRaw w = dec15 w := by
  unfold decodeRaw; rw [h]; rfl

theorem raw_16 {w : BitVec 32} (h : field w 26 6 = 22) : decodeRaw w = dec16 w := by
  unfold decodeRaw; rw [h]; rfl

theorem raw_17 {w : BitVec 32} (h : field w 26 6 = 23) : decodeRaw w = dec17 w := by
  unfold decodeRaw; rw [h]; rfl

theorem raw_18 {w : BitVec 32} (h : field w 26 6 = 24) : decodeRaw w = dec18 w := by
  unfold decodeRaw; rw [h]; rfl

theorem raw_19 {w : BitVec 32} (h : field w 26 6 = 25) : decodeRaw w = dec19 w := by
  unfold decodeRaw; rw [h]; rfl

theorem raw_1a {w : BitVec 32} (h : field w 26 6 = 26) : decodeRaw w = dec1A w := by
  unfold decodeRaw; rw [h]; rfl

theorem raw_1b {w : BitVec 32} (h : field w 26 6 = 27) : decodeRaw w = dec1B w := by
  unfold decodeRaw; rw [h]; rfl

theorem raw_1c {w : BitVec 32} (h : field w 26 6 = 28) : decodeRaw w = dec1C w := by
  unfold decodeRaw; rw [h]; rfl

theorem raw_1d {w : BitVec 32} (h : field w 26 6 = 29) : decodeRaw w = dec1D w := by
  unfold decodeRaw; rw [h]; rfl

theorem raw_1e {w : BitVec 32} (h : field w 26 6 = 30) : decodeRaw w = dec1E w := by
  unfold decodeRaw; rw [h]; rfl

theorem raw_1f {w : BitVec 32} (h : field w 26 6 = 31) : decodeRaw w = dec1F w := by
  unfold decodeRaw; rw [h]; rfl

theorem raw_20 {w : BitVec 32} (h : field w 26 6 = 32) : decodeRaw w = dec20 w := by
  unfold decodeRaw; rw [h]; rfl

theorem raw_21 {w : BitVec 32} (h : field w 26 6 = 33) : decodeRaw w = dec21 w := by
  unfold decodeRaw; rw [h]; rfl

theorem raw_22 {w : BitVec 32} (h : field w 26 6 = 34) : decodeRaw w = dec22 w := by
  unfold decodeRaw; rw [h]; rfl

theorem raw_24 {w : BitVec 32} (h : field w 26 6 = 36) : decodeRaw w = dec24 w := by
  unfold decodeRaw; rw [h]; rfl

theorem raw_25 {w : BitVec 32} (h : field w 26 6 = 37) : decodeRaw w = dec25 w := by
  unfold decodeRaw; rw [h]; rfl

theorem raw_26 {w : BitVec 32} (h : field w 26 6 = 38) : decodeRaw w = dec26 w := by
  unfold decodeRaw; rw [h]; rfl

theorem raw_28 {w : BitVec 32} (h : field w 26 6 = 40) : decodeRaw w = dec28 w := by
  unfold decodeRaw; rw [h]; rfl

theorem raw_29 {w : BitVec 32} (h : field w 26 6 = 41) : decodeRaw w = dec29 w := by
  unfold decodeRaw; rw [h]; rfl

theorem raw_2a {w : BitVec 32} (h : field w 26 6 = 42) : decodeRaw w = dec2A w := by
  unfold decodeRaw; rw [h]; rfl

theorem raw_2b {w : BitVec 32} (h : field w 26 6 = 43) : decodeRaw w = dec2B w := by
  unfold decodeRaw; rw [h]; rfl

theorem raw_2c {w : BitVec 32} (h : field w 26 6 = 44) : decodeRaw w = dec2C w := by
  unfold decodeRaw; rw [h]; rfl

theorem raw_2d {w : BitVec 32} (h : field w 26 6 = 45) : decodeRaw w = dec2D w := by
  unfold decodeRaw; rw [h]; rfl

theorem raw_2e {w : BitVec 32} (h : field w 26 6 = 46) : decodeRaw w = dec2E w := by
  unfold decodeRaw; rw [h]; rfl

theorem raw_30 {w : BitVec 32} (h : field w 26 6 = 48) : decodeRaw w = dec30 w := by
  unfold decodeRaw; rw [h]; rfl

theorem raw_31 {w : BitVec 32} (h : field w 26 6 = 49) : decodeRaw w = dec31 w := by
  unfold decodeRaw; rw [h]; rfl

theorem raw_32 {w : BitVec 32} (h : field w 26 6 = 50) : decodeRaw w = dec32 w := by
  unfold decodeRaw; rw [h]; rfl

theorem raw_34 {w : BitVec 32} (h : field w 26 6 = 52) : decodeRaw w = dec34 w := by
  unfold decodeRaw; rw [h]; rfl

theorem raw_35 {w : BitVec 32} (h : field w 26 6 = 53) : decodeRaw w = dec35 w := by
  unfold decodeRaw; rw [h]; rfl

theorem raw_36 {w : BitVec 32} (h : field w 26 6 = 54) : decodeRaw w = dec36 w := by
  unfold decodeRaw; rw [h]; rfl

theorem raw_38 {w : BitVec 32} (h : field w 26 6 = 56) : decodeRaw w = dec38 w := by
  unfold decodeRaw; rw [h]; rfl

theorem raw_39 {w : BitVec 32} (h : field w 26 6 = 57) : decodeRaw w = dec39 w := by
  unfold decodeRaw; rw [h]; rfl

theorem raw_3a {w : BitVec 32} (h : field w 26 6 = 58) : decodeRaw w = dec3A w := by
  unfold decodeRaw; rw [h]; rfl

theorem raw_3b {w : BitVec 32} (h : field w 26 6 = 59) : decodeRaw w = dec3B w := by
  unfold decodeRaw; rw [h]; rfl

theorem raw_3c {w : BitVec 32} (h : field w 26 6 = 60) : decodeRaw w = dec3C w := by
  unfold decodeRaw; rw [h]; rfl

theorem raw_3d {w : BitVec 32} (h : field w 26 6 = 61) : decodeRaw w = dec3D w := by
  unfold decodeRaw; rw [h]; rfl

theorem raw_3e {w : BitVec 32} (h : field w 26 6 = 62) : decodeRaw w = dec3E w := by
  unfold decodeRaw; rw [h]; rfl

theorem raw_3f {w : BitVec 32} (h : field w 26 6 = 63) : decodeRaw w = dec3F w := by
  unfold decodeRaw; rw [h]; rfl

/-- A word that reads as a well-formed instruction decodes to it. -/
theorem decode_of_raw {w : BitVec 32} {i : Instr} (h : decodeRaw w = .ok i) (hf : i.wf = true) : decode w = .ok i := by
  simp [decode, h, hf]

theorem immHi5_bfImm (n : BitVec 5) (p : BitVec 6) : immHi5 (bfImm n p) = n := by
  apply BitVec.eq_of_toNat_eq
  have := n.isLt; have := p.isLt
  simp only [immHi5, bfImm, field, BitVec.toNat_ofNat]
  omega

theorem immLo6_bfImm (n : BitVec 5) (p : BitVec 6) : immLo6 (bfImm n p) = p := by
  apply BitVec.eq_of_toNat_eq
  have := n.isLt; have := p.isLt
  simp only [immLo6, bfImm, field, BitVec.toNat_ofNat]
  omega

theorem hiveImm_hi (h : BitVec 4) : field (hiveImm h) 4 7 = 0 := by
  apply BitVec.eq_of_toNat_eq
  have := h.isLt
  show (BitVec.ofNat 11 h.toNat).toNat / 2 ^ 4 % 2 ^ 7 = 0
  simp only [BitVec.toNat_ofNat]
  omega

theorem immLo4_hiveImm (h : BitVec 4) : immLo4 (hiveImm h) = h := by
  apply BitVec.eq_of_toNat_eq
  have := h.isLt
  simp only [immLo4, hiveImm, field, BitVec.toNat_ofNat]
  omega

theorem asPred_setWidth (d : BitVec 3) : asPred (d.setWidth 5) = some d := by
  have := d.isLt
  have h : d.toNat % 32 = d.toNat := by omega
  simp only [asPred, BitVec.toNat_setWidth]
  rw [if_pos (by omega)]
  congr 1
  apply BitVec.eq_of_toNat_eq
  simp

end Sys2Proof
end

