-- ==== Sys2Proof/Laws/Dispatch.lean ====
section
/-!
SUPPORT. The arm of `exec` of each constructor, by its name: later proofs never unfold the dispatch.
-/

namespace Sys2Proof.Machine

theorem exec_add (d a b : BitVec 5) (l m e x : Bool) (s : State) :
    exec (.add d a b l m e x) s = execAdd d a b l m e x s := rfl
theorem exec_sub (d a b : BitVec 5) (l m e x : Bool) (s : State) :
    exec (.sub d a b l m e x) s = execSub d a b l m e x s := rfl
theorem exec_and (d a b : BitVec 5) (l m e x : Bool) (s : State) :
    exec (.and d a b l m e x) s = execAnd d a b l m e x s := rfl
theorem exec_or (d a b : BitVec 5) (l m e x : Bool) (s : State) :
    exec (.or d a b l m e x) s = execOr d a b l m e x s := rfl
theorem exec_xor (d a b : BitVec 5) (l m e x : Bool) (s : State) :
    exec (.xor d a b l m e x) s = execXor d a b l m e x s := rfl
theorem exec_andn (d a b : BitVec 5) (l m e x : Bool) (s : State) :
    exec (.andn d a b l m e x) s = execAndn d a b l m e x s := rfl
theorem exec_shl (d a b : BitVec 5) (l m e x : Bool) (s : State) :
    exec (.shl d a b l m e x) s = execShl d a b l m e x s := rfl
theorem exec_shrI (d a b : BitVec 5) (l m e x : Bool) (s : State) :
    exec (.shrI d a b l m e x) s = execShrI d a b l m e x s := rfl
theorem exec_shrN (d a b : BitVec 5) (l m e x : Bool) (s : State) :
    exec (.shrN d a b l m e x) s = execShrN d a b l m e x s := rfl
theorem exec_rotl (d a b : BitVec 5) (l m e x : Bool) (s : State) :
    exec (.rotl d a b l m e x) s = execRotl d a b l m e x s := rfl
theorem exec_rotr (d a b : BitVec 5) (l m e x : Bool) (s : State) :
    exec (.rotr d a b l m e x) s = execRotr d a b l m e x s := rfl
theorem exec_mul (d a b : BitVec 5) (l m e x : Bool) (s : State) :
    exec (.mul d a b l m e x) s = execMul d a b l m e x s := rfl
theorem exec_mulhI (d a b : BitVec 5) (l m e x : Bool) (s : State) :
    exec (.mulhI d a b l m e x) s = execMulhI d a b l m e x s := rfl
theorem exec_mulhN (d a b : BitVec 5) (l m e x : Bool) (s : State) :
    exec (.mulhN d a b l m e x) s = execMulhN d a b l m e x s := rfl
theorem exec_minI (d a b : BitVec 5) (l m e x : Bool) (s : State) :
    exec (.minI d a b l m e x) s = execMinI d a b l m e x s := rfl
theorem exec_minN (d a b : BitVec 5) (l m e x : Bool) (s : State) :
    exec (.minN d a b l m e x) s = execMinN d a b l m e x s := rfl
theorem exec_maxI (d a b : BitVec 5) (l m e x : Bool) (s : State) :
    exec (.maxI d a b l m e x) s = execMaxI d a b l m e x s := rfl
theorem exec_maxN (d a b : BitVec 5) (l m e x : Bool) (s : State) :
    exec (.maxN d a b l m e x) s = execMaxN d a b l m e x s := rfl
theorem exec_divI (d a b : BitVec 5) (l m e x : Bool) (s : State) :
    exec (.divI d a b l m e x) s = execDivI d a b l m e x s := rfl
theorem exec_divN (d a b : BitVec 5) (l m e x : Bool) (s : State) :
    exec (.divN d a b l m e x) s = execDivN d a b l m e x s := rfl
theorem exec_remI (d a b : BitVec 5) (l m e x : Bool) (s : State) :
    exec (.remI d a b l m e x) s = execRemI d a b l m e x s := rfl
theorem exec_remN (d a b : BitVec 5) (l m e x : Bool) (s : State) :
    exec (.remN d a b l m e x) s = execRemN d a b l m e x s := rfl
theorem exec_clz (d a : BitVec 5) (l e x : Bool) (s : State) :
    exec (.clz d a l e x) s = execClz d a l e x s := rfl
theorem exec_ctz (d a : BitVec 5) (l e x : Bool) (s : State) :
    exec (.ctz d a l e x) s = execCtz d a l e x s := rfl
theorem exec_popc (d a : BitVec 5) (l e x : Bool) (s : State) :
    exec (.popc d a l e x) s = execPopc d a l e x s := rfl
theorem exec_brev (d a : BitVec 5) (l e x : Bool) (s : State) :
    exec (.brev d a l e x) s = execBrev d a l e x s := rfl
theorem exec_bswap (d a : BitVec 5) (l e x : Bool) (s : State) :
    exec (.bswap d a l e x) s = execBswap d a l e x s := rfl
theorem exec_abs (d a : BitVec 5) (l e x : Bool) (s : State) :
    exec (.abs d a l e x) s = execAbs d a l e x s := rfl
theorem exec_addsI (d a b : BitVec 5) (l m e x : Bool) (s : State) :
    exec (.addsI d a b l m e x) s = execAddsI d a b l m e x s := rfl
theorem exec_subsI (d a b : BitVec 5) (l m e x : Bool) (s : State) :
    exec (.subsI d a b l m e x) s = execSubsI d a b l m e x s := rfl
theorem exec_seq (d a b : BitVec 5) (l m e x : Bool) (s : State) :
    exec (.seq d a b l m e x) s = execSeq d a b l m e x s := rfl
theorem exec_sne (d a b : BitVec 5) (l m e x : Bool) (s : State) :
    exec (.sne d a b l m e x) s = execSne d a b l m e x s := rfl
theorem exec_sltI (d a b : BitVec 5) (l m e x : Bool) (s : State) :
    exec (.sltI d a b l m e x) s = execSltI d a b l m e x s := rfl
theorem exec_sltN (d a b : BitVec 5) (l m e x : Bool) (s : State) :
    exec (.sltN d a b l m e x) s = execSltN d a b l m e x s := rfl
theorem exec_sleI (d a b : BitVec 5) (l m e x : Bool) (s : State) :
    exec (.sleI d a b l m e x) s = execSleI d a b l m e x s := rfl
theorem exec_sleN (d a b : BitVec 5) (l m e x : Bool) (s : State) :
    exec (.sleN d a b l m e x) s = execSleN d a b l m e x s := rfl
theorem exec_cmovnz (d a b : BitVec 5) (l m e x : Bool) (s : State) :
    exec (.cmovnz d a b l m e x) s = execCmovnz d a b l m e x s := rfl
theorem exec_cmovz (d a b : BitVec 5) (l m e x : Bool) (s : State) :
    exec (.cmovz d a b l m e x) s = execCmovz d a b l m e x s := rfl
theorem exec_addi (d a : BitVec 5) (l : Bool) (imm : BitVec 11) (s : State) :
    exec (.addi d a l imm) s = execAddi d a l imm s := rfl
theorem exec_andi (d a : BitVec 5) (l : Bool) (imm : BitVec 11) (s : State) :
    exec (.andi d a l imm) s = execAndi d a l imm s := rfl
theorem exec_ori (d a : BitVec 5) (l : Bool) (imm : BitVec 11) (s : State) :
    exec (.ori d a l imm) s = execOri d a l imm s := rfl
theorem exec_xori (d a : BitVec 5) (l : Bool) (imm : BitVec 11) (s : State) :
    exec (.xori d a l imm) s = execXori d a l imm s := rfl
theorem exec_shli (d a : BitVec 5) (l : Bool) (imm : BitVec 11) (s : State) :
    exec (.shli d a l imm) s = execShli d a l imm s := rfl
theorem exec_shriI (d a : BitVec 5) (l : Bool) (imm : BitVec 11) (s : State) :
    exec (.shriI d a l imm) s = execShriI d a l imm s := rfl
theorem exec_shriN (d a : BitVec 5) (l : Bool) (imm : BitVec 11) (s : State) :
    exec (.shriN d a l imm) s = execShriN d a l imm s := rfl
theorem exec_sltiI (d a : BitVec 5) (l : Bool) (imm : BitVec 11) (s : State) :
    exec (.sltiI d a l imm) s = execSltiI d a l imm s := rfl
theorem exec_sltiN (d a : BitVec 5) (l : Bool) (imm : BitVec 11) (s : State) :
    exec (.sltiN d a l imm) s = execSltiN d a l imm s := rfl
theorem exec_seqi (d a : BitVec 5) (l : Bool) (imm : BitVec 11) (s : State) :
    exec (.seqi d a l imm) s = execSeqi d a l imm s := rfl
theorem exec_muli (d a : BitVec 5) (l : Bool) (imm : BitVec 11) (s : State) :
    exec (.muli d a l imm) s = execMuli d a l imm s := rfl
theorem exec_rotli (d a : BitVec 5) (l : Bool) (imm : BitVec 11) (s : State) :
    exec (.rotli d a l imm) s = execRotli d a l imm s := rfl
theorem exec_bfxI (d a : BitVec 5) (l : Bool) (n : BitVec 5) (p : BitVec 6) (s : State) :
    exec (.bfxI d a l n p) s = execBfxI d a l n p s := rfl
theorem exec_bfxN (d a : BitVec 5) (l : Bool) (n : BitVec 5) (p : BitVec 6) (s : State) :
    exec (.bfxN d a l n p) s = execBfxN d a l n p s := rfl
theorem exec_bfi (d a : BitVec 5) (l : Bool) (n : BitVec 5) (p : BitVec 6) (s : State) :
    exec (.bfi d a l n p) s = execBfi d a l n p s := rfl
theorem exec_lea2 (d a b : BitVec 5) (l m e x : Bool) (s : State) :
    exec (.lea2 d a b l m e x) s = execLea2 d a b l m e x s := rfl
theorem exec_lea4 (d a b : BitVec 5) (l m e x : Bool) (s : State) :
    exec (.lea4 d a b l m e x) s = execLea4 d a b l m e x s := rfl
theorem exec_lea8 (d a b : BitVec 5) (l m e x : Bool) (s : State) :
    exec (.lea8 d a b l m e x) s = execLea8 d a b l m e x s := rfl
theorem exec_lea16 (d a b : BitVec 5) (l m e x : Bool) (s : State) :
    exec (.lea16 d a b l m e x) s = execLea16 d a b l m e x s := rfl
theorem exec_mov (d a : BitVec 5) (l e : Bool) (s : State) :
    exec (.mov d a l e) s = execMov d a l e s := rfl
theorem exec_srd (d : BitVec 5) (imm : BitVec 11) (s : State) :
    exec (.srd d imm) s = execSrd d imm s := rfl
theorem exec_swr (a : BitVec 5) (l : Bool) (imm : BitVec 11) (s : State) :
    exec (.swr a l imm) s = execSwr a l imm s := rfl
theorem exec_hrd (d : BitVec 5) (h : BitVec 4) (s : State) :
    exec (.hrd d h) s = execHrd d h s := rfl
theorem exec_hwr (a : BitVec 5) (l : Bool) (h : BitVec 4) (s : State) :
    exec (.hwr a l h) s = execHwr a l h s := rfl
theorem exec_hadd (d a : BitVec 5) (l : Bool) (h : BitVec 4) (s : State) :
    exec (.hadd d a l h) s = execHadd d a l h s := rfl
theorem exec_srdv (d : BitVec 5) (s : State) :
    exec (.srdv d) s = execSrdv d s := rfl
theorem exec_fadd (r : Rm) (d a b : BitVec 5) (l m e : Bool) (s : State) :
    exec (.fadd r d a b l m e) s = execFadd r d a b l m e s := rfl
theorem exec_fsub (r : Rm) (d a b : BitVec 5) (l m e : Bool) (s : State) :
    exec (.fsub r d a b l m e) s = execFsub r d a b l m e s := rfl
theorem exec_fmul (r : Rm) (d a b : BitVec 5) (l m e : Bool) (s : State) :
    exec (.fmul r d a b l m e) s = execFmul r d a b l m e s := rfl
theorem exec_fdiv (r : Rm) (d a b : BitVec 5) (l m e : Bool) (s : State) :
    exec (.fdiv r d a b l m e) s = execFdiv r d a b l m e s := rfl
theorem exec_ffma (r : Rm) (d a b : BitVec 5) (l m e : Bool) (s : State) :
    exec (.ffma r d a b l m e) s = execFfma r d a b l m e s := rfl
theorem exec_fsqrt (r : Rm) (d a : BitVec 5) (l e : Bool) (s : State) :
    exec (.fsqrt r d a l e) s = execFsqrt r d a l e s := rfl
theorem exec_fcvtF32I64 (r : Rm) (d a : BitVec 5) (l e : Bool) (s : State) :
    exec (.fcvtF32I64 r d a l e) s = execFcvtF32I64 r d a l e s := rfl
theorem exec_fcvtI64F32 (r : Rm) (d a : BitVec 5) (l e : Bool) (s : State) :
    exec (.fcvtI64F32 r d a l e) s = execFcvtI64F32 r d a l e s := rfl
theorem exec_br (o : BitVec 17) (s : State) :
    exec (.br o) s = execBr o s := rfl
theorem exec_bz (r : BitVec 5) (o : BitVec 17) (s : State) :
    exec (.bz r o) s = execBz r o s := rfl
theorem exec_bnz (r : BitVec 5) (o : BitVec 17) (s : State) :
    exec (.bnz r o) s = execBnz r o s := rfl
theorem exec_blt (r : BitVec 5) (o : BitVec 17) (s : State) :
    exec (.blt r o) s = execBlt r o s := rfl
theorem exec_bge (r : BitVec 5) (o : BitVec 17) (s : State) :
    exec (.bge r o) s = execBge r o s := rfl
theorem exec_bany (r : PReg) (o : BitVec 17) (s : State) :
    exec (.bany r o) s = execBany r o s := rfl
theorem exec_ball (r : PReg) (o : BitVec 17) (s : State) :
    exec (.ball r o) s = execBall r o s := rfl
theorem exec_bnone (r : PReg) (o : BitVec 17) (s : State) :
    exec (.bnone r o) s = execBnone r o s := rfl
theorem exec_call (d : BitVec 5) (o : BitVec 17) (s : State) :
    exec (.call d o) s = execCall d o s := rfl
theorem exec_callr (d a : BitVec 5) (l e : Bool) (s : State) :
    exec (.callr d a l e) s = execCallr d a l e s := rfl
theorem exec_ret (a : BitVec 5) (l e : Bool) (s : State) :
    exec (.ret a l e) s = execRet a l e s := rfl
theorem exec_exit (q : BitVec 3) (s : State) :
    exec (.exit q) s = execExit q s := rfl
theorem exec_yield (s : State) :
    exec (.yield) s = execYield s := rfl
theorem exec_enq (d a b : BitVec 5) (l m e : Bool) (s : State) :
    exec (.enq d a b l m e) s = execEnq d a b l m e s := rfl
theorem exec_trap (imm : BitVec 11) (s : State) :
    exec (.trap imm) s = execTrap imm s := rfl
theorem exec_pand (d a b : PReg) (q : BitVec 3) (s : State) :
    exec (.pand d a b q) s = execPand d a b q s := rfl
theorem exec_por (d a b : PReg) (q : BitVec 3) (s : State) :
    exec (.por d a b q) s = execPor d a b q s := rfl
theorem exec_pxor (d a b : PReg) (q : BitVec 3) (s : State) :
    exec (.pxor d a b q) s = execPxor d a b q s := rfl
theorem exec_pandn (d a b : PReg) (q : BitVec 3) (s : State) :
    exec (.pandn d a b q) s = execPandn d a b q s := rfl
theorem exec_pnot (d a : PReg) (q : BitVec 3) (s : State) :
    exec (.pnot d a q) s = execPnot d a q s := rfl
theorem exec_pmov (d a : PReg) (q : BitVec 3) (s : State) :
    exec (.pmov d a q) s = execPmov d a q s := rfl
theorem exec_pset (d : PReg) (a : BitVec 5) (q : BitVec 3) (l e : Bool) (s : State) :
    exec (.pset d a q l e) s = execPset d a q l e s := rfl
theorem exec_pfirst (d a : PReg) (q : BitVec 3) (s : State) :
    exec (.pfirst d a q) s = execPfirst d a q s := rfl
theorem exec_vadd (w : Wid3) (d a b : BitVec 5) (q : BitVec 3) (l m e x : Bool) (s : State) :
    exec (.vadd w d a b q l m e x) s = execVadd w d a b q l m e x s := rfl
theorem exec_vsub (w : Wid3) (d a b : BitVec 5) (q : BitVec 3) (l m e x : Bool) (s : State) :
    exec (.vsub w d a b q l m e x) s = execVsub w d a b q l m e x s := rfl
theorem exec_vmul (w : Wid3) (d a b : BitVec 5) (q : BitVec 3) (l m e x : Bool) (s : State) :
    exec (.vmul w d a b q l m e x) s = execVmul w d a b q l m e x s := rfl
theorem exec_vminI (w : Wid3) (d a b : BitVec 5) (q : BitVec 3) (l m e : Bool) (s : State) :
    exec (.vminI w d a b q l m e) s = execVminI w d a b q l m e s := rfl
theorem exec_vminN (w : Wid3) (d a b : BitVec 5) (q : BitVec 3) (l m e : Bool) (s : State) :
    exec (.vminN w d a b q l m e) s = execVminN w d a b q l m e s := rfl
theorem exec_vmaxI (w : Wid3) (d a b : BitVec 5) (q : BitVec 3) (l m e : Bool) (s : State) :
    exec (.vmaxI w d a b q l m e) s = execVmaxI w d a b q l m e s := rfl
theorem exec_vmaxN (w : Wid3) (d a b : BitVec 5) (q : BitVec 3) (l m e : Bool) (s : State) :
    exec (.vmaxN w d a b q l m e) s = execVmaxN w d a b q l m e s := rfl
theorem exec_vabsdI (w : Wid3) (d a b : BitVec 5) (q : BitVec 3) (l m e : Bool) (s : State) :
    exec (.vabsdI w d a b q l m e) s = execVabsdI w d a b q l m e s := rfl
theorem exec_vabsdN (w : Wid3) (d a b : BitVec 5) (q : BitVec 3) (l m e : Bool) (s : State) :
    exec (.vabsdN w d a b q l m e) s = execVabsdN w d a b q l m e s := rfl
theorem exec_vavgI (w : Wid3) (d a b : BitVec 5) (q : BitVec 3) (l m e : Bool) (s : State) :
    exec (.vavgI w d a b q l m e) s = execVavgI w d a b q l m e s := rfl
theorem exec_vavgN (w : Wid3) (d a b : BitVec 5) (q : BitVec 3) (l m e : Bool) (s : State) :
    exec (.vavgN w d a b q l m e) s = execVavgN w d a b q l m e s := rfl
theorem exec_vshl (w : Wid3) (d a b : BitVec 5) (q : BitVec 3) (l m e x : Bool) (s : State) :
    exec (.vshl w d a b q l m e x) s = execVshl w d a b q l m e x s := rfl
theorem exec_vshrI (w : Wid3) (d a b : BitVec 5) (q : BitVec 3) (l m e : Bool) (s : State) :
    exec (.vshrI w d a b q l m e) s = execVshrI w d a b q l m e s := rfl
theorem exec_vshrN (w : Wid3) (d a b : BitVec 5) (q : BitVec 3) (l m e : Bool) (s : State) :
    exec (.vshrN w d a b q l m e) s = execVshrN w d a b q l m e s := rfl
theorem exec_vneg (w : Wid3) (d a : BitVec 5) (q : BitVec 3) (l e x : Bool) (s : State) :
    exec (.vneg w d a q l e x) s = execVneg w d a q l e x s := rfl
theorem exec_vabs (w : Wid3) (d a : BitVec 5) (q : BitVec 3) (l e x : Bool) (s : State) :
    exec (.vabs w d a q l e x) s = execVabs w d a q l e x s := rfl
theorem exec_vaddI64 (d a b : BitVec 5) (q : BitVec 3) (l m e x : Bool) (s : State) :
    exec (.vaddI64 d a b q l m e x) s = execVaddI64 d a b q l m e x s := rfl
theorem exec_vsubI64 (d a b : BitVec 5) (q : BitVec 3) (l m e x : Bool) (s : State) :
    exec (.vsubI64 d a b q l m e x) s = execVsubI64 d a b q l m e x s := rfl
theorem exec_vmulI64 (d a b : BitVec 5) (q : BitVec 3) (l m e x : Bool) (s : State) :
    exec (.vmulI64 d a b q l m e x) s = execVmulI64 d a b q l m e x s := rfl
theorem exec_vminI64 (d a b : BitVec 5) (q : BitVec 3) (l m e : Bool) (s : State) :
    exec (.vminI64 d a b q l m e) s = execVminI64 d a b q l m e s := rfl
theorem exec_vminN64 (d a b : BitVec 5) (q : BitVec 3) (l m e : Bool) (s : State) :
    exec (.vminN64 d a b q l m e) s = execVminN64 d a b q l m e s := rfl
theorem exec_vmaxI64 (d a b : BitVec 5) (q : BitVec 3) (l m e : Bool) (s : State) :
    exec (.vmaxI64 d a b q l m e) s = execVmaxI64 d a b q l m e s := rfl
theorem exec_vmaxN64 (d a b : BitVec 5) (q : BitVec 3) (l m e : Bool) (s : State) :
    exec (.vmaxN64 d a b q l m e) s = execVmaxN64 d a b q l m e s := rfl
theorem exec_vshlI64 (d a b : BitVec 5) (q : BitVec 3) (l m e x : Bool) (s : State) :
    exec (.vshlI64 d a b q l m e x) s = execVshlI64 d a b q l m e x s := rfl
theorem exec_vshrI64 (d a b : BitVec 5) (q : BitVec 3) (l m e : Bool) (s : State) :
    exec (.vshrI64 d a b q l m e) s = execVshrI64 d a b q l m e s := rfl
theorem exec_vshrN64 (d a b : BitVec 5) (q : BitVec 3) (l m e : Bool) (s : State) :
    exec (.vshrN64 d a b q l m e) s = execVshrN64 d a b q l m e s := rfl
theorem exec_vand (d a b : BitVec 5) (q : BitVec 3) (l m e : Bool) (s : State) :
    exec (.vand d a b q l m e) s = execVand d a b q l m e s := rfl
theorem exec_vor (d a b : BitVec 5) (q : BitVec 3) (l m e : Bool) (s : State) :
    exec (.vor d a b q l m e) s = execVor d a b q l m e s := rfl
theorem exec_vxor (d a b : BitVec 5) (q : BitVec 3) (l m e : Bool) (s : State) :
    exec (.vxor d a b q l m e) s = execVxor d a b q l m e s := rfl
theorem exec_vandn (d a b : BitVec 5) (q : BitVec 3) (l m e : Bool) (s : State) :
    exec (.vandn d a b q l m e) s = execVandn d a b q l m e s := rfl
theorem exec_vnot (d a : BitVec 5) (q : BitVec 3) (l e : Bool) (s : State) :
    exec (.vnot d a q l e) s = execVnot d a q l e s := rfl
theorem exec_vpopc (d a : BitVec 5) (q : BitVec 3) (l e : Bool) (s : State) :
    exec (.vpopc d a q l e) s = execVpopc d a q l e s := rfl
theorem exec_vaddi (w : Wid4) (d a : BitVec 5) (q : BitVec 3) (l : Bool) (imm : BitVec 8) (s : State) :
    exec (.vaddi w d a q l imm) s = execVaddi w d a q l imm s := rfl
theorem exec_vshli (w : Wid4) (d a : BitVec 5) (q : BitVec 3) (l : Bool) (imm : BitVec 8) (s : State) :
    exec (.vshli w d a q l imm) s = execVshli w d a q l imm s := rfl
theorem exec_vshriI (w : Wid4) (d a : BitVec 5) (q : BitVec 3) (l : Bool) (imm : BitVec 8) (s : State) :
    exec (.vshriI w d a q l imm) s = execVshriI w d a q l imm s := rfl
theorem exec_vshriN (w : Wid4) (d a : BitVec 5) (q : BitVec 3) (l : Bool) (imm : BitVec 8) (s : State) :
    exec (.vshriN w d a q l imm) s = execVshriN w d a q l imm s := rfl
theorem exec_vceq (w : Wid4) (d : PReg) (a b : BitVec 5) (q : BitVec 3) (l m e x : Bool) (s : State) :
    exec (.vceq w d a b q l m e x) s = execVceq w d a b q l m e x s := rfl
theorem exec_vcne (w : Wid4) (d : PReg) (a b : BitVec 5) (q : BitVec 3) (l m e x : Bool) (s : State) :
    exec (.vcne w d a b q l m e x) s = execVcne w d a b q l m e x s := rfl
theorem exec_vclt (w : Wid4) (d : PReg) (a b : BitVec 5) (q : BitVec 3) (l m e x : Bool) (s : State) :
    exec (.vclt w d a b q l m e x) s = execVclt w d a b q l m e x s := rfl
theorem exec_vcle (w : Wid4) (d : PReg) (a b : BitVec 5) (q : BitVec 3) (l m e x : Bool) (s : State) :
    exec (.vcle w d a b q l m e x) s = execVcle w d a b q l m e x s := rfl
theorem exec_vdot4I8 (d a b : BitVec 5) (q : BitVec 3) (l m e x : Bool) (s : State) :
    exec (.vdot4I8 d a b q l m e x) s = execVdot4I8 d a b q l m e x s := rfl
theorem exec_vdot4N8 (d a b : BitVec 5) (q : BitVec 3) (l m e x : Bool) (s : State) :
    exec (.vdot4N8 d a b q l m e x) s = execVdot4N8 d a b q l m e x s := rfl
theorem exec_vdot2I16 (d a b : BitVec 5) (q : BitVec 3) (l m e x : Bool) (s : State) :
    exec (.vdot2I16 d a b q l m e x) s = execVdot2I16 d a b q l m e x s := rfl
theorem exec_vdot2N16 (d a b : BitVec 5) (q : BitVec 3) (l m e x : Bool) (s : State) :
    exec (.vdot2N16 d a b q l m e x) s = execVdot2N16 d a b q l m e x s := rfl
theorem exec_vmadI16 (d a b : BitVec 5) (q : BitVec 3) (l m e x : Bool) (s : State) :
    exec (.vmadI16 d a b q l m e x) s = execVmadI16 d a b q l m e x s := rfl
theorem exec_vmadI32 (d a b : BitVec 5) (q : BitVec 3) (l m e x : Bool) (s : State) :
    exec (.vmadI32 d a b q l m e x) s = execVmadI32 d a b q l m e x s := rfl
theorem exec_vmadI64 (d a b : BitVec 5) (q : BitVec 3) (l m e x : Bool) (s : State) :
    exec (.vmadI64 d a b q l m e x) s = execVmadI64 d a b q l m e x s := rfl
theorem exec_vaddminI16 (d a b : BitVec 5) (q : BitVec 3) (l m e x : Bool) (s : State) :
    exec (.vaddminI16 d a b q l m e x) s = execVaddminI16 d a b q l m e x s := rfl
theorem exec_vaddmaxI16 (d a b : BitVec 5) (q : BitVec 3) (l m e x : Bool) (s : State) :
    exec (.vaddmaxI16 d a b q l m e x) s = execVaddmaxI16 d a b q l m e x s := rfl
theorem exec_vaddminI32 (d a b : BitVec 5) (q : BitVec 3) (l m e x : Bool) (s : State) :
    exec (.vaddminI32 d a b q l m e x) s = execVaddminI32 d a b q l m e x s := rfl
theorem exec_vaddmaxI32 (d a b : BitVec 5) (q : BitVec 3) (l m e x : Bool) (s : State) :
    exec (.vaddmaxI32 d a b q l m e x) s = execVaddmaxI32 d a b q l m e x s := rfl
theorem exec_vaddminF32 (d a b : BitVec 5) (q : BitVec 3) (l m e : Bool) (s : State) :
    exec (.vaddminF32 d a b q l m e) s = execVaddminF32 d a b q l m e s := rfl
theorem exec_vaddmaxF32 (d a b : BitVec 5) (q : BitVec 3) (l m e : Bool) (s : State) :
    exec (.vaddmaxF32 d a b q l m e) s = execVaddmaxF32 d a b q l m e s := rfl
theorem exec_vsel (d a b : BitVec 5) (q : BitVec 3) (l m e : Bool) (s : State) :
    exec (.vsel d a b q l m e) s = execVsel d a b q l m e s := rfl
theorem exec_vaddF32 (r : Rm) (d a b : BitVec 5) (q : BitVec 3) (l m e : Bool) (s : State) :
    exec (.vaddF32 r d a b q l m e) s = execVaddF32 r d a b q l m e s := rfl
theorem exec_vsubF32 (r : Rm) (d a b : BitVec 5) (q : BitVec 3) (l m e : Bool) (s : State) :
    exec (.vsubF32 r d a b q l m e) s = execVsubF32 r d a b q l m e s := rfl
theorem exec_vmulF32 (r : Rm) (d a b : BitVec 5) (q : BitVec 3) (l m e : Bool) (s : State) :
    exec (.vmulF32 r d a b q l m e) s = execVmulF32 r d a b q l m e s := rfl
theorem exec_vdivF32 (r : Rm) (d a b : BitVec 5) (q : BitVec 3) (l m e : Bool) (s : State) :
    exec (.vdivF32 r d a b q l m e) s = execVdivF32 r d a b q l m e s := rfl
theorem exec_vsqrtF32 (r : Rm) (d a : BitVec 5) (q : BitVec 3) (l e : Bool) (s : State) :
    exec (.vsqrtF32 r d a q l e) s = execVsqrtF32 r d a q l e s := rfl
theorem exec_vminF32 (d a b : BitVec 5) (q : BitVec 3) (l m e : Bool) (s : State) :
    exec (.vminF32 d a b q l m e) s = execVminF32 d a b q l m e s := rfl
theorem exec_vmaxF32 (d a b : BitVec 5) (q : BitVec 3) (l m e : Bool) (s : State) :
    exec (.vmaxF32 d a b q l m e) s = execVmaxF32 d a b q l m e s := rfl
theorem exec_vfcltF32 (d : PReg) (a b : BitVec 5) (q : BitVec 3) (l m e : Bool) (s : State) :
    exec (.vfcltF32 d a b q l m e) s = execVfcltF32 d a b q l m e s := rfl
theorem exec_vfcleF32 (d : PReg) (a b : BitVec 5) (q : BitVec 3) (l m e : Bool) (s : State) :
    exec (.vfcleF32 d a b q l m e) s = execVfcleF32 d a b q l m e s := rfl
theorem exec_vfceqF32 (d : PReg) (a b : BitVec 5) (q : BitVec 3) (l m e : Bool) (s : State) :
    exec (.vfceqF32 d a b q l m e) s = execVfceqF32 d a b q l m e s := rfl
theorem exec_vfmaF32 (r : Rm) (d a b : BitVec 5) (q : BitVec 3) (l m e x : Bool) (s : State) :
    exec (.vfmaF32 r d a b q l m e x) s = execVfmaF32 r d a b q l m e x s := rfl
theorem exec_vfmsF32 (r : Rm) (d a b : BitVec 5) (q : BitVec 3) (l m e x : Bool) (s : State) :
    exec (.vfmsF32 r d a b q l m e x) s = execVfmsF32 r d a b q l m e x s := rfl
theorem exec_vfmaw (r : Rm) (d a b : BitVec 5) (q : BitVec 3) (l m e x : Bool) (s : State) :
    exec (.vfmaw r d a b q l m e x) s = execVfmaw r d a b q l m e x s := rfl
theorem exec_vaddHalf (t : Half) (r : Rm) (d a b : BitVec 5) (q : BitVec 3) (l m e : Bool) (s : State) :
    exec (.vaddHalf t r d a b q l m e) s = execVaddHalf t r d a b q l m e s := rfl
theorem exec_vsubHalf (t : Half) (r : Rm) (d a b : BitVec 5) (q : BitVec 3) (l m e : Bool) (s : State) :
    exec (.vsubHalf t r d a b q l m e) s = execVsubHalf t r d a b q l m e s := rfl
theorem exec_vmulHalf (t : Half) (r : Rm) (d a b : BitVec 5) (q : BitVec 3) (l m e : Bool) (s : State) :
    exec (.vmulHalf t r d a b q l m e) s = execVmulHalf t r d a b q l m e s := rfl
theorem exec_vfmaHalf (t : Half) (r : Rm) (d a b : BitVec 5) (q : BitVec 3) (l m e : Bool) (s : State) :
    exec (.vfmaHalf t r d a b q l m e) s = execVfmaHalf t r d a b q l m e s := rfl
theorem exec_vfnmaHalf (t : Half) (r : Rm) (d a b : BitVec 5) (q : BitVec 3) (l m e : Bool) (s : State) :
    exec (.vfnmaHalf t r d a b q l m e) s = execVfnmaHalf t r d a b q l m e s := rfl
theorem exec_vminHalf (t : Half) (d a b : BitVec 5) (q : BitVec 3) (l m e : Bool) (s : State) :
    exec (.vminHalf t d a b q l m e) s = execVminHalf t d a b q l m e s := rfl
theorem exec_vmaxHalf (t : Half) (d a b : BitVec 5) (q : BitVec 3) (l m e : Bool) (s : State) :
    exec (.vmaxHalf t d a b q l m e) s = execVmaxHalf t d a b q l m e s := rfl
theorem exec_vfcltHalf (t : Half) (d : PReg) (a b : BitVec 5) (q : BitVec 3) (l m e : Bool) (s : State) :
    exec (.vfcltHalf t d a b q l m e) s = execVfcltHalf t d a b q l m e s := rfl
theorem exec_vfcleHalf (t : Half) (d : PReg) (a b : BitVec 5) (q : BitVec 3) (l m e : Bool) (s : State) :
    exec (.vfcleHalf t d a b q l m e) s = execVfcleHalf t d a b q l m e s := rfl
theorem exec_vfceqHalf (t : Half) (d : PReg) (a b : BitVec 5) (q : BitVec 3) (l m e : Bool) (s : State) :
    exec (.vfceqHalf t d a b q l m e) s = execVfceqHalf t d a b q l m e s := rfl
theorem exec_vcvt (t : NumTy) (d a : BitVec 5) (src : NumTy) (q : BitVec 3) (l : Bool) (r : Rm) (x : Bool) (s : State) :
    exec (.vcvt t d a src q l r x) s = execVcvt t d a src q l r x s := rfl
theorem exec_vqpack (r : Rm) (d a : BitVec 5) (p : PackForm) (q : BitVec 3) (l e x : Bool) (s : State) :
    exec (.vqpack r d a p q l e x) s = execVqpack r d a p q l e x s := rfl
theorem exec_vqunpack (r : Rm) (d a : BitVec 5) (p : PackForm) (q : BitVec 3) (l e x : Bool) (s : State) :
    exec (.vqunpack r d a p q l e x) s = execVqunpack r d a p q l e x s := rfl
theorem exec_vqscale (r : Rm) (d a b : BitVec 5) (q : BitVec 3) (l m e : Bool) (s : State) :
    exec (.vqscale r d a b q l m e) s = execVqscale r d a b q l m e s := rfl
theorem exec_vrcp (d a : BitVec 5) (q : BitVec 3) (l e : Bool) (s : State) :
    exec (.vrcp d a q l e) s = execVrcp d a q l e s := rfl
theorem exec_vrsqrt (d a : BitVec 5) (q : BitVec 3) (l e : Bool) (s : State) :
    exec (.vrsqrt d a q l e) s = execVrsqrt d a q l e s := rfl
theorem exec_vsqrtSfu (d a : BitVec 5) (q : BitVec 3) (l e : Bool) (s : State) :
    exec (.vsqrtSfu d a q l e) s = execVsqrtSfu d a q l e s := rfl
theorem exec_vexp2 (d a : BitVec 5) (q : BitVec 3) (l e : Bool) (s : State) :
    exec (.vexp2 d a q l e) s = execVexp2 d a q l e s := rfl
theorem exec_vlog2 (d a : BitVec 5) (q : BitVec 3) (l e : Bool) (s : State) :
    exec (.vlog2 d a q l e) s = execVlog2 d a q l e s := rfl
theorem exec_vsin (d a : BitVec 5) (q : BitVec 3) (l e : Bool) (s : State) :
    exec (.vsin d a q l e) s = execVsin d a q l e s := rfl
theorem exec_vcos (d a : BitVec 5) (q : BitVec 3) (l e : Bool) (s : State) :
    exec (.vcos d a q l e) s = execVcos d a q l e s := rfl
theorem exec_vtanh (d a : BitVec 5) (q : BitVec 3) (l e : Bool) (s : State) :
    exec (.vtanh d a q l e) s = execVtanh d a q l e s := rfl
theorem exec_vsigm (d a : BitVec 5) (q : BitVec 3) (l e : Bool) (s : State) :
    exec (.vsigm d a q l e) s = execVsigm d a q l e s := rfl
theorem exec_verf (d a : BitVec 5) (q : BitVec 3) (l e : Bool) (s : State) :
    exec (.verf d a q l e) s = execVerf d a q l e s := rfl
theorem exec_vcmulF32 (d a b : BitVec 5) (q : BitVec 3) (l m e : Bool) (s : State) :
    exec (.vcmulF32 d a b q l m e) s = execVcmulF32 d a b q l m e s := rfl
theorem exec_vcmulcF32 (d a b : BitVec 5) (q : BitVec 3) (l m e : Bool) (s : State) :
    exec (.vcmulcF32 d a b q l m e) s = execVcmulcF32 d a b q l m e s := rfl
theorem exec_vcmulBf16 (d a b : BitVec 5) (q : BitVec 3) (l m e : Bool) (s : State) :
    exec (.vcmulBf16 d a b q l m e) s = execVcmulBf16 d a b q l m e s := rfl
theorem exec_vbflyF32 (d a b : BitVec 5) (q : BitVec 3) (l m e : Bool) (s : State) :
    exec (.vbflyF32 d a b q l m e) s = execVbflyF32 d a b q l m e s := rfl
theorem exec_vbflyBf16 (d a b : BitVec 5) (q : BitVec 3) (l m e : Bool) (s : State) :
    exec (.vbflyBf16 d a b q l m e) s = execVbflyBf16 d a b q l m e s := rfl
theorem exec_vlread (d a b : BitVec 5) (q : BitVec 3) (l m e : Bool) (s : State) :
    exec (.vlread d a b q l m e) s = execVlread d a b q l m e s := rfl
theorem exec_vshlx (d a b : BitVec 5) (q : BitVec 3) (l m e : Bool) (s : State) :
    exec (.vshlx d a b q l m e) s = execVshlx d a b q l m e s := rfl
theorem exec_vshrx (d a b : BitVec 5) (q : BitVec 3) (l m e : Bool) (s : State) :
    exec (.vshrx d a b q l m e) s = execVshrx d a b q l m e s := rfl
theorem exec_vshly (d a b : BitVec 5) (q : BitVec 3) (l m e : Bool) (s : State) :
    exec (.vshly d a b q l m e) s = execVshly d a b q l m e s := rfl
theorem exec_vshry (d a b : BitVec 5) (q : BitVec 3) (l m e : Bool) (s : State) :
    exec (.vshry d a b q l m e) s = execVshry d a b q l m e s := rfl
theorem exec_vsubsel (d a b : BitVec 5) (q : BitVec 3) (l m e : Bool) (s : State) :
    exec (.vsubsel d a b q l m e) s = execVsubsel d a b q l m e s := rfl
theorem exec_vrotx (d a b : BitVec 5) (q : BitVec 3) (l m e : Bool) (s : State) :
    exec (.vrotx d a b q l m e) s = execVrotx d a b q l m e s := rfl
theorem exec_vmatch (d a : BitVec 5) (k : KeyTy) (q : BitVec 3) (l e : Bool) (s : State) :
    exec (.vmatch d a k q l e) s = execVmatch d a k q l e s := rfl
theorem exec_vballot (d : BitVec 5) (a : PReg) (q : BitVec 3) (s : State) :
    exec (.vballot d a q) s = execVballot d a q s := rfl
theorem exec_vredaddI64 (d a : BitVec 5) (q : BitVec 3) (l e : Bool) (s : State) :
    exec (.vredaddI64 d a q l e) s = execVredaddI64 d a q l e s := rfl
theorem exec_vredaddF32 (d a : BitVec 5) (q : BitVec 3) (l e : Bool) (s : State) :
    exec (.vredaddF32 d a q l e) s = execVredaddF32 d a q l e s := rfl
theorem exec_vredminI64 (d a : BitVec 5) (q : BitVec 3) (l e : Bool) (s : State) :
    exec (.vredminI64 d a q l e) s = execVredminI64 d a q l e s := rfl
theorem exec_vredmaxI64 (d a : BitVec 5) (q : BitVec 3) (l e : Bool) (s : State) :
    exec (.vredmaxI64 d a q l e) s = execVredmaxI64 d a q l e s := rfl
theorem exec_vredminF32 (d a : BitVec 5) (q : BitVec 3) (l e : Bool) (s : State) :
    exec (.vredminF32 d a q l e) s = execVredminF32 d a q l e s := rfl
theorem exec_vredmaxF32 (d a : BitVec 5) (q : BitVec 3) (l e : Bool) (s : State) :
    exec (.vredmaxF32 d a q l e) s = execVredmaxF32 d a q l e s := rfl
theorem exec_vscanaddI64 (d a : BitVec 5) (q : BitVec 3) (l e : Bool) (s : State) :
    exec (.vscanaddI64 d a q l e) s = execVscanaddI64 d a q l e s := rfl
theorem exec_vscanaddF32 (d a : BitVec 5) (q : BitVec 3) (l e : Bool) (s : State) :
    exec (.vscanaddF32 d a q l e) s = execVscanaddF32 d a q l e s := rfl
theorem exec_vscanmaxI64 (d a : BitVec 5) (q : BitVec 3) (l e : Bool) (s : State) :
    exec (.vscanmaxI64 d a q l e) s = execVscanmaxI64 d a q l e s := rfl
theorem exec_vpcount (d : BitVec 5) (a : PReg) (q : BitVec 3) (s : State) :
    exec (.vpcount d a q) s = execVpcount d a q s := rfl
theorem exec_vmov (d a : BitVec 5) (q : BitVec 3) (l e : Bool) (s : State) :
    exec (.vmov d a q l e) s = execVmov d a q l e s := rfl
theorem exec_vbcast (d a : BitVec 5) (q : BitVec 3) (l e : Bool) (s : State) :
    exec (.vbcast d a q l e) s = execVbcast d a q l e s := rfl
theorem exec_vextr (d a b : BitVec 5) (l m e : Bool) (s : State) :
    exec (.vextr d a b l m e) s = execVextr d a b l m e s := rfl
theorem exec_vmovi (d : BitVec 5) (q : BitVec 3) (imm : BitVec 8) (s : State) :
    exec (.vmovi d q imm) s = execVmovi d q imm s := rfl
theorem exec_pld (d : BitVec 5) (h j : BitVec 3) (z : BitVec 7) (q : BitVec 3) (l : Bool) (s : State) :
    exec (.pld d h j z q l) s = execPld d h j z q l s := rfl
theorem exec_pst (d : BitVec 5) (z : BitVec 7) (q : BitVec 3) (l : Bool) (s : State) :
    exec (.pst d z q l) s = execPst d z q l s := rfl
theorem exec_pwinSumI32 (d : BitVec 5) (k : BitVec 3) (z : BitVec 7) (q : BitVec 3) (l : Bool) (s : State) :
    exec (.pwinSumI32 d k z q l) s = execPwinSumI32 d k z q l s := rfl
theorem exec_pwinSumF32 (d : BitVec 5) (k : BitVec 3) (z : BitVec 7) (q : BitVec 3) (l : Bool) (s : State) :
    exec (.pwinSumF32 d k z q l) s = execPwinSumF32 d k z q l s := rfl
theorem exec_pwinMaxI32 (d : BitVec 5) (k : BitVec 3) (z : BitVec 7) (q : BitVec 3) (l : Bool) (s : State) :
    exec (.pwinMaxI32 d k z q l) s = execPwinMaxI32 d k z q l s := rfl
theorem exec_pwinMaxF32 (d : BitVec 5) (k : BitVec 3) (z : BitVec 7) (q : BitVec 3) (l : Bool) (s : State) :
    exec (.pwinMaxF32 d k z q l) s = execPwinMaxF32 d k z q l s := rfl
theorem exec_pwinMinI32 (d : BitVec 5) (k : BitVec 3) (z : BitVec 7) (q : BitVec 3) (l : Bool) (s : State) :
    exec (.pwinMinI32 d k z q l) s = execPwinMinI32 d k z q l s := rfl
theorem exec_pwinMinF32 (d : BitVec 5) (k : BitVec 3) (z : BitVec 7) (q : BitVec 3) (l : Bool) (s : State) :
    exec (.pwinMinF32 d k z q l) s = execPwinMinF32 d k z q l s := rfl
theorem exec_scroll (h : BitVec 5) (d : BitVec 4) (r : Dir) (e : Edge) (src : BitVec 5) (s : State) :
    exec (.scroll h d r e src) s = execScroll h d r e src s := rfl
theorem exec_scrollResume (h : BitVec 5) (d : BitVec 4) (r : Dir) (e : Edge) (src : BitVec 5) (s : State) :
    exec (.scrollResume h d r e src) s = execScrollResume h d r e src s := rfl
theorem exec_pzero (a : BitVec 5) (l e : Bool) (s : State) :
    exec (.pzero a l e) s = execPzero a l e s := rfl
theorem exec_pfill (a b : BitVec 5) (l m e : Bool) (s : State) :
    exec (.pfill a b l m e) s = execPfill a b l m e s := rfl
theorem exec_pcopy (a b : BitVec 5) (l m e : Bool) (s : State) :
    exec (.pcopy a b l m e) s = execPcopy a b l m e s := rfl
theorem exec_phnd (d a b : BitVec 5) (l m e : Bool) (s : State) :
    exec (.phnd d a b l m e) s = execPhnd d a b l m e s := rfl
theorem exec_pclip (d a b : BitVec 5) (l m e : Bool) (s : State) :
    exec (.pclip d a b l m e) s = execPclip d a b l m e s := rfl
theorem exec_vgather (k : Bool) (w : Wid4) (d b imm : BitVec 5) (q : BitVec 3) (l v : Bool) (src : Sc) (s : State) :
    exec (.vgather k w d b imm q l v src) s = execVgather k w d b imm q l v src s := rfl
theorem exec_vscatter (k : Bool) (w : Wid4) (d b imm : BitVec 5) (q : BitVec 3) (l v : Bool) (src : Sc) (s : State) :
    exec (.vscatter k w d b imm q l v src) s = execVscatter k w d b imm q l v src s := rfl
theorem exec_ld (k : Bool) (w : Wid4) (d b imm : BitVec 5) (l v : Bool) (src : Sc) (s : State) :
    exec (.ld k w d b imm l v src) s = execLd k w d b imm l v src s := rfl
theorem exec_st (k : Bool) (w : Wid4) (d b imm : BitVec 5) (l v : Bool) (src : Sc) (s : State) :
    exec (.st k w d b imm l v src) s = execSt k w d b imm l v src s := rfl
theorem exec_tld (d b imm : BitVec 5) (v : Bool) (src : Sc) (s : State) :
    exec (.tld d b imm v src) s = execTld d b imm v src s := rfl
theorem exec_tst (d b imm : BitVec 5) (l v : Bool) (src : Sc) (s : State) :
    exec (.tst d b imm l v src) s = execTst d b imm l v src s := rfl
theorem exec_lflush (b : BitVec 5) (s : State) :
    exec (.lflush b) s = execLflush b s := rfl
theorem exec_aadd (d b imm : BitVec 5) (l v : Bool) (src : Sc) (s : State) :
    exec (.aadd d b imm l v src) s = execAadd d b imm l v src s := rfl
theorem exec_aand (d b imm : BitVec 5) (l v : Bool) (src : Sc) (s : State) :
    exec (.aand d b imm l v src) s = execAand d b imm l v src s := rfl
theorem exec_aor (d b imm : BitVec 5) (l v : Bool) (src : Sc) (s : State) :
    exec (.aor d b imm l v src) s = execAor d b imm l v src s := rfl
theorem exec_axor (d b imm : BitVec 5) (l v : Bool) (src : Sc) (s : State) :
    exec (.axor d b imm l v src) s = execAxor d b imm l v src s := rfl
theorem exec_aminI (d b imm : BitVec 5) (l v : Bool) (src : Sc) (s : State) :
    exec (.aminI d b imm l v src) s = execAminI d b imm l v src s := rfl
theorem exec_aminN (d b imm : BitVec 5) (l v : Bool) (src : Sc) (s : State) :
    exec (.aminN d b imm l v src) s = execAminN d b imm l v src s := rfl
theorem exec_amaxI (d b imm : BitVec 5) (l v : Bool) (src : Sc) (s : State) :
    exec (.amaxI d b imm l v src) s = execAmaxI d b imm l v src s := rfl
theorem exec_amaxN (d b imm : BitVec 5) (l v : Bool) (src : Sc) (s : State) :
    exec (.amaxN d b imm l v src) s = execAmaxN d b imm l v src s := rfl
theorem exec_aswap (d b imm : BitVec 5) (l v : Bool) (src : Sc) (s : State) :
    exec (.aswap d b imm l v src) s = execAswap d b imm l v src s := rfl
theorem exec_acas (d b imm : BitVec 5) (l v : Bool) (src : Sc) (s : State) :
    exec (.acas d b imm l v src) s = execAcas d b imm l v src s := rfl
theorem exec_aaddf (d b imm : BitVec 5) (v : Bool) (src : Sc) (s : State) :
    exec (.aaddf d b imm v src) s = execAaddf d b imm v src s := rfl
theorem exec_lds (k : Bool) (w : Wid4) (d b imm : BitVec 5) (q : BitVec 3) (l : Bool) (s : State) :
    exec (.lds k w d b imm q l) s = execLds k w d b imm q l s := rfl
theorem exec_sts (k : Bool) (w : Wid4) (d b imm : BitVec 5) (q : BitVec 3) (l : Bool) (s : State) :
    exec (.sts k w d b imm q l) s = execSts k w d b imm q l s := rfl
theorem exec_pfc (b imm : BitVec 5) (s : State) :
    exec (.pfc b imm) s = execPfc b imm s := rfl
theorem exec_pfd (b imm : BitVec 5) (s : State) :
    exec (.pfd b imm) s = execPfd b imm s := rfl
theorem exec_cwb (b imm : BitVec 5) (s : State) :
    exec (.cwb b imm) s = execCwb b imm s := rfl
theorem exec_cinv (b imm : BitVec 5) (s : State) :
    exec (.cinv b imm) s = execCinv b imm s := rfl
theorem exec_cwbinv (b imm : BitVec 5) (s : State) :
    exec (.cwbinv b imm) s = execCwbinv b imm s := rfl
theorem exec_cpyGp (a : BitVec 5) (t : BitVec 6) (c : BitVec 5) (s : State) :
    exec (.cpyGp a t c) s = execCpyGp a t c s := rfl
theorem exec_cpyPg (a : BitVec 5) (t : BitVec 6) (c : BitVec 5) (s : State) :
    exec (.cpyPg a t c) s = execCpyPg a t c s := rfl
theorem exec_cpyPp (a : BitVec 5) (t : BitVec 6) (c : BitVec 5) (s : State) :
    exec (.cpyPp a t c) s = execCpyPp a t c s := rfl
theorem exec_cpyGg (a : BitVec 5) (t : BitVec 6) (c : BitVec 5) (s : State) :
    exec (.cpyGg a t c) s = execCpyGg a t c s := rfl
theorem exec_waitAny (d a : BitVec 5) (s : State) :
    exec (.waitAny d a) s = execWaitAny d a s := rfl
theorem exec_waitAll (d a : BitVec 5) (s : State) :
    exec (.waitAll d a) s = execWaitAll d a s := rfl
theorem exec_tagfind (d a : BitVec 5) (s : State) :
    exec (.tagfind d a) s = execTagfind d a s := rfl
theorem exec_tagclr (a : BitVec 5) (s : State) :
    exec (.tagclr a) s = execTagclr a s := rfl
theorem exec_nmv (a : BitVec 5) (t : BitVec 6) (c : BitVec 5) (s : State) :
    exec (.nmv a t c) s = execNmv a t c s := rfl
theorem exec_nmrd (a : BitVec 5) (t : BitVec 6) (c : BitVec 5) (s : State) :
    exec (.nmrd a t c) s = execNmrd a t c s := rfl
theorem exec_nmwr (a : BitVec 5) (t : BitVec 6) (c : BitVec 5) (s : State) :
    exec (.nmwr a t c) s = execNmwr a t c s := rfl
theorem exec_nmwrm (a : BitVec 5) (t : BitVec 6) (c : BitVec 5) (s : State) :
    exec (.nmwrm a t c) s = execNmwrm a t c s := rfl
theorem exec_mma (a : BitVec 5) (src : BitVec 4) (m : MSel) (n : BitVec 6) (q : BitVec 3) (r c : Bool) (s : State) :
    exec (.mma a src m n q r c) s = execMma a src m n q r c s := rfl
theorem exec_accz (src n : BitVec 4) (q : BitVec 3) (s : State) :
    exec (.accz src n q) s = execAccz src n q s := rfl
theorem exec_accld (h : BitVec 5) (src n : BitVec 4) (c : BitVec 3) (r : Rm) (q : BitVec 3) (s : State) :
    exec (.accld h src n c r q) s = execAccld h src n c r q s := rfl
theorem exec_accrd (h : BitVec 5) (src n : BitVec 4) (c : BitVec 3) (r : Rm) (q : BitVec 3) (s : State) :
    exec (.accrd h src n c r q) s = execAccrd h src n c r q s := rfl
theorem exec_mfence (s : State) :
    exec (.mfence) s = execMfence s := rfl
theorem exec_mwait (src : BitVec 4) (s : State) :
    exec (.mwait src) s = execMwait src s := rfl
theorem exec_bar (l : BitVec 3) (s : State) :
    exec (.bar l) s = execBar l s := rfl
theorem exec_barArrive (l : BitVec 3) (s : State) :
    exec (.barArrive l) s = execBarArrive l s := rfl
theorem exec_barWait (l : BitVec 3) (s : State) :
    exec (.barWait l) s = execBarWait l s := rfl
theorem exec_fence (src : Scope) (k : FenceKind) (s : State) :
    exec (.fence src k) s = execFence src k s := rfl
theorem exec_ringWait (g : BitVec 4) (src : BitVec 3) (p : Bool) (s : State) :
    exec (.ringWait g src p) s = execRingWait g src p s := rfl
theorem exec_ringSig (g : BitVec 4) (src : BitVec 3) (s : State) :
    exec (.ringSig g src) s = execRingSig g src s := rfl
theorem exec_ringTest (d : BitVec 5) (g : BitVec 4) (src : BitVec 3) (p : Bool) (s : State) :
    exec (.ringTest d g src p) s = execRingTest d g src p s := rfl
theorem exec_send (a e : BitVec 5) (l : Bool) (s : State) :
    exec (.send a e l) s = execSend a e l s := rfl
theorem exec_recv (d e : BitVec 5) (s : State) :
    exec (.recv d e) s = execRecv d e s := rfl
theorem exec_trysend (d a e : BitVec 5) (l : Bool) (s : State) :
    exec (.trysend d a e l) s = execTrysend d a e l s := rfl
theorem exec_chstat (d e : BitVec 5) (s : State) :
    exec (.chstat d e) s = execChstat d e s := rfl
theorem exec_acqW (a : BitVec 5) (k : AcqKind) (s : State) :
    exec (.acqW a k) s = execAcqW a k s := rfl
theorem exec_acqF (d a : BitVec 5) (k : AcqKind) (s : State) :
    exec (.acqF d a k) s = execAcqF d a k s := rfl
theorem exec_rel (a : BitVec 5) (k : AcqKind) (s : State) :
    exec (.rel a k) s = execRel a k s := rfl
theorem exec_setperf (a : BitVec 5) (s : State) :
    exec (.setperf a) s = execSetperf a s := rfl
theorem exec_setperfV (a : BitVec 5) (s : State) :
    exec (.setperfV a) s = execSetperfV a s := rfl
theorem exec_pdrop (a : BitVec 5) (s : State) :
    exec (.pdrop a) s = execPdrop a s := rfl
theorem exec_ctxrd (d a b : BitVec 5) (s : State) :
    exec (.ctxrd d a b) s = execCtxrd d a b s := rfl
theorem exec_ctxwr (d a b : BitVec 5) (s : State) :
    exec (.ctxwr d a b) s = execCtxwr d a b s := rfl
theorem exec_idem (s : State) :
    exec (.idem) s = execIdem s := rfl
theorem exec_idemEnd (s : State) :
    exec (.idemEnd) s = execIdemEnd s := rfl
theorem exec_tret (a b : BitVec 5) (s : State) :
    exec (.tret a b) s = execTret a b s := rfl
theorem exec_vkill (d a : BitVec 5) (s : State) :
    exec (.vkill d a) s = execVkill d a s := rfl
theorem exec_skill (d a : BitVec 5) (s : State) :
    exec (.skill d a) s = execSkill d a s := rfl
theorem exec_sret (d a b : BitVec 5) (s : State) :
    exec (.sret d a b) s = execSret d a b s := rfl
theorem exec_grpsusp (d a : BitVec 5) (s : State) :
    exec (.grpsusp d a) s = execGrpsusp d a s := rfl
theorem exec_grpres (d a : BitVec 5) (s : State) :
    exec (.grpres d a) s = execGrpres d a s := rfl
theorem exec_asgen (d a b : BitVec 5) (s : State) :
    exec (.asgen d a b) s = execAsgen d a b s := rfl
theorem exec_rpt (n : BitVec 6) (d a b : Bool) (src : BitVec 2) (s : State) :
    exec (.rpt n d a b src) s = execRpt n d a b src s := rfl
theorem exec_wide (p : BitVec 24) (s : State) :
    exec (.wide p) s = execWide p s := rfl
theorem exec_mod (src : ModScope) (o : ModOrder) (c : ModCache) (t : Bool) (s : State) :
    exec (.mod src o c t) s = execMod src o c t s := rfl
theorem exec_sched (y : Bool) (p : BitVec 2) (src : BitVec 16) (s : State) :
    exec (.sched y p src) s = execSched y p src s := rfl
theorem exec_doorbellWrite (q : Nat) (tail : BitVec 32) (s : State) :
    exec (.doorbellWrite q tail) s = execDoorbellWrite q tail s := rfl
theorem exec_qerrClear (m : Nat) (bits : BitVec 64) (s : State) :
    exec (.qerrClear m bits) s = execQerrClear m bits s := rfl
theorem exec_nothingEntry (q : Nat) (s : State) :
    exec (.nothingEntry q) s = execNothingEntry q s := rfl
theorem exec_launchEntry (q : Nat) (s : State) :
    exec (.launchEntry q) s = execLaunchEntry q s := rfl
theorem exec_waitEntry (q : Nat) (s : State) :
    exec (.waitEntry q) s = execWaitEntry q s := rfl
theorem exec_waitEntryPoll (q : Nat) (s : State) :
    exec (.waitEntryPoll q) s = execWaitEntryPoll q s := rfl
theorem exec_signalEntry (q : Nat) (s : State) :
    exec (.signalEntry q) s = execSignalEntry q s := rfl
theorem exec_endEntry (q : Nat) (s : State) :
    exec (.endEntry q) s = execEndEntry q s := rfl
theorem exec_cplheadPoll (q : Nat) (s : State) :
    exec (.cplheadPoll q) s = execCplheadPoll q s := rfl
theorem exec_priorityAging (q : Nat) (s : State) :
    exec (.priorityAging q) s = execPriorityAging q s := rfl
theorem exec_unitAdmission (grid : Nat) (s : State) :
    exec (.unitAdmission grid) s = execUnitAdmission grid s := rfl
theorem exec_unitReservation (grid : Nat) (s : State) :
    exec (.unitReservation grid) s = execUnitReservation grid s := rfl
theorem exec_teamStart (dist : Nat) (s : State) :
    exec (.teamStart dist) s = execTeamStart dist s := rfl
theorem exec_groupStart (team : Nat) (s : State) :
    exec (.groupStart team) s = execGroupStart team s := rfl
theorem exec_arrivalLaunch (core ep : Nat) (s : State) :
    exec (.arrivalLaunch core ep) s = execArrivalLaunch core ep s := rfl
theorem exec_groupActivation (core : Nat) (s : State) :
    exec (.groupActivation core) s = execGroupActivation core s := rfl
theorem exec_demotion (core : Nat) (s : State) :
    exec (.demotion core) s = execDemotion core s := rfl
theorem exec_schedulerSwap (core : Nat) (s : State) :
    exec (.schedulerSwap core) s = execSchedulerSwap core s := rfl
theorem exec_registerFill (group : Nat) (s : State) :
    exec (.registerFill group) s = execRegisterFill group s := rfl
theorem exec_loadReply (group idx part : Nat) (reply : Reply) (s : State) :
    exec (.loadReply group idx part reply) s = execLoadReply group idx part reply s := rfl
theorem exec_sfuResult (core idx : Nat) (s : State) :
    exec (.sfuResult core idx) s = execSfuResult core idx s := rfl
theorem exec_bankWake (core : Nat) (plane : Bool) (bank : Nat) (s : State) :
    exec (.bankWake core plane bank) s = execBankWake core plane bank s := rfl
theorem exec_bankRetention (core : Nat) (plane : Bool) (bank : Nat) (s : State) :
    exec (.bankRetention core plane bank) s = execBankRetention core plane bank s := rfl
theorem exec_storeDrain (group idx : Nat) (s : State) :
    exec (.storeDrain group idx) s = execStoreDrain group idx s := rfl
theorem exec_storePush (view : ViewId) (idx : Nat) (s : State) :
    exec (.storePush view idx) s = execStorePush view idx s := rfl
theorem exec_viewRefresh (view : ViewId) (addr : Nat) (s : State) :
    exec (.viewRefresh view addr) s = execViewRefresh view addr s := rfl
theorem exec_syncSignal (idx : Nat) (s : State) :
    exec (.syncSignal idx) s = execSyncSignal idx s := rfl
theorem exec_barrierReleaseInjection (idx : Nat) (s : State) :
    exec (.barrierReleaseInjection idx) s = execBarrierReleaseInjection idx s := rfl
theorem exec_channelOfferArrival (idx : Nat) (s : State) :
    exec (.channelOfferArrival idx) s = execChannelOfferArrival idx s := rfl
theorem exec_scrollExecute (core : Nat) (s : State) :
    exec (.scrollExecute core) s = execScrollExecute core s := rfl
theorem exec_copyCommandStart (core : Nat) (spot : Spot) (s : State) :
    exec (.copyCommandStart core spot) s = execCopyCommandStart core spot s := rfl
theorem exec_copyCommandComplete (core : Nat) (spot : Spot) (s : State) :
    exec (.copyCommandComplete core spot) s = execCopyCommandComplete core spot s := rfl
theorem exec_rawPacketComplete (core : Nat) (spot : Spot) (s : State) :
    exec (.rawPacketComplete core spot) s = execRawPacketComplete core spot s := rfl
theorem exec_matrixBegin (what : EngineStep) (s : State) :
    exec (.matrixBegin what) s = execMatrixBegin what s := rfl
theorem exec_matrixComplete (core : Nat) (spot : Spot) (s : State) :
    exec (.matrixComplete core spot) s = execMatrixComplete core spot s := rfl
theorem exec_slewWindowStart (core : Nat) (s : State) :
    exec (.slewWindowStart core) s = execSlewWindowStart core s := rfl
theorem exec_granuleSlot (core : Nat) (s : State) :
    exec (.granuleSlot core) s = execGranuleSlot core s := rfl
theorem exec_perfMoveComplete (cluster : Nat) (s : State) :
    exec (.perfMoveComplete cluster) s = execPerfMoveComplete cluster s := rfl
theorem exec_dwellBoundary (s : State) :
    exec (.dwellBoundary) s = execDwellBoundary s := rfl
theorem exec_mmcCapChange (cluster : Nat) (code : BitVec 4) (s : State) :
    exec (.mmcCapChange cluster code) s = execMmcCapChange cluster code s := rfl
theorem exec_perfcapWrite (v : BitVec 64) (s : State) :
    exec (.perfcapWrite v) s = execPerfcapWrite v s := rfl
theorem exec_slewctlWrite (v : BitVec 64) (s : State) :
    exec (.slewctlWrite v) s = execSlewctlWrite v s := rfl
theorem exec_barstagWrite (v : BitVec 64) (s : State) :
    exec (.barstagWrite v) s = execBarstagWrite v s := rfl
theorem exec_seedWrite (group : Nat) (v : BitVec 64) (s : State) :
    exec (.seedWrite group v) s = execSeedWrite group v s := rfl
theorem exec_preemptPreempt (save : BitVec 64) (s : State) :
    exec (.preemptPreempt save) s = execPreemptPreempt save s := rfl
theorem exec_preemptSaveComplete (team : Nat) (s : State) :
    exec (.preemptSaveComplete team) s = execPreemptSaveComplete team s := rfl
theorem exec_preemptRestart (save : BitVec 64) (s : State) :
    exec (.preemptRestart save) s = execPreemptRestart save s := rfl
theorem exec_savedTeamReadmission (team : Nat) (s : State) :
    exec (.savedTeamReadmission team) s = execSavedTeamReadmission team s := rfl
theorem exec_watchdogExpiry (group : Nat) (s : State) :
    exec (.watchdogExpiry group) s = execWatchdogExpiry group s := rfl
theorem exec_deferredTrap (group : Nat) (s : State) :
    exec (.deferredTrap group) s = execDeferredTrap group s := rfl
theorem exec_handlerStart (team : Nat) (s : State) :
    exec (.handlerStart team) s = execHandlerStart team s := rfl
theorem exec_systemEventPost (s : State) :
    exec (.systemEventPost) s = execSystemEventPost s := rfl
theorem exec_sysevptrWrite (v : BitVec 64) (s : State) :
    exec (.sysevptrWrite v) s = execSysevptrWrite v s := rfl
theorem exec_groupRetire (group : Nat) (s : State) :
    exec (.groupRetire group) s = execGroupRetire group s := rfl
theorem exec_gridEnd (grid : Nat) (s : State) :
    exec (.gridEnd grid) s = execGridEnd grid s := rfl
theorem exec_rebuildComplete (die : Nat) (s : State) :
    exec (.rebuildComplete die) s = execRebuildComplete die s := rfl
theorem exec_classifierEntryExpiry (die idx : Nat) (s : State) :
    exec (.classifierEntryExpiry die idx) s = execClassifierEntryExpiry die idx s := rfl
theorem exec_arrayRepair (die idx : Nat) (s : State) :
    exec (.arrayRepair die idx) s = execArrayRepair die idx s := rfl
theorem exec_scrubRead (idx : Nat) (s : State) :
    exec (.scrubRead idx) s = execScrubRead idx s := rfl
theorem exec_rotatingRowCheck (core row : Nat) (s : State) :
    exec (.rotatingRowCheck core row) s = execRotatingRowCheck core row s := rfl
theorem exec_hbmPatrolScrub (addr : Nat) (s : State) :
    exec (.hbmPatrolScrub addr) s = execHbmPatrolScrub addr s := rfl
theorem exec_timingReplay (at_ : CoreStage) (s : State) :
    exec (.timingReplay at_) s = execTimingReplay at_ s := rfl
theorem exec_linkFlitReplay (link : Nat) (s : State) :
    exec (.linkFlitReplay link) s = execLinkFlitReplay link s := rfl
theorem exec_fabricWireRepair (link : Nat) (s : State) :
    exec (.fabricWireRepair link) s = execFabricWireRepair link s := rfl
theorem exec_rasstatWrite (core : Nat) (v : BitVec 64) (s : State) :
    exec (.rasstatWrite core v) s = execRasstatWrite core v s := rfl
theorem exec_portFailover (port : Nat) (lane : BitVec 3) (s : State) :
    exec (.portFailover port lane) s = execPortFailover port lane s := rfl
theorem exec_portFailoverComplete (port : Nat) (s : State) :
    exec (.portFailoverComplete port) s = execPortFailoverComplete port s := rfl
theorem exec_portRetrain (port : Nat) (s : State) :
    exec (.portRetrain port) s = execPortRetrain port s := rfl
theorem exec_portRetrainEnd (port : Nat) (ok : Bool) (spare : Option (BitVec 3)) (s : State) :
    exec (.portRetrainEnd port ok spare) s = execPortRetrainEnd port ok spare s := rfl
theorem exec_lossOfSignal (port : Nat) (s : State) :
    exec (.lossOfSignal port) s = execLossOfSignal port s := rfl
theorem exec_portstatWrite (v : BitVec 64) (s : State) :
    exec (.portstatWrite v) s = execPortstatWrite v s := rfl
theorem exec_remoteAccessTimeout (group idx part : Nat) (s : State) :
    exec (.remoteAccessTimeout group idx part) s = execRemoteAccessTimeout group idx part s := rfl
theorem exec_hostRequestCompletion (group idx part : Nat) (reply : Reply) (s : State) :
    exec (.hostRequestCompletion group idx part reply) s = execHostRequestCompletion group idx part reply s := rfl
theorem exec_inboundPeerAccess (port : Nat) (addr : BitVec 44) (req : PeerReq) (s : State) :
    exec (.inboundPeerAccess port addr req) s = execInboundPeerAccess port addr req s := rfl
theorem exec_bar2HostAccess (spot : HostSpot) (req : HostReq) (s : State) :
    exec (.bar2HostAccess spot req) s = execBar2HostAccess spot req s := rfl
theorem exec_bar2mapWrite (v : BitVec 64) (s : State) :
    exec (.bar2mapWrite v) s = execBar2mapWrite v s := rfl
theorem exec_peerwinWrite (v : BitVec 64) (s : State) :
    exec (.peerwinWrite v) s = execPeerwinWrite v s := rfl
theorem exec_functionLevelReset (s : State) :
    exec (.functionLevelReset) s = execFunctionLevelReset s := rfl
theorem exec_moduleReset (s : State) :
    exec (.moduleReset) s = execModuleReset s := rfl
theorem exec_attestationRequest (nonce : BitVec 512) (s : State) :
    exec (.attestationRequest nonce) s = execAttestationRequest nonce s := rfl
theorem exec_attestationReport (s : State) :
    exec (.attestationReport) s = execAttestationReport s := rfl
theorem exec_firmwareImageLoad (digest : BitVec 512) (version : BitVec 32) (image : Image) (s : State) :
    exec (.firmwareImageLoad digest version image) s = execFirmwareImageLoad digest version image s := rfl
theorem exec_registerWrite (core : Nat) (num : BitVec 11) (v : BitVec 64) (s : State) :
    exec (.registerWrite core num v) s = execRegisterWrite core num v s := rfl
theorem exec_clearingComplete (core : Nat) (s : State) :
    exec (.clearingComplete core) s = execClearingComplete core s := rfl
theorem exec_softError (site : ErrSite) (s : State) :
    exec (.softError site) s = execSoftError site s := rfl
theorem exec_dieReset (die : Nat) (uncore enter : Bool) (s : State) :
    exec (.dieReset die uncore enter) s = execDieReset die uncore enter s := rfl
theorem exec_portFlitReplay (port : Nat) (s : State) :
    exec (.portFlitReplay port) s = execPortFlitReplay port s := rfl
theorem exec_powerStateChange (d3 : Bool) (s : State) :
    exec (.powerStateChange d3) s = execPowerStateChange d3 s := rfl

end Sys2Proof.Machine
end

