-- ==== Sys2Proof/Laws/Tab.lean ====
section
/-!
SUPPORT. Laws of sparse tables and lists: what a read gives after a write, and that every operation keeps `Tab.wf`.
-/

namespace Sys2Proof.Machine

variable {α β : Type}

/-! ### Reads after writes -/

theorem Tab.get_set (t : Tab α) (k j : Nat) (v : α) :
    Tab.get (Tab.set t k v) j = if j = k then some v else Tab.get t j := by
  induction t with
  | nil => simp [Tab.set, Tab.get]
  | cons x t ih =>
    obtain ⟨i, a⟩ := x
    simp only [Tab.set]
    split
    · simp [Tab.get]
    · split
      · subst_vars; by_cases h : j = i <;> simp [Tab.get, h]
      · simp only [Tab.get, ih]; split <;> split <;> simp_all

@[simp] theorem Tab.get_set_self (t : Tab α) (k : Nat) (v : α) : Tab.get (Tab.set t k v) k = some v := by
  simp [Tab.get_set]

theorem Tab.get_set_other (t : Tab α) {k j : Nat} (v : α) (h : j ≠ k) : Tab.get (Tab.set t k v) j = Tab.get t j := by
  simp [Tab.get_set, h]

theorem Tab.get_modify (t : Tab α) (k j : Nat) (f : α → α) :
    Tab.get (Tab.modify t k f) j = if j = k then (Tab.get t k).map f else Tab.get t j := by
  unfold Tab.modify
  cases h : Tab.get t k with
  | none => by_cases hj : j = k <;> simp_all
  | some a => simp [Tab.get_set]

theorem Tab.getD_set (t : Tab α) (k j : Nat) (v d : α) :
    Tab.getD (Tab.set t k v) j d = if j = k then v else Tab.getD t j d := by
  by_cases h : j = k <;> simp [Tab.getD, Tab.get_set, h]

theorem Tab.get_map (t : Tab α) (f : Nat → α → β) (j : Nat) :
    Tab.get (t.map (fun x => (x.1, f x.1 x.2))) j = (Tab.get t j).map (f j) := by
  induction t with
  | nil => simp [Tab.get]
  | cons x t ih =>
    simp only [List.map_cons, Tab.get, ih]
    split
    · simp_all
    · rfl

theorem Tab.getD_eq_of_get (t u : Tab α) (j : Nat) (d : α) (h : Tab.get t j = Tab.get u j) :
    Tab.getD t j d = Tab.getD u j d := by simp [Tab.getD, h]

/-! ### Rising keys -/

/-- Every key of `t` lies above `b`. -/
theorem Tab.wf_cons (i : Nat) (a : α) (t : Tab α) :
    Tab.wf ((i, a) :: t) = (t.all (fun x => decide (i < x.1)) && Tab.wf t) := by
  induction t generalizing i a with
  | nil => rfl
  | cons x t ih =>
    obtain ⟨j, b⟩ := x
    simp only [Tab.wf, List.all_cons]
    by_cases h : i < j
    · have key : Tab.wf ((j, b) :: t) = true → (t.all fun x => decide (i < x.1)) = true := by
        intro hw
        rw [ih] at hw
        simp only [Bool.and_eq_true, List.all_eq_true, decide_eq_true_eq] at hw ⊢
        exact fun y hy => Nat.lt_trans h (hw.1 y hy)
      simp only [h, decide_true, Bool.true_and]
      cases hb : Tab.wf ((j, b) :: t) with
      | false => simp
      | true => simp [key hb]
    · simp [h]

theorem Tab.wf_tail {x : Nat × α} {t : Tab α} (h : Tab.wf (x :: t) = true) : Tab.wf t = true := by
  obtain ⟨i, a⟩ := x
  rw [Tab.wf_cons] at h
  simp only [Bool.and_eq_true] at h
  exact h.2

theorem Tab.mem_set {t : Tab α} {k : Nat} {v : α} {x : Nat × α} (h : x ∈ Tab.set t k v) : x = (k, v) ∨ x ∈ t := by
  induction t with
  | nil => simpa [Tab.set] using h
  | cons y t ih =>
    obtain ⟨i, a⟩ := y
    simp only [Tab.set] at h
    split at h
    · simpa using h
    · split at h
      · rcases List.mem_cons.1 h with h | h
        · exact .inl h
        · exact .inr (List.mem_cons_of_mem _ h)
      · rcases List.mem_cons.1 h with h | h
        · exact .inr (by simp [h])
        · exact (ih h).imp id (List.mem_cons_of_mem _)

theorem Tab.wf_set {t : Tab α} (h : Tab.wf t = true) (k : Nat) (v : α) : Tab.wf (Tab.set t k v) = true := by
  induction t with
  | nil => rfl
  | cons x t ih =>
    obtain ⟨i, a⟩ := x
    have hx := h
    rw [Tab.wf_cons] at hx
    simp only [Bool.and_eq_true, List.all_eq_true, decide_eq_true_eq] at hx
    simp only [Tab.set]
    split
    · rename_i hk
      rw [Tab.wf_cons]
      simp only [List.all_cons, Bool.and_eq_true, List.all_eq_true, decide_eq_true_eq]
      exact ⟨⟨hk, fun y hy => Nat.lt_trans hk (hx.1 y hy)⟩, h⟩
    · split
      · subst_vars
        rw [Tab.wf_cons]
        simp only [Bool.and_eq_true, List.all_eq_true, decide_eq_true_eq]
        exact hx
      · rw [Tab.wf_cons]
        simp only [Bool.and_eq_true, List.all_eq_true, decide_eq_true_eq]
        refine ⟨fun y hy => ?_, ih hx.2⟩
        rcases Tab.mem_set hy with rfl | hy
        · simp only; omega
        · exact hx.1 y hy

theorem Tab.mem_erase {t : Tab α} {k : Nat} {x : Nat × α} (h : x ∈ Tab.erase t k) : x ∈ t := by
  induction t with
  | nil => simp [Tab.erase] at h
  | cons y t ih =>
    obtain ⟨i, a⟩ := y
    simp only [Tab.erase] at h
    split at h
    · exact List.mem_cons_of_mem _ (ih h)
    · rcases List.mem_cons.1 h with h | h
      · simp [h]
      · exact List.mem_cons_of_mem _ (ih h)

theorem Tab.wf_erase {t : Tab α} (h : Tab.wf t = true) (k : Nat) : Tab.wf (Tab.erase t k) = true := by
  induction t with
  | nil => rfl
  | cons x t ih =>
    obtain ⟨i, a⟩ := x
    have hx := h
    rw [Tab.wf_cons] at hx
    simp only [Bool.and_eq_true, List.all_eq_true, decide_eq_true_eq] at hx
    simp only [Tab.erase]
    split
    · exact ih hx.2
    · rw [Tab.wf_cons]
      simp only [Bool.and_eq_true, List.all_eq_true, decide_eq_true_eq]
      exact ⟨fun y hy => hx.1 y (Tab.mem_erase hy), ih hx.2⟩

theorem Tab.wf_filter {t : Tab α} (h : Tab.wf t = true) (p : Nat × α → Bool) : Tab.wf (t.filter p) = true := by
  induction t with
  | nil => rfl
  | cons x t ih =>
    obtain ⟨i, a⟩ := x
    have hx := h
    rw [Tab.wf_cons] at hx
    simp only [Bool.and_eq_true, List.all_eq_true, decide_eq_true_eq] at hx
    simp only [List.filter_cons]
    split
    · rw [Tab.wf_cons]
      simp only [Bool.and_eq_true, List.all_eq_true, decide_eq_true_eq]
      exact ⟨fun y hy => hx.1 y (List.mem_filter.1 hy).1, ih hx.2⟩
    · exact ih hx.2

theorem Tab.wf_modify {t : Tab α} (h : Tab.wf t = true) (k : Nat) (f : α → α) : Tab.wf (Tab.modify t k f) = true := by
  unfold Tab.modify
  split
  · exact Tab.wf_set h _ _
  · exact h

/-- A key below every key of a table is not in it. -/
theorem Tab.get_none_of_lt {t : Tab α} {k : Nat} (h : ∀ x ∈ t, k < x.1) : Tab.get t k = none := by
  induction t with
  | nil => rfl
  | cons x t ih =>
    obtain ⟨i, a⟩ := x
    have hi : k < i := h (i, a) (by simp)
    have : k ≠ i := Nat.ne_of_lt hi
    simp only [Tab.get, this, if_false]
    exact ih (fun y hy => h y (List.mem_cons_of_mem _ hy))

theorem Tab.get_erase (t : Tab α) (k j : Nat) :
    Tab.get (Tab.erase t k) j = if j = k then none else Tab.get t j := by
  induction t with
  | nil => simp [Tab.erase, Tab.get]
  | cons x t ih =>
    obtain ⟨i, a⟩ := x
    simp only [Tab.erase]
    by_cases hk : k = i
    · rw [if_pos hk, ih]
      by_cases hj : j = k
      · simp [hj]
      · have : j ≠ i := fun h => hj (h.trans hk.symm)
        simp [Tab.get, hj, this]
    · rw [if_neg hk]
      simp only [Tab.get, ih]
      split <;> split <;> simp_all

/-! ### Lists by position -/

theorem getD_setPad (d : α) (l : List α) (n m : Nat) (v : α) :
    (setPad d l n v).getD m d = if m = n then v else l.getD m d := by
  induction n generalizing l m with
  | zero => cases m <;> cases l <;> simp [setPad]
  | succ n ih =>
    cases m with
    | zero => cases l <;> simp [setPad]
    | succ m =>
      have := ih l.tail m
      cases l <;> simp_all [setPad]

theorem length_tabulate (n : Nat) (f : Nat → α) : (tabulate n f).length = n := by simp [tabulate]

theorem getD_tabulate (n : Nat) (f : Nat → α) (i : Nat) (d : α) (h : i < n) : (tabulate n f).getD i d = f i := by
  simp [tabulate, List.getD, h]

/-- Bit `i` of a number given by its bits. -/
theorem testBit_bitsOf (f : Nat → Bool) (n i : Nat) : (bitsOf f n).testBit i = (decide (i < n) && f i) := by
  have lt : ∀ m, bitsOf f m < 2 ^ m := by
    intro m
    induction m with
    | zero => simp [bitsOf]
    | succ m ih => simp only [bitsOf, Nat.pow_succ]; split <;> omega
  induction n with
  | zero => simp [bitsOf]
  | succ n ih =>
    simp only [bitsOf]
    by_cases hf : f n = true
    · rw [if_pos hf, Nat.add_comm]
      rcases Nat.lt_trichotomy i n with h | h | h
      · rw [Nat.testBit_two_pow_add_gt h, ih]
        simp [h, Nat.lt_succ_of_lt h]
      · subst h
        rw [Nat.testBit_two_pow_add_eq, ih]
        simp [hf]
      · have : (2 ^ n + bitsOf f n).testBit i = false := by
          apply Nat.testBit_lt_two_pow
          have := lt n
          calc 2 ^ n + bitsOf f n < 2 ^ n + 2 ^ n := by omega
            _ = 2 ^ (n + 1) := by rw [Nat.pow_succ]; omega
            _ ≤ 2 ^ i := Nat.pow_le_pow_right (by decide) h
        rw [this]
        have : ¬ i < n + 1 := by omega
        simp [this]
    · rw [if_neg hf, Nat.add_zero, ih]
      by_cases h : i < n
      · simp [h, Nat.lt_succ_of_lt h]
      · by_cases hi : i = n
        · subst hi; simp [hf]
        · have : ¬ i < n + 1 := by omega
          simp [h, this]

theorem getLsbD_maskOf (n : Nat) (f : Nat → Bool) (i : Nat) (h : n ≤ 768) :
    (maskOf n f).getLsbD i = (decide (i < n) && f i) := by
  simp only [maskOf, BitVec.getLsbD_ofNat, testBit_bitsOf]
  by_cases hi : i < n
  · have : i < 768 := by omega
    simp [hi, this]
  · simp [hi]

end Sys2Proof.Machine
end

