-- ==== Sys2Proof/Laws/State.lean ====
section
/-!
SUPPORT. What each update of the state leaves in each of its fields, and what the accessors of its tables read after it.
-/

namespace Sys2Proof.Machine
namespace State

variable (s : State)

/-! ### `setCore` -/

@[simp] theorem setCore_mem (c : Nat) (x : Core) : (s.setCore c x).mem = s.mem := rfl
@[simp] theorem setCore_poison (c : Nat) (x : Core) : (s.setCore c x).poison = s.poison := rfl
@[simp] theorem setCore_front (c : Nat) (x : Core) : (s.setCore c x).front = s.front := rfl
@[simp] theorem setCore_sup (c : Nat) (x : Core) : (s.setCore c x).sup = s.sup := rfl
@[simp] theorem setCore_gens (c : Nat) (x : Core) : (s.setCore c x).gens = s.gens := rfl
@[simp] theorem setCore_grids (c : Nat) (x : Core) : (s.setCore c x).grids = s.grids := rfl
@[simp] theorem setCore_teams (c : Nat) (x : Core) : (s.setCore c x).teams = s.teams := rfl
@[simp] theorem setCore_groups (c : Nat) (x : Core) : (s.setCore c x).groups = s.groups := rfl
@[simp] theorem setCore_nextId (c : Nat) (x : Core) : (s.setCore c x).nextId = s.nextId := rfl
@[simp] theorem setCore_cores (c : Nat) (x : Core) : (s.setCore c x).cores = Tab.set s.cores c x := rfl
@[simp] theorem setCore_clusters (c : Nat) (x : Core) : (s.setCore c x).clusters = s.clusters := rfl
@[simp] theorem setCore_dies (c : Nat) (x : Core) : (s.setCore c x).dies = s.dies := rfl
@[simp] theorem setCore_ports (c : Nat) (x : Core) : (s.setCore c x).ports = s.ports := rfl
@[simp] theorem setCore_barriers (c : Nat) (x : Core) : (s.setCore c x).barriers = s.barriers := rfl
@[simp] theorem setCore_signals (c : Nat) (x : Core) : (s.setCore c x).signals = s.signals := rfl
@[simp] theorem setCore_offers (c : Nat) (x : Core) : (s.setCore c x).offers = s.offers := rfl
@[simp] theorem setCore_tc0 (c : Nat) (x : Core) : (s.setCore c x).tc0 = s.tc0 := rfl
@[simp] theorem setCore_sysev (c : Nat) (x : Core) : (s.setCore c x).sysev = s.sysev := rfl
@[simp] theorem setCore_errs (c : Nat) (x : Core) : (s.setCore c x).errs = s.errs := rfl
@[simp] theorem setCore_agenda (c : Nat) (x : Core) : (s.setCore c x).agenda = s.agenda := rfl
@[simp] theorem setCore_cur (c : Nat) (x : Core) : (s.setCore c x).cur = s.cur := rfl
@[simp] theorem setCore_fresh (c : Nat) (x : Core) : (s.setCore c x).fresh = s.fresh := rfl

/-! ### `setDie` -/

@[simp] theorem setDie_mem (d : Nat) (x : Die) : (s.setDie d x).mem = s.mem := rfl
@[simp] theorem setDie_poison (d : Nat) (x : Die) : (s.setDie d x).poison = s.poison := rfl
@[simp] theorem setDie_front (d : Nat) (x : Die) : (s.setDie d x).front = s.front := rfl
@[simp] theorem setDie_sup (d : Nat) (x : Die) : (s.setDie d x).sup = s.sup := rfl
@[simp] theorem setDie_gens (d : Nat) (x : Die) : (s.setDie d x).gens = s.gens := rfl
@[simp] theorem setDie_grids (d : Nat) (x : Die) : (s.setDie d x).grids = s.grids := rfl
@[simp] theorem setDie_teams (d : Nat) (x : Die) : (s.setDie d x).teams = s.teams := rfl
@[simp] theorem setDie_groups (d : Nat) (x : Die) : (s.setDie d x).groups = s.groups := rfl
@[simp] theorem setDie_nextId (d : Nat) (x : Die) : (s.setDie d x).nextId = s.nextId := rfl
@[simp] theorem setDie_cores (d : Nat) (x : Die) : (s.setDie d x).cores = s.cores := rfl
@[simp] theorem setDie_clusters (d : Nat) (x : Die) : (s.setDie d x).clusters = s.clusters := rfl
@[simp] theorem setDie_dies (d : Nat) (x : Die) : (s.setDie d x).dies = Tab.set s.dies d x := rfl
@[simp] theorem setDie_ports (d : Nat) (x : Die) : (s.setDie d x).ports = s.ports := rfl
@[simp] theorem setDie_barriers (d : Nat) (x : Die) : (s.setDie d x).barriers = s.barriers := rfl
@[simp] theorem setDie_signals (d : Nat) (x : Die) : (s.setDie d x).signals = s.signals := rfl
@[simp] theorem setDie_offers (d : Nat) (x : Die) : (s.setDie d x).offers = s.offers := rfl
@[simp] theorem setDie_tc0 (d : Nat) (x : Die) : (s.setDie d x).tc0 = s.tc0 := rfl
@[simp] theorem setDie_sysev (d : Nat) (x : Die) : (s.setDie d x).sysev = s.sysev := rfl
@[simp] theorem setDie_errs (d : Nat) (x : Die) : (s.setDie d x).errs = s.errs := rfl
@[simp] theorem setDie_agenda (d : Nat) (x : Die) : (s.setDie d x).agenda = s.agenda := rfl
@[simp] theorem setDie_cur (d : Nat) (x : Die) : (s.setDie d x).cur = s.cur := rfl
@[simp] theorem setDie_fresh (d : Nat) (x : Die) : (s.setDie d x).fresh = s.fresh := rfl

/-! ### `setGroup` -/

@[simp] theorem setGroup_mem (k : Nat) (g : Group) : (s.setGroup k g).mem = s.mem := rfl
@[simp] theorem setGroup_poison (k : Nat) (g : Group) : (s.setGroup k g).poison = s.poison := rfl
@[simp] theorem setGroup_front (k : Nat) (g : Group) : (s.setGroup k g).front = s.front := rfl
@[simp] theorem setGroup_sup (k : Nat) (g : Group) : (s.setGroup k g).sup = s.sup := rfl
@[simp] theorem setGroup_gens (k : Nat) (g : Group) : (s.setGroup k g).gens = s.gens := rfl
@[simp] theorem setGroup_grids (k : Nat) (g : Group) : (s.setGroup k g).grids = s.grids := rfl
@[simp] theorem setGroup_teams (k : Nat) (g : Group) : (s.setGroup k g).teams = s.teams := rfl
@[simp] theorem setGroup_groups (k : Nat) (g : Group) : (s.setGroup k g).groups = Tab.set s.groups k g := rfl
@[simp] theorem setGroup_nextId (k : Nat) (g : Group) : (s.setGroup k g).nextId = s.nextId := rfl
@[simp] theorem setGroup_cores (k : Nat) (g : Group) : (s.setGroup k g).cores = s.cores := rfl
@[simp] theorem setGroup_clusters (k : Nat) (g : Group) : (s.setGroup k g).clusters = s.clusters := rfl
@[simp] theorem setGroup_dies (k : Nat) (g : Group) : (s.setGroup k g).dies = s.dies := rfl
@[simp] theorem setGroup_ports (k : Nat) (g : Group) : (s.setGroup k g).ports = s.ports := rfl
@[simp] theorem setGroup_barriers (k : Nat) (g : Group) : (s.setGroup k g).barriers = s.barriers := rfl
@[simp] theorem setGroup_signals (k : Nat) (g : Group) : (s.setGroup k g).signals = s.signals := rfl
@[simp] theorem setGroup_offers (k : Nat) (g : Group) : (s.setGroup k g).offers = s.offers := rfl
@[simp] theorem setGroup_tc0 (k : Nat) (g : Group) : (s.setGroup k g).tc0 = s.tc0 := rfl
@[simp] theorem setGroup_sysev (k : Nat) (g : Group) : (s.setGroup k g).sysev = s.sysev := rfl
@[simp] theorem setGroup_errs (k : Nat) (g : Group) : (s.setGroup k g).errs = s.errs := rfl
@[simp] theorem setGroup_agenda (k : Nat) (g : Group) : (s.setGroup k g).agenda = s.agenda := rfl
@[simp] theorem setGroup_cur (k : Nat) (g : Group) : (s.setGroup k g).cur = s.cur := rfl
@[simp] theorem setGroup_fresh (k : Nat) (g : Group) : (s.setGroup k g).fresh = s.fresh := rfl

/-! ### `setTeam` -/

@[simp] theorem setTeam_mem (t : Nat) (x : Team) : (s.setTeam t x).mem = s.mem := rfl
@[simp] theorem setTeam_poison (t : Nat) (x : Team) : (s.setTeam t x).poison = s.poison := rfl
@[simp] theorem setTeam_front (t : Nat) (x : Team) : (s.setTeam t x).front = s.front := rfl
@[simp] theorem setTeam_sup (t : Nat) (x : Team) : (s.setTeam t x).sup = s.sup := rfl
@[simp] theorem setTeam_gens (t : Nat) (x : Team) : (s.setTeam t x).gens = s.gens := rfl
@[simp] theorem setTeam_grids (t : Nat) (x : Team) : (s.setTeam t x).grids = s.grids := rfl
@[simp] theorem setTeam_teams (t : Nat) (x : Team) : (s.setTeam t x).teams = Tab.set s.teams t x := rfl
@[simp] theorem setTeam_groups (t : Nat) (x : Team) : (s.setTeam t x).groups = s.groups := rfl
@[simp] theorem setTeam_nextId (t : Nat) (x : Team) : (s.setTeam t x).nextId = s.nextId := rfl
@[simp] theorem setTeam_cores (t : Nat) (x : Team) : (s.setTeam t x).cores = s.cores := rfl
@[simp] theorem setTeam_clusters (t : Nat) (x : Team) : (s.setTeam t x).clusters = s.clusters := rfl
@[simp] theorem setTeam_dies (t : Nat) (x : Team) : (s.setTeam t x).dies = s.dies := rfl
@[simp] theorem setTeam_ports (t : Nat) (x : Team) : (s.setTeam t x).ports = s.ports := rfl
@[simp] theorem setTeam_barriers (t : Nat) (x : Team) : (s.setTeam t x).barriers = s.barriers := rfl
@[simp] theorem setTeam_signals (t : Nat) (x : Team) : (s.setTeam t x).signals = s.signals := rfl
@[simp] theorem setTeam_offers (t : Nat) (x : Team) : (s.setTeam t x).offers = s.offers := rfl
@[simp] theorem setTeam_tc0 (t : Nat) (x : Team) : (s.setTeam t x).tc0 = s.tc0 := rfl
@[simp] theorem setTeam_sysev (t : Nat) (x : Team) : (s.setTeam t x).sysev = s.sysev := rfl
@[simp] theorem setTeam_errs (t : Nat) (x : Team) : (s.setTeam t x).errs = s.errs := rfl
@[simp] theorem setTeam_agenda (t : Nat) (x : Team) : (s.setTeam t x).agenda = s.agenda := rfl
@[simp] theorem setTeam_cur (t : Nat) (x : Team) : (s.setTeam t x).cur = s.cur := rfl
@[simp] theorem setTeam_fresh (t : Nat) (x : Team) : (s.setTeam t x).fresh = s.fresh := rfl

/-! ### `setGrid` -/

@[simp] theorem setGrid_mem (g : Nat) (x : Grid) : (s.setGrid g x).mem = s.mem := rfl
@[simp] theorem setGrid_poison (g : Nat) (x : Grid) : (s.setGrid g x).poison = s.poison := rfl
@[simp] theorem setGrid_front (g : Nat) (x : Grid) : (s.setGrid g x).front = s.front := rfl
@[simp] theorem setGrid_sup (g : Nat) (x : Grid) : (s.setGrid g x).sup = s.sup := rfl
@[simp] theorem setGrid_gens (g : Nat) (x : Grid) : (s.setGrid g x).gens = s.gens := rfl
@[simp] theorem setGrid_grids (g : Nat) (x : Grid) : (s.setGrid g x).grids = Tab.set s.grids g x := rfl
@[simp] theorem setGrid_teams (g : Nat) (x : Grid) : (s.setGrid g x).teams = s.teams := rfl
@[simp] theorem setGrid_groups (g : Nat) (x : Grid) : (s.setGrid g x).groups = s.groups := rfl
@[simp] theorem setGrid_nextId (g : Nat) (x : Grid) : (s.setGrid g x).nextId = s.nextId := rfl
@[simp] theorem setGrid_cores (g : Nat) (x : Grid) : (s.setGrid g x).cores = s.cores := rfl
@[simp] theorem setGrid_clusters (g : Nat) (x : Grid) : (s.setGrid g x).clusters = s.clusters := rfl
@[simp] theorem setGrid_dies (g : Nat) (x : Grid) : (s.setGrid g x).dies = s.dies := rfl
@[simp] theorem setGrid_ports (g : Nat) (x : Grid) : (s.setGrid g x).ports = s.ports := rfl
@[simp] theorem setGrid_barriers (g : Nat) (x : Grid) : (s.setGrid g x).barriers = s.barriers := rfl
@[simp] theorem setGrid_signals (g : Nat) (x : Grid) : (s.setGrid g x).signals = s.signals := rfl
@[simp] theorem setGrid_offers (g : Nat) (x : Grid) : (s.setGrid g x).offers = s.offers := rfl
@[simp] theorem setGrid_tc0 (g : Nat) (x : Grid) : (s.setGrid g x).tc0 = s.tc0 := rfl
@[simp] theorem setGrid_sysev (g : Nat) (x : Grid) : (s.setGrid g x).sysev = s.sysev := rfl
@[simp] theorem setGrid_errs (g : Nat) (x : Grid) : (s.setGrid g x).errs = s.errs := rfl
@[simp] theorem setGrid_agenda (g : Nat) (x : Grid) : (s.setGrid g x).agenda = s.agenda := rfl
@[simp] theorem setGrid_cur (g : Nat) (x : Grid) : (s.setGrid g x).cur = s.cur := rfl
@[simp] theorem setGrid_fresh (g : Nat) (x : Grid) : (s.setGrid g x).fresh = s.fresh := rfl

/-! ### `setCluster` -/

@[simp] theorem setCluster_mem (c : Nat) (x : Cluster) : (s.setCluster c x).mem = s.mem := rfl
@[simp] theorem setCluster_poison (c : Nat) (x : Cluster) : (s.setCluster c x).poison = s.poison := rfl
@[simp] theorem setCluster_front (c : Nat) (x : Cluster) : (s.setCluster c x).front = s.front := rfl
@[simp] theorem setCluster_sup (c : Nat) (x : Cluster) : (s.setCluster c x).sup = s.sup := rfl
@[simp] theorem setCluster_gens (c : Nat) (x : Cluster) : (s.setCluster c x).gens = s.gens := rfl
@[simp] theorem setCluster_grids (c : Nat) (x : Cluster) : (s.setCluster c x).grids = s.grids := rfl
@[simp] theorem setCluster_teams (c : Nat) (x : Cluster) : (s.setCluster c x).teams = s.teams := rfl
@[simp] theorem setCluster_groups (c : Nat) (x : Cluster) : (s.setCluster c x).groups = s.groups := rfl
@[simp] theorem setCluster_nextId (c : Nat) (x : Cluster) : (s.setCluster c x).nextId = s.nextId := rfl
@[simp] theorem setCluster_cores (c : Nat) (x : Cluster) : (s.setCluster c x).cores = s.cores := rfl
@[simp] theorem setCluster_clusters (c : Nat) (x : Cluster) : (s.setCluster c x).clusters = Tab.set s.clusters c x := rfl
@[simp] theorem setCluster_dies (c : Nat) (x : Cluster) : (s.setCluster c x).dies = s.dies := rfl
@[simp] theorem setCluster_ports (c : Nat) (x : Cluster) : (s.setCluster c x).ports = s.ports := rfl
@[simp] theorem setCluster_barriers (c : Nat) (x : Cluster) : (s.setCluster c x).barriers = s.barriers := rfl
@[simp] theorem setCluster_signals (c : Nat) (x : Cluster) : (s.setCluster c x).signals = s.signals := rfl
@[simp] theorem setCluster_offers (c : Nat) (x : Cluster) : (s.setCluster c x).offers = s.offers := rfl
@[simp] theorem setCluster_tc0 (c : Nat) (x : Cluster) : (s.setCluster c x).tc0 = s.tc0 := rfl
@[simp] theorem setCluster_sysev (c : Nat) (x : Cluster) : (s.setCluster c x).sysev = s.sysev := rfl
@[simp] theorem setCluster_errs (c : Nat) (x : Cluster) : (s.setCluster c x).errs = s.errs := rfl
@[simp] theorem setCluster_agenda (c : Nat) (x : Cluster) : (s.setCluster c x).agenda = s.agenda := rfl
@[simp] theorem setCluster_cur (c : Nat) (x : Cluster) : (s.setCluster c x).cur = s.cur := rfl
@[simp] theorem setCluster_fresh (c : Nat) (x : Cluster) : (s.setCluster c x).fresh = s.fresh := rfl

/-! ### `setPort` -/

@[simp] theorem setPort_mem (p : Nat) (x : Port) : (s.setPort p x).mem = s.mem := rfl
@[simp] theorem setPort_poison (p : Nat) (x : Port) : (s.setPort p x).poison = s.poison := rfl
@[simp] theorem setPort_front (p : Nat) (x : Port) : (s.setPort p x).front = s.front := rfl
@[simp] theorem setPort_sup (p : Nat) (x : Port) : (s.setPort p x).sup = s.sup := rfl
@[simp] theorem setPort_gens (p : Nat) (x : Port) : (s.setPort p x).gens = s.gens := rfl
@[simp] theorem setPort_grids (p : Nat) (x : Port) : (s.setPort p x).grids = s.grids := rfl
@[simp] theorem setPort_teams (p : Nat) (x : Port) : (s.setPort p x).teams = s.teams := rfl
@[simp] theorem setPort_groups (p : Nat) (x : Port) : (s.setPort p x).groups = s.groups := rfl
@[simp] theorem setPort_nextId (p : Nat) (x : Port) : (s.setPort p x).nextId = s.nextId := rfl
@[simp] theorem setPort_cores (p : Nat) (x : Port) : (s.setPort p x).cores = s.cores := rfl
@[simp] theorem setPort_clusters (p : Nat) (x : Port) : (s.setPort p x).clusters = s.clusters := rfl
@[simp] theorem setPort_dies (p : Nat) (x : Port) : (s.setPort p x).dies = s.dies := rfl
@[simp] theorem setPort_ports (p : Nat) (x : Port) : (s.setPort p x).ports = Tab.set s.ports p x := rfl
@[simp] theorem setPort_barriers (p : Nat) (x : Port) : (s.setPort p x).barriers = s.barriers := rfl
@[simp] theorem setPort_signals (p : Nat) (x : Port) : (s.setPort p x).signals = s.signals := rfl
@[simp] theorem setPort_offers (p : Nat) (x : Port) : (s.setPort p x).offers = s.offers := rfl
@[simp] theorem setPort_tc0 (p : Nat) (x : Port) : (s.setPort p x).tc0 = s.tc0 := rfl
@[simp] theorem setPort_sysev (p : Nat) (x : Port) : (s.setPort p x).sysev = s.sysev := rfl
@[simp] theorem setPort_errs (p : Nat) (x : Port) : (s.setPort p x).errs = s.errs := rfl
@[simp] theorem setPort_agenda (p : Nat) (x : Port) : (s.setPort p x).agenda = s.agenda := rfl
@[simp] theorem setPort_cur (p : Nat) (x : Port) : (s.setPort p x).cur = s.cur := rfl
@[simp] theorem setPort_fresh (p : Nat) (x : Port) : (s.setPort p x).fresh = s.fresh := rfl

/-! ### `modCore` -/

@[simp] theorem modCore_mem (c : Nat) (f : Core → Core) : (s.modCore c f).mem = s.mem := rfl
@[simp] theorem modCore_poison (c : Nat) (f : Core → Core) : (s.modCore c f).poison = s.poison := rfl
@[simp] theorem modCore_front (c : Nat) (f : Core → Core) : (s.modCore c f).front = s.front := rfl
@[simp] theorem modCore_sup (c : Nat) (f : Core → Core) : (s.modCore c f).sup = s.sup := rfl
@[simp] theorem modCore_gens (c : Nat) (f : Core → Core) : (s.modCore c f).gens = s.gens := rfl
@[simp] theorem modCore_grids (c : Nat) (f : Core → Core) : (s.modCore c f).grids = s.grids := rfl
@[simp] theorem modCore_teams (c : Nat) (f : Core → Core) : (s.modCore c f).teams = s.teams := rfl
@[simp] theorem modCore_groups (c : Nat) (f : Core → Core) : (s.modCore c f).groups = s.groups := rfl
@[simp] theorem modCore_nextId (c : Nat) (f : Core → Core) : (s.modCore c f).nextId = s.nextId := rfl
@[simp] theorem modCore_cores (c : Nat) (f : Core → Core) : (s.modCore c f).cores = Tab.set s.cores c (f (s.core c)) := rfl
@[simp] theorem modCore_clusters (c : Nat) (f : Core → Core) : (s.modCore c f).clusters = s.clusters := rfl
@[simp] theorem modCore_dies (c : Nat) (f : Core → Core) : (s.modCore c f).dies = s.dies := rfl
@[simp] theorem modCore_ports (c : Nat) (f : Core → Core) : (s.modCore c f).ports = s.ports := rfl
@[simp] theorem modCore_barriers (c : Nat) (f : Core → Core) : (s.modCore c f).barriers = s.barriers := rfl
@[simp] theorem modCore_signals (c : Nat) (f : Core → Core) : (s.modCore c f).signals = s.signals := rfl
@[simp] theorem modCore_offers (c : Nat) (f : Core → Core) : (s.modCore c f).offers = s.offers := rfl
@[simp] theorem modCore_tc0 (c : Nat) (f : Core → Core) : (s.modCore c f).tc0 = s.tc0 := rfl
@[simp] theorem modCore_sysev (c : Nat) (f : Core → Core) : (s.modCore c f).sysev = s.sysev := rfl
@[simp] theorem modCore_errs (c : Nat) (f : Core → Core) : (s.modCore c f).errs = s.errs := rfl
@[simp] theorem modCore_agenda (c : Nat) (f : Core → Core) : (s.modCore c f).agenda = s.agenda := rfl
@[simp] theorem modCore_cur (c : Nat) (f : Core → Core) : (s.modCore c f).cur = s.cur := rfl
@[simp] theorem modCore_fresh (c : Nat) (f : Core → Core) : (s.modCore c f).fresh = s.fresh := rfl

/-! ### `modDie` -/

@[simp] theorem modDie_mem (d : Nat) (f : Die → Die) : (s.modDie d f).mem = s.mem := rfl
@[simp] theorem modDie_poison (d : Nat) (f : Die → Die) : (s.modDie d f).poison = s.poison := rfl
@[simp] theorem modDie_front (d : Nat) (f : Die → Die) : (s.modDie d f).front = s.front := rfl
@[simp] theorem modDie_sup (d : Nat) (f : Die → Die) : (s.modDie d f).sup = s.sup := rfl
@[simp] theorem modDie_gens (d : Nat) (f : Die → Die) : (s.modDie d f).gens = s.gens := rfl
@[simp] theorem modDie_grids (d : Nat) (f : Die → Die) : (s.modDie d f).grids = s.grids := rfl
@[simp] theorem modDie_teams (d : Nat) (f : Die → Die) : (s.modDie d f).teams = s.teams := rfl
@[simp] theorem modDie_groups (d : Nat) (f : Die → Die) : (s.modDie d f).groups = s.groups := rfl
@[simp] theorem modDie_nextId (d : Nat) (f : Die → Die) : (s.modDie d f).nextId = s.nextId := rfl
@[simp] theorem modDie_cores (d : Nat) (f : Die → Die) : (s.modDie d f).cores = s.cores := rfl
@[simp] theorem modDie_clusters (d : Nat) (f : Die → Die) : (s.modDie d f).clusters = s.clusters := rfl
@[simp] theorem modDie_dies (d : Nat) (f : Die → Die) : (s.modDie d f).dies = Tab.set s.dies d (f (s.die d)) := rfl
@[simp] theorem modDie_ports (d : Nat) (f : Die → Die) : (s.modDie d f).ports = s.ports := rfl
@[simp] theorem modDie_barriers (d : Nat) (f : Die → Die) : (s.modDie d f).barriers = s.barriers := rfl
@[simp] theorem modDie_signals (d : Nat) (f : Die → Die) : (s.modDie d f).signals = s.signals := rfl
@[simp] theorem modDie_offers (d : Nat) (f : Die → Die) : (s.modDie d f).offers = s.offers := rfl
@[simp] theorem modDie_tc0 (d : Nat) (f : Die → Die) : (s.modDie d f).tc0 = s.tc0 := rfl
@[simp] theorem modDie_sysev (d : Nat) (f : Die → Die) : (s.modDie d f).sysev = s.sysev := rfl
@[simp] theorem modDie_errs (d : Nat) (f : Die → Die) : (s.modDie d f).errs = s.errs := rfl
@[simp] theorem modDie_agenda (d : Nat) (f : Die → Die) : (s.modDie d f).agenda = s.agenda := rfl
@[simp] theorem modDie_cur (d : Nat) (f : Die → Die) : (s.modDie d f).cur = s.cur := rfl
@[simp] theorem modDie_fresh (d : Nat) (f : Die → Die) : (s.modDie d f).fresh = s.fresh := rfl

/-! ### `modGroup` -/

@[simp] theorem modGroup_mem (k : Nat) (f : Group → Group) : (s.modGroup k f).mem = s.mem := rfl
@[simp] theorem modGroup_poison (k : Nat) (f : Group → Group) : (s.modGroup k f).poison = s.poison := rfl
@[simp] theorem modGroup_front (k : Nat) (f : Group → Group) : (s.modGroup k f).front = s.front := rfl
@[simp] theorem modGroup_sup (k : Nat) (f : Group → Group) : (s.modGroup k f).sup = s.sup := rfl
@[simp] theorem modGroup_gens (k : Nat) (f : Group → Group) : (s.modGroup k f).gens = s.gens := rfl
@[simp] theorem modGroup_grids (k : Nat) (f : Group → Group) : (s.modGroup k f).grids = s.grids := rfl
@[simp] theorem modGroup_teams (k : Nat) (f : Group → Group) : (s.modGroup k f).teams = s.teams := rfl
@[simp] theorem modGroup_groups (k : Nat) (f : Group → Group) : (s.modGroup k f).groups = Tab.modify s.groups k f := rfl
@[simp] theorem modGroup_nextId (k : Nat) (f : Group → Group) : (s.modGroup k f).nextId = s.nextId := rfl
@[simp] theorem modGroup_cores (k : Nat) (f : Group → Group) : (s.modGroup k f).cores = s.cores := rfl
@[simp] theorem modGroup_clusters (k : Nat) (f : Group → Group) : (s.modGroup k f).clusters = s.clusters := rfl
@[simp] theorem modGroup_dies (k : Nat) (f : Group → Group) : (s.modGroup k f).dies = s.dies := rfl
@[simp] theorem modGroup_ports (k : Nat) (f : Group → Group) : (s.modGroup k f).ports = s.ports := rfl
@[simp] theorem modGroup_barriers (k : Nat) (f : Group → Group) : (s.modGroup k f).barriers = s.barriers := rfl
@[simp] theorem modGroup_signals (k : Nat) (f : Group → Group) : (s.modGroup k f).signals = s.signals := rfl
@[simp] theorem modGroup_offers (k : Nat) (f : Group → Group) : (s.modGroup k f).offers = s.offers := rfl
@[simp] theorem modGroup_tc0 (k : Nat) (f : Group → Group) : (s.modGroup k f).tc0 = s.tc0 := rfl
@[simp] theorem modGroup_sysev (k : Nat) (f : Group → Group) : (s.modGroup k f).sysev = s.sysev := rfl
@[simp] theorem modGroup_errs (k : Nat) (f : Group → Group) : (s.modGroup k f).errs = s.errs := rfl
@[simp] theorem modGroup_agenda (k : Nat) (f : Group → Group) : (s.modGroup k f).agenda = s.agenda := rfl
@[simp] theorem modGroup_cur (k : Nat) (f : Group → Group) : (s.modGroup k f).cur = s.cur := rfl
@[simp] theorem modGroup_fresh (k : Nat) (f : Group → Group) : (s.modGroup k f).fresh = s.fresh := rfl

/-! ### `modTeam` -/

@[simp] theorem modTeam_mem (t : Nat) (f : Team → Team) : (s.modTeam t f).mem = s.mem := rfl
@[simp] theorem modTeam_poison (t : Nat) (f : Team → Team) : (s.modTeam t f).poison = s.poison := rfl
@[simp] theorem modTeam_front (t : Nat) (f : Team → Team) : (s.modTeam t f).front = s.front := rfl
@[simp] theorem modTeam_sup (t : Nat) (f : Team → Team) : (s.modTeam t f).sup = s.sup := rfl
@[simp] theorem modTeam_gens (t : Nat) (f : Team → Team) : (s.modTeam t f).gens = s.gens := rfl
@[simp] theorem modTeam_grids (t : Nat) (f : Team → Team) : (s.modTeam t f).grids = s.grids := rfl
@[simp] theorem modTeam_teams (t : Nat) (f : Team → Team) : (s.modTeam t f).teams = Tab.modify s.teams t f := rfl
@[simp] theorem modTeam_groups (t : Nat) (f : Team → Team) : (s.modTeam t f).groups = s.groups := rfl
@[simp] theorem modTeam_nextId (t : Nat) (f : Team → Team) : (s.modTeam t f).nextId = s.nextId := rfl
@[simp] theorem modTeam_cores (t : Nat) (f : Team → Team) : (s.modTeam t f).cores = s.cores := rfl
@[simp] theorem modTeam_clusters (t : Nat) (f : Team → Team) : (s.modTeam t f).clusters = s.clusters := rfl
@[simp] theorem modTeam_dies (t : Nat) (f : Team → Team) : (s.modTeam t f).dies = s.dies := rfl
@[simp] theorem modTeam_ports (t : Nat) (f : Team → Team) : (s.modTeam t f).ports = s.ports := rfl
@[simp] theorem modTeam_barriers (t : Nat) (f : Team → Team) : (s.modTeam t f).barriers = s.barriers := rfl
@[simp] theorem modTeam_signals (t : Nat) (f : Team → Team) : (s.modTeam t f).signals = s.signals := rfl
@[simp] theorem modTeam_offers (t : Nat) (f : Team → Team) : (s.modTeam t f).offers = s.offers := rfl
@[simp] theorem modTeam_tc0 (t : Nat) (f : Team → Team) : (s.modTeam t f).tc0 = s.tc0 := rfl
@[simp] theorem modTeam_sysev (t : Nat) (f : Team → Team) : (s.modTeam t f).sysev = s.sysev := rfl
@[simp] theorem modTeam_errs (t : Nat) (f : Team → Team) : (s.modTeam t f).errs = s.errs := rfl
@[simp] theorem modTeam_agenda (t : Nat) (f : Team → Team) : (s.modTeam t f).agenda = s.agenda := rfl
@[simp] theorem modTeam_cur (t : Nat) (f : Team → Team) : (s.modTeam t f).cur = s.cur := rfl
@[simp] theorem modTeam_fresh (t : Nat) (f : Team → Team) : (s.modTeam t f).fresh = s.fresh := rfl

/-! ### `modGrid` -/

@[simp] theorem modGrid_mem (g : Nat) (f : Grid → Grid) : (s.modGrid g f).mem = s.mem := rfl
@[simp] theorem modGrid_poison (g : Nat) (f : Grid → Grid) : (s.modGrid g f).poison = s.poison := rfl
@[simp] theorem modGrid_front (g : Nat) (f : Grid → Grid) : (s.modGrid g f).front = s.front := rfl
@[simp] theorem modGrid_sup (g : Nat) (f : Grid → Grid) : (s.modGrid g f).sup = s.sup := rfl
@[simp] theorem modGrid_gens (g : Nat) (f : Grid → Grid) : (s.modGrid g f).gens = s.gens := rfl
@[simp] theorem modGrid_grids (g : Nat) (f : Grid → Grid) : (s.modGrid g f).grids = Tab.modify s.grids g f := rfl
@[simp] theorem modGrid_teams (g : Nat) (f : Grid → Grid) : (s.modGrid g f).teams = s.teams := rfl
@[simp] theorem modGrid_groups (g : Nat) (f : Grid → Grid) : (s.modGrid g f).groups = s.groups := rfl
@[simp] theorem modGrid_nextId (g : Nat) (f : Grid → Grid) : (s.modGrid g f).nextId = s.nextId := rfl
@[simp] theorem modGrid_cores (g : Nat) (f : Grid → Grid) : (s.modGrid g f).cores = s.cores := rfl
@[simp] theorem modGrid_clusters (g : Nat) (f : Grid → Grid) : (s.modGrid g f).clusters = s.clusters := rfl
@[simp] theorem modGrid_dies (g : Nat) (f : Grid → Grid) : (s.modGrid g f).dies = s.dies := rfl
@[simp] theorem modGrid_ports (g : Nat) (f : Grid → Grid) : (s.modGrid g f).ports = s.ports := rfl
@[simp] theorem modGrid_barriers (g : Nat) (f : Grid → Grid) : (s.modGrid g f).barriers = s.barriers := rfl
@[simp] theorem modGrid_signals (g : Nat) (f : Grid → Grid) : (s.modGrid g f).signals = s.signals := rfl
@[simp] theorem modGrid_offers (g : Nat) (f : Grid → Grid) : (s.modGrid g f).offers = s.offers := rfl
@[simp] theorem modGrid_tc0 (g : Nat) (f : Grid → Grid) : (s.modGrid g f).tc0 = s.tc0 := rfl
@[simp] theorem modGrid_sysev (g : Nat) (f : Grid → Grid) : (s.modGrid g f).sysev = s.sysev := rfl
@[simp] theorem modGrid_errs (g : Nat) (f : Grid → Grid) : (s.modGrid g f).errs = s.errs := rfl
@[simp] theorem modGrid_agenda (g : Nat) (f : Grid → Grid) : (s.modGrid g f).agenda = s.agenda := rfl
@[simp] theorem modGrid_cur (g : Nat) (f : Grid → Grid) : (s.modGrid g f).cur = s.cur := rfl
@[simp] theorem modGrid_fresh (g : Nat) (f : Grid → Grid) : (s.modGrid g f).fresh = s.fresh := rfl

/-! ### `tickFresh` -/

@[simp] theorem tickFresh_mem : (s.tickFresh).mem = s.mem := rfl
@[simp] theorem tickFresh_poison : (s.tickFresh).poison = s.poison := rfl
@[simp] theorem tickFresh_front : (s.tickFresh).front = s.front := rfl
@[simp] theorem tickFresh_sup : (s.tickFresh).sup = s.sup := rfl
@[simp] theorem tickFresh_gens : (s.tickFresh).gens = s.gens := rfl
@[simp] theorem tickFresh_grids : (s.tickFresh).grids = s.grids := rfl
@[simp] theorem tickFresh_teams : (s.tickFresh).teams = s.teams := rfl
@[simp] theorem tickFresh_groups : (s.tickFresh).groups = s.groups := rfl
@[simp] theorem tickFresh_nextId : (s.tickFresh).nextId = s.nextId := rfl
@[simp] theorem tickFresh_cores : (s.tickFresh).cores = s.cores := rfl
@[simp] theorem tickFresh_clusters : (s.tickFresh).clusters = s.clusters := rfl
@[simp] theorem tickFresh_dies : (s.tickFresh).dies = s.dies := rfl
@[simp] theorem tickFresh_ports : (s.tickFresh).ports = s.ports := rfl
@[simp] theorem tickFresh_barriers : (s.tickFresh).barriers = s.barriers := rfl
@[simp] theorem tickFresh_signals : (s.tickFresh).signals = s.signals := rfl
@[simp] theorem tickFresh_offers : (s.tickFresh).offers = s.offers := rfl
@[simp] theorem tickFresh_tc0 : (s.tickFresh).tc0 = s.tc0 := rfl
@[simp] theorem tickFresh_sysev : (s.tickFresh).sysev = s.sysev := rfl
@[simp] theorem tickFresh_errs : (s.tickFresh).errs = s.errs := rfl
@[simp] theorem tickFresh_agenda : (s.tickFresh).agenda = s.agenda := rfl
@[simp] theorem tickFresh_cur : (s.tickFresh).cur = s.cur := rfl
@[simp] theorem tickFresh_fresh : (s.tickFresh).fresh = s.fresh + 1 := rfl

/-! ### Accessors after updates -/

@[simp] theorem setCore_die (c : Nat) (x : Core) (j : Nat) : (s.setCore c x).die j = s.die j := rfl
@[simp] theorem setCore_cluster (c : Nat) (x : Core) (j : Nat) : (s.setCore c x).cluster j = s.cluster j := rfl
@[simp] theorem setCore_port (c : Nat) (x : Core) (j : Nat) : (s.setCore c x).port j = s.port j := rfl
@[simp] theorem setCore_group (c : Nat) (x : Core) (j : Nat) : (s.setCore c x).group j = s.group j := rfl
@[simp] theorem setCore_team (c : Nat) (x : Core) (j : Nat) : (s.setCore c x).team j = s.team j := rfl
@[simp] theorem setCore_grid (c : Nat) (x : Core) (j : Nat) : (s.setCore c x).grid j = s.grid j := rfl
@[simp] theorem setDie_core (d : Nat) (x : Die) (j : Nat) : (s.setDie d x).core j = s.core j := rfl
@[simp] theorem setDie_cluster (d : Nat) (x : Die) (j : Nat) : (s.setDie d x).cluster j = s.cluster j := rfl
@[simp] theorem setDie_port (d : Nat) (x : Die) (j : Nat) : (s.setDie d x).port j = s.port j := rfl
@[simp] theorem setDie_group (d : Nat) (x : Die) (j : Nat) : (s.setDie d x).group j = s.group j := rfl
@[simp] theorem setDie_team (d : Nat) (x : Die) (j : Nat) : (s.setDie d x).team j = s.team j := rfl
@[simp] theorem setDie_grid (d : Nat) (x : Die) (j : Nat) : (s.setDie d x).grid j = s.grid j := rfl
@[simp] theorem setGroup_core (k : Nat) (g : Group) (j : Nat) : (s.setGroup k g).core j = s.core j := rfl
@[simp] theorem setGroup_die (k : Nat) (g : Group) (j : Nat) : (s.setGroup k g).die j = s.die j := rfl
@[simp] theorem setGroup_cluster (k : Nat) (g : Group) (j : Nat) : (s.setGroup k g).cluster j = s.cluster j := rfl
@[simp] theorem setGroup_port (k : Nat) (g : Group) (j : Nat) : (s.setGroup k g).port j = s.port j := rfl
@[simp] theorem setGroup_team (k : Nat) (g : Group) (j : Nat) : (s.setGroup k g).team j = s.team j := rfl
@[simp] theorem setGroup_grid (k : Nat) (g : Group) (j : Nat) : (s.setGroup k g).grid j = s.grid j := rfl
@[simp] theorem setTeam_core (t : Nat) (x : Team) (j : Nat) : (s.setTeam t x).core j = s.core j := rfl
@[simp] theorem setTeam_die (t : Nat) (x : Team) (j : Nat) : (s.setTeam t x).die j = s.die j := rfl
@[simp] theorem setTeam_cluster (t : Nat) (x : Team) (j : Nat) : (s.setTeam t x).cluster j = s.cluster j := rfl
@[simp] theorem setTeam_port (t : Nat) (x : Team) (j : Nat) : (s.setTeam t x).port j = s.port j := rfl
@[simp] theorem setTeam_group (t : Nat) (x : Team) (j : Nat) : (s.setTeam t x).group j = s.group j := rfl
@[simp] theorem setTeam_grid (t : Nat) (x : Team) (j : Nat) : (s.setTeam t x).grid j = s.grid j := rfl
@[simp] theorem setGrid_core (g : Nat) (x : Grid) (j : Nat) : (s.setGrid g x).core j = s.core j := rfl
@[simp] theorem setGrid_die (g : Nat) (x : Grid) (j : Nat) : (s.setGrid g x).die j = s.die j := rfl
@[simp] theorem setGrid_cluster (g : Nat) (x : Grid) (j : Nat) : (s.setGrid g x).cluster j = s.cluster j := rfl
@[simp] theorem setGrid_port (g : Nat) (x : Grid) (j : Nat) : (s.setGrid g x).port j = s.port j := rfl
@[simp] theorem setGrid_group (g : Nat) (x : Grid) (j : Nat) : (s.setGrid g x).group j = s.group j := rfl
@[simp] theorem setGrid_team (g : Nat) (x : Grid) (j : Nat) : (s.setGrid g x).team j = s.team j := rfl
@[simp] theorem setCluster_core (c : Nat) (x : Cluster) (j : Nat) : (s.setCluster c x).core j = s.core j := rfl
@[simp] theorem setCluster_die (c : Nat) (x : Cluster) (j : Nat) : (s.setCluster c x).die j = s.die j := rfl
@[simp] theorem setCluster_port (c : Nat) (x : Cluster) (j : Nat) : (s.setCluster c x).port j = s.port j := rfl
@[simp] theorem setCluster_group (c : Nat) (x : Cluster) (j : Nat) : (s.setCluster c x).group j = s.group j := rfl
@[simp] theorem setCluster_team (c : Nat) (x : Cluster) (j : Nat) : (s.setCluster c x).team j = s.team j := rfl
@[simp] theorem setCluster_grid (c : Nat) (x : Cluster) (j : Nat) : (s.setCluster c x).grid j = s.grid j := rfl
@[simp] theorem setPort_core (p : Nat) (x : Port) (j : Nat) : (s.setPort p x).core j = s.core j := rfl
@[simp] theorem setPort_die (p : Nat) (x : Port) (j : Nat) : (s.setPort p x).die j = s.die j := rfl
@[simp] theorem setPort_cluster (p : Nat) (x : Port) (j : Nat) : (s.setPort p x).cluster j = s.cluster j := rfl
@[simp] theorem setPort_group (p : Nat) (x : Port) (j : Nat) : (s.setPort p x).group j = s.group j := rfl
@[simp] theorem setPort_team (p : Nat) (x : Port) (j : Nat) : (s.setPort p x).team j = s.team j := rfl
@[simp] theorem setPort_grid (p : Nat) (x : Port) (j : Nat) : (s.setPort p x).grid j = s.grid j := rfl
@[simp] theorem modCore_die (c : Nat) (f : Core → Core) (j : Nat) : (s.modCore c f).die j = s.die j := rfl
@[simp] theorem modCore_cluster (c : Nat) (f : Core → Core) (j : Nat) : (s.modCore c f).cluster j = s.cluster j := rfl
@[simp] theorem modCore_port (c : Nat) (f : Core → Core) (j : Nat) : (s.modCore c f).port j = s.port j := rfl
@[simp] theorem modCore_group (c : Nat) (f : Core → Core) (j : Nat) : (s.modCore c f).group j = s.group j := rfl
@[simp] theorem modCore_team (c : Nat) (f : Core → Core) (j : Nat) : (s.modCore c f).team j = s.team j := rfl
@[simp] theorem modCore_grid (c : Nat) (f : Core → Core) (j : Nat) : (s.modCore c f).grid j = s.grid j := rfl
@[simp] theorem modDie_core (d : Nat) (f : Die → Die) (j : Nat) : (s.modDie d f).core j = s.core j := rfl
@[simp] theorem modDie_cluster (d : Nat) (f : Die → Die) (j : Nat) : (s.modDie d f).cluster j = s.cluster j := rfl
@[simp] theorem modDie_port (d : Nat) (f : Die → Die) (j : Nat) : (s.modDie d f).port j = s.port j := rfl
@[simp] theorem modDie_group (d : Nat) (f : Die → Die) (j : Nat) : (s.modDie d f).group j = s.group j := rfl
@[simp] theorem modDie_team (d : Nat) (f : Die → Die) (j : Nat) : (s.modDie d f).team j = s.team j := rfl
@[simp] theorem modDie_grid (d : Nat) (f : Die → Die) (j : Nat) : (s.modDie d f).grid j = s.grid j := rfl
@[simp] theorem modGroup_core (k : Nat) (f : Group → Group) (j : Nat) : (s.modGroup k f).core j = s.core j := rfl
@[simp] theorem modGroup_die (k : Nat) (f : Group → Group) (j : Nat) : (s.modGroup k f).die j = s.die j := rfl
@[simp] theorem modGroup_cluster (k : Nat) (f : Group → Group) (j : Nat) : (s.modGroup k f).cluster j = s.cluster j := rfl
@[simp] theorem modGroup_port (k : Nat) (f : Group → Group) (j : Nat) : (s.modGroup k f).port j = s.port j := rfl
@[simp] theorem modGroup_team (k : Nat) (f : Group → Group) (j : Nat) : (s.modGroup k f).team j = s.team j := rfl
@[simp] theorem modGroup_grid (k : Nat) (f : Group → Group) (j : Nat) : (s.modGroup k f).grid j = s.grid j := rfl
@[simp] theorem modTeam_core (t : Nat) (f : Team → Team) (j : Nat) : (s.modTeam t f).core j = s.core j := rfl
@[simp] theorem modTeam_die (t : Nat) (f : Team → Team) (j : Nat) : (s.modTeam t f).die j = s.die j := rfl
@[simp] theorem modTeam_cluster (t : Nat) (f : Team → Team) (j : Nat) : (s.modTeam t f).cluster j = s.cluster j := rfl
@[simp] theorem modTeam_port (t : Nat) (f : Team → Team) (j : Nat) : (s.modTeam t f).port j = s.port j := rfl
@[simp] theorem modTeam_group (t : Nat) (f : Team → Team) (j : Nat) : (s.modTeam t f).group j = s.group j := rfl
@[simp] theorem modTeam_grid (t : Nat) (f : Team → Team) (j : Nat) : (s.modTeam t f).grid j = s.grid j := rfl
@[simp] theorem modGrid_core (g : Nat) (f : Grid → Grid) (j : Nat) : (s.modGrid g f).core j = s.core j := rfl
@[simp] theorem modGrid_die (g : Nat) (f : Grid → Grid) (j : Nat) : (s.modGrid g f).die j = s.die j := rfl
@[simp] theorem modGrid_cluster (g : Nat) (f : Grid → Grid) (j : Nat) : (s.modGrid g f).cluster j = s.cluster j := rfl
@[simp] theorem modGrid_port (g : Nat) (f : Grid → Grid) (j : Nat) : (s.modGrid g f).port j = s.port j := rfl
@[simp] theorem modGrid_group (g : Nat) (f : Grid → Grid) (j : Nat) : (s.modGrid g f).group j = s.group j := rfl
@[simp] theorem modGrid_team (g : Nat) (f : Grid → Grid) (j : Nat) : (s.modGrid g f).team j = s.team j := rfl
@[simp] theorem tickFresh_core (j : Nat) : (s.tickFresh).core j = s.core j := rfl
@[simp] theorem tickFresh_die (j : Nat) : (s.tickFresh).die j = s.die j := rfl
@[simp] theorem tickFresh_cluster (j : Nat) : (s.tickFresh).cluster j = s.cluster j := rfl
@[simp] theorem tickFresh_port (j : Nat) : (s.tickFresh).port j = s.port j := rfl
@[simp] theorem tickFresh_group (j : Nat) : (s.tickFresh).group j = s.group j := rfl
@[simp] theorem tickFresh_team (j : Nat) : (s.tickFresh).team j = s.team j := rfl
@[simp] theorem tickFresh_grid (j : Nat) : (s.tickFresh).grid j = s.grid j := rfl

theorem core_setCore (c : Nat) (x : Core) (j : Nat) : (s.setCore c x).core j = if j = c then x else s.core j :=
  Tab.getD_set _ _ _ _ _
theorem core_modCore (c : Nat) (f : Core → Core) (j : Nat) :
    (s.modCore c f).core j = if j = c then f (s.core c) else s.core j := Tab.getD_set _ _ _ _ _
theorem die_setDie (d : Nat) (x : Die) (j : Nat) : (s.setDie d x).die j = if j = d then x else s.die j :=
  Tab.getD_set _ _ _ _ _
theorem die_modDie (d : Nat) (f : Die → Die) (j : Nat) : (s.modDie d f).die j = if j = d then f (s.die d) else s.die j :=
  Tab.getD_set _ _ _ _ _
theorem cluster_setCluster (c : Nat) (x : Cluster) (j : Nat) :
    (s.setCluster c x).cluster j = if j = c then x else s.cluster j := Tab.getD_set _ _ _ _ _
theorem port_setPort (p : Nat) (x : Port) (j : Nat) : (s.setPort p x).port j = if j = p then x else s.port j :=
  Tab.getD_set _ _ _ _ _
theorem group_setGroup (k : Nat) (g : Group) (j : Nat) : (s.setGroup k g).group j = if j = k then some g else s.group j :=
  Tab.get_set _ _ _ _
theorem group_modGroup (k : Nat) (f : Group → Group) (j : Nat) :
    (s.modGroup k f).group j = if j = k then (s.group k).map f else s.group j := Tab.get_modify _ _ _ _
theorem team_setTeam (t : Nat) (x : Team) (j : Nat) : (s.setTeam t x).team j = if j = t then some x else s.team j :=
  Tab.get_set _ _ _ _
theorem team_modTeam (t : Nat) (f : Team → Team) (j : Nat) :
    (s.modTeam t f).team j = if j = t then (s.team t).map f else s.team j := Tab.get_modify _ _ _ _
theorem grid_setGrid (g : Nat) (x : Grid) (j : Nat) : (s.setGrid g x).grid j = if j = g then some x else s.grid j :=
  Tab.get_set _ _ _ _
theorem grid_modGrid (g : Nat) (f : Grid → Grid) (j : Nat) :
    (s.modGrid g f).grid j = if j = g then (s.grid g).map f else s.grid j := Tab.get_modify _ _ _ _

@[simp] theorem core_setCore_self (c : Nat) (x : Core) : (s.setCore c x).core c = x := by simp [core_setCore]
@[simp] theorem core_modCore_self (c : Nat) (f : Core → Core) : (s.modCore c f).core c = f (s.core c) := by
  simp [core_modCore]
@[simp] theorem die_modDie_self (d : Nat) (f : Die → Die) : (s.modDie d f).die d = f (s.die d) := by simp [die_modDie]
@[simp] theorem cluster_setCluster_self (c : Nat) (x : Cluster) : (s.setCluster c x).cluster c = x := by
  simp [cluster_setCluster]
@[simp] theorem port_setPort_self (p : Nat) (x : Port) : (s.setPort p x).port p = x := by simp [port_setPort]
@[simp] theorem group_setGroup_self (k : Nat) (g : Group) : (s.setGroup k g).group k = some g := by simp [group_setGroup]
@[simp] theorem group_modGroup_self (k : Nat) (f : Group → Group) : (s.modGroup k f).group k = (s.group k).map f := by
  simp [group_modGroup]
@[simp] theorem team_setTeam_self (t : Nat) (x : Team) : (s.setTeam t x).team t = some x := by simp [team_setTeam]
@[simp] theorem team_modTeam_self (t : Nat) (f : Team → Team) : (s.modTeam t f).team t = (s.team t).map f := by
  simp [team_modTeam]
@[simp] theorem grid_setGrid_self (g : Nat) (x : Grid) : (s.setGrid g x).grid g = some x := by simp [grid_setGrid]

/-- A property of a core that `f` keeps holds of every core after `modCore`. -/
theorem core_modCore_of (c : Nat) (f : Core → Core) (j : Nat) {β : Type} (p : Core → β) (h : ∀ x, p (f x) = p x) :
    p ((s.modCore c f).core j) = p (s.core j) := by
  rw [core_modCore]; split
  · subst_vars; exact h _
  · rfl

theorem die_modDie_of (d : Nat) (f : Die → Die) (j : Nat) {β : Type} (p : Die → β) (h : ∀ x, p (f x) = p x) :
    p ((s.modDie d f).die j) = p (s.die j) := by
  rw [die_modDie]; split
  · subst_vars; exact h _
  · rfl

end State
end Sys2Proof.Machine
end

