-- ==== Sys2Proof/Laws/Issue.lean ====
section
/-!
SUPPORT. What a word that issues changes beside its own effect: `perform` leaves the state of the instruction's body but for
clocks, slots, register caches and the group's place in its program (`GoesOn`).
-/

namespace Sys2Proof.Machine

/-! ### `GoesOn` -/

theorem GoesOn.refl (s : State) : GoesOn s s := ⟨rfl, fun _ => rfl, fun _ => rfl, fun _ => rfl, fun _ => rfl⟩

theorem GoesOn.trans {s t u : State} (h : GoesOn s t) (i : GoesOn t u) : GoesOn s u :=
  ⟨i.rest.trans h.rest, fun j => (i.group j).trans (h.group j), fun c => (i.core c).trans (h.core c),
    fun d => (i.die d).trans (h.die d), fun j => (i.team j).trans (h.team j)⟩

theorem GoesOn.foldl {α : Type} {f : State → α → State} (h : ∀ s a, GoesOn s (f s a)) (l : List α) (s : State) :
    GoesOn s (l.foldl f s) := by
  induction l generalizing s with
  | nil => exact .refl s
  | cons a l ih => exact (h s a).trans (ih _)

/-- The group after it, where there was one before. -/
theorem GoesOn.groupSome {s t : State} (h : GoesOn s t) {k : Nat} {g : Group} (hg : s.group k = some g) :
    ∃ g', t.group k = some g' ∧ g'.still = g.still := by
  have := h.group k
  rw [hg] at this
  cases hk : t.group k with
  | none => rw [hk] at this; cases this
  | some g' => rw [hk] at this; exact ⟨g', rfl, Option.some.inj this⟩

theorem GoesOn.mem {s t : State} (h : GoesOn s t) : t.mem = s.mem := by
  have := congrArg State.mem h.rest
  exact this
theorem GoesOn.plane {s t : State} (h : GoesOn s t) (c : Nat) : (t.core c).plane = (s.core c).plane := by
  have := congrArg Core.plane (h.core c)
  exact this
theorem GoesOn.view {s t : State} (h : GoesOn s t) (c : Nat) : (t.core c).view = (s.core c).view := by
  have := congrArg Core.view (h.core c)
  exact this
theorem GoesOn.dieView {s t : State} (h : GoesOn s t) (d : Nat) : (t.die d).view = (s.die d).view := by
  have := congrArg Die.view (h.die d)
  exact this

theorem GoesOn.sameBytes {s t : State} (h : GoesOn s t) : SameBytes s t := by
  intro a
  have hh : homeByte t a = homeByte s a := by simp [homeByte, h.mem]
  have hd : ∀ d, dieByte t d a = dieByte s d a := fun d => by simp [dieByte, hh, h.dieView d]
  exact ⟨hh, hd, fun c => by simp [coreByte, hd, h.view c]⟩

theorem SameBytes.refl (s : State) : SameBytes s s := fun _ => ⟨rfl, fun _ => rfl, fun _ => rfl⟩
theorem SameBytes.trans {s t u : State} (h : SameBytes s t) (i : SameBytes t u) : SameBytes s u := fun a =>
  ⟨(i a).1.trans (h a).1, fun d => ((i a).2.1 d).trans ((h a).2.1 d), fun c => ((i a).2.2 c).trans ((h a).2.2 c)⟩

theorem Core.quiet_of_still {x y : Core} (h : x.still = y.still) (q : y.quiet) : x.quiet := by
  have h1 := congrArg Core.hiveW h
  have h2 := congrArg Core.ringT h
  exact ⟨Eq.trans h1 q.1, Eq.trans h2 q.2⟩

/-! ### Updates that only go on -/

theorem goesOn_modCore (s : State) (c : Nat) (f : Core → Core) (h : ∀ x, (f x).still = x.still) :
    GoesOn s (s.modCore c f) :=
  ⟨rfl, fun _ => rfl, fun j => State.core_modCore_of s c f j Core.still h, fun _ => rfl, fun _ => rfl⟩

theorem goesOn_modDie (s : State) (d : Nat) (f : Die → Die) (h : ∀ x, (f x).still = x.still) : GoesOn s (s.modDie d f) :=
  ⟨rfl, fun _ => rfl, fun _ => rfl, fun j => State.die_modDie_of s d f j Die.still h, fun _ => rfl⟩

theorem goesOn_modGroup (s : State) (k : Nat) (f : Group → Group) (h : ∀ g, (f g).still = g.still) :
    GoesOn s (s.modGroup k f) := by
  refine ⟨rfl, fun j => ?_, fun _ => rfl, fun _ => rfl, fun _ => rfl⟩
  rw [State.group_modGroup]
  split
  · subst_vars; cases s.group j <;> simp [h]
  · rfl

theorem goesOn_setGroup (s : State) (k : Nat) (g g' : Group) (hg : s.group k = some g) (h : g'.still = g.still) :
    GoesOn s (s.setGroup k g') := by
  refine ⟨rfl, fun j => ?_, fun _ => rfl, fun _ => rfl, fun _ => rfl⟩
  rw [State.group_setGroup]
  split
  · subst_vars; simp [hg, h]
  · rfl

theorem goesOn_setCore (s : State) (c : Nat) (x : Core) (h : x.still = (s.core c).still) : GoesOn s (s.setCore c x) := by
  refine ⟨rfl, fun _ => rfl, fun j => ?_, fun _ => rfl, fun _ => rfl⟩
  rw [State.core_setCore]
  split
  · subst_vars; exact h
  · rfl

theorem goesOn_tickFresh (s : State) : GoesOn s s.tickFresh :=
  ⟨rfl, fun _ => rfl, fun _ => rfl, fun _ => rfl, fun _ => rfl⟩

/-- Changes to the groups one by one, each no more than going on. -/
theorem goesOn_mapGroups (s : State) (f : Nat → Group → Group) (h : ∀ k g, (f k g).still = g.still) :
    GoesOn s { s with groups := s.groups.map (fun x => (x.1, f x.1 x.2)) } := by
  refine ⟨rfl, fun j => ?_, fun _ => rfl, fun _ => rfl, fun _ => rfl⟩
  simp only [State.group, Tab.get_map]
  cases Tab.get s.groups j <;> simp [h]

/-! ### Register caches -/

theorem still_foldl {α : Type} {f : Core → α → Core} (h : ∀ c a, (f c a).still = c.still) (l : List α) (c : Core) :
    (l.foldl f c).still = c.still := by
  induction l generalizing c with
  | nil => rfl
  | cons a l ih => exact (ih _).trans (h c a)

@[simp] theorem Core.wakeL_still (c : Core) (b : Nat) : (c.wakeL b).still = c.still := rfl
@[simp] theorem Core.sleepL_still (c : Core) : c.sleepL.still = c.still := rfl
@[simp] theorem Core.mapRows_still (c : Core) (f : RowOwn → Option RowOwn) : (c.mapRows f).still = c.still := rfl
@[simp] theorem Core.mapEnts_still (c : Core) (f : RowOwn → Option RowOwn) : (c.mapEnts f).still = c.still := rfl
@[simp] theorem Core.dropKept_still (c : Core) (k : Nat) : (c.dropKept k).still = c.still := rfl

@[simp] theorem Core.takeRow_still (c : Core) (k n x : Nat) : (c.takeRow k n x).still = c.still := by
  unfold Core.takeRow; split <;> rfl
@[simp] theorem Core.takeEntry_still (c : Core) (k n : Nat) : (c.takeEntry k n).still = c.still := by
  unfold Core.takeEntry; split <;> rfl
@[simp] theorem Core.claim_still (c : Core) (k foot : Nat) (r : Reg) : (c.claim k foot r).still = c.still := by
  cases r with
  | s n => simp only [Core.claim]; split <;> simp
  | v n => exact still_foldl (fun c a => by split <;> simp) _ _
@[simp] theorem Core.release_still (c : Core) (k : Nat) (keep : Bool) (r : Reg) : (c.release k keep r).still = c.still := by
  cases r <;> rfl
@[simp] theorem Core.wakeReg_still (c : Core) (k : Nat) (r : Reg) : (c.wakeReg k r).still = c.still := by
  cases r with
  | s n => rfl
  | v n => exact still_foldl (fun c a => by split <;> rfl) _ _
@[simp] theorem Core.touch_still (c : Core) (k : Nat) (w : Bool) (r : Reg) : (c.touch k w r).still = c.still := by
  cases r with
  | s n => rfl
  | v n => exact Core.wakeReg_still _ _ _
@[simp] theorem Core.settle_still (c : Core) (k : Nat) (r : Reg) : (c.settle k r).still = c.still := by cases r <;> rfl

@[simp] theorem Core.turnover_still (c : Core) (k : Nat) (g : Group) (frees dests : List Reg) :
    (c.turnover k g frees dests).still = c.still := by
  unfold Core.turnover
  simp only [Core.sleepL_still]
  refine (still_foldl (fun c r => Core.touch_still c k true r) _ _).trans ?_
  refine (still_foldl (fun c r => Core.settle_still c k r) _ _).trans ?_
  refine (still_foldl (fun c r => Core.release_still c k _ r) _ _).trans ?_
  refine (still_foldl (fun c r => Core.claim_still c k _ r) _ _).trans ?_
  refine still_foldl (fun c r => ?_) _ _
  cases r with
  | s n => simp only; split <;> simp
  | v n => exact still_foldl (fun c a => Core.takeRow_still c k _ a) _ _

/-! ### Operations that only go on -/

theorem goesOn_closeRegion (s : State) (k : Nat) : GoesOn s (closeRegion s k) := by
  unfold closeRegion
  split
  · exact .refl s
  · rename_i g hg
    split
    · exact .refl s
    · exact (goesOn_setGroup s k g { g with region := none } hg rfl).trans
        (goesOn_modCore _ _ (fun c => c.dropKept k) (fun c => Core.dropKept_still c k))

theorem goesOn_leaveActive (s : State) (c k : Nat) : GoesOn s (leaveActive s c k) := goesOn_modCore _ _ _ (fun _ => rfl)

theorem Group.noteTouch_still (g : Group) (r : Reg) : (g.noteTouch r).still = g.still := by
  unfold Group.noteTouch
  split
  · rfl
  · split <;> rfl

theorem goesOn_noteTouches (s : State) (k : Nat) (rs : List Reg) : GoesOn s (noteTouches s k rs) := by
  refine goesOn_modGroup s k _ (fun g => ?_)
  induction rs generalizing g with
  | nil => rfl
  | cons r rs ih => exact (ih _).trans (Group.noteTouch_still g r)

theorem goesOn_turnRows (s : State) (k : Nat) (g : Group) (frees dests : List Reg) :
    GoesOn s (turnRows s k g frees dests) := by
  unfold turnRows
  simp only
  split
  · exact (goesOn_closeRegion s k).trans (goesOn_modCore _ _ _ (fun _ => by simp))
  · exact (goesOn_setCore s _ _ (by simp)).trans (goesOn_noteTouches _ _ _)

theorem goesOn_mend (s : State) (p : ErrSite → Bool) : GoesOn s (s.mend p) := by
  refine ⟨rfl, fun _ => rfl, fun _ => rfl, fun d => ?_, fun _ => rfl⟩
  simp only [State.mend, State.die]
  split
  · have := Tab.get_map s.dies (fun _ x => { x with
      rebuilds := x.rebuilds.filter (fun q => !p q), scrubs := x.scrubs.filter (fun q => !p q) }) d
    simp only [Tab.getD, this]
    cases Tab.get s.dies d <;> rfl
  · rfl

theorem goesOn_mendRows (s : State) (k : Nat) (g : Group) (old : Core) (r : Reg) (m : Nat → Bool) :
    GoesOn s (mendRows s k g old r m) := by
  unfold mendRows
  split
  · exact .refl s
  · cases r <;> exact goesOn_mend _ _

theorem Core.clocked_still (x : Core) (d : Nat) (q : x.quiet) : (x.clocked d).still = x.still := by
  obtain ⟨h1, h2⟩ := q
  simp [Core.still, Core.clocked, h1, h2]

theorem goesOn_countAll (s : State) (c d : Nat) : GoesOn s (countAll s c d) := by
  have h := goesOn_mapGroups s (fun k g => if g.id.core == c && s.counts k g then g.counted d else g)
    (fun _ g => by split <;> rfl)
  exact h

/-- Clocks of a core in which nothing lands. -/
theorem goesOn_elapse (s : State) (c d : Nat) (q : (s.core c).quiet) : GoesOn s (elapse s c d) := by
  unfold elapse
  simp only [q.1, q.2, List.filter_nil, List.foldl_nil]
  exact (goesOn_setCore s c _ (Core.clocked_still _ _ q)).trans (goesOn_countAll _ _ _)

theorem goesOn_settleClock (s : State) (c : Nat) (q : (s.core c).quiet) : GoesOn s (settleClock s c) :=
  (goesOn_elapse s c _ q).trans (goesOn_tickFresh _)

theorem goesOn_passOver (s : State) (ks : List Nat) : GoesOn s (s.passOver ks) :=
  goesOn_mapGroups s (fun j g => if ks.contains j then g.passOver else g) (fun _ g => by split <;> rfl)

theorem goesOn_enterActive (s : State) (core i k : Nat) : GoesOn s (enterActive s core i k) := by
  unfold enterActive
  refine (goesOn_modGroup s k _ (fun g => ?_)).trans (goesOn_modCore _ _ _ (fun x => ?_)) <;> rfl

/-- A swap: two groups change places, and others have been passed over. -/
theorem goesOn_swapOut (s : State) (core i x k : Nat) (f : Group → Group) (hf : ∀ g, (f g).still = g.still) :
    GoesOn s (swapOut s core i x k f) :=
  ((goesOn_modGroup s x (fun g => (f g).swappedOut (s.core core).clk) (fun g => hf g)).trans (goesOn_passOver _ _)).trans
    (goesOn_enterActive _ _ _ _)

theorem goesOn_yield (s : State) (k : Nat) : GoesOn s (yield s k) := by
  unfold yield
  split
  · exact .refl s
  · split
    · exact .refl s
    · split
      · exact .refl s
      · exact goesOn_swapOut _ _ _ _ _ _ (fun _ => rfl)

theorem goesOn_applySched (s : State) (k : Nat) (b : Option Bundle) (dests : List Reg) : GoesOn s (applySched s k b dests) := by
  have h := goesOn_modGroup s k (fun g => g.stalling dests (stallOf b)) (fun _ => rfl)
  unfold applySched
  dsimp only
  split
  · rename_i p _ _
    have h2 := h.trans (goesOn_modGroup _ k (fun g => g.hinted p.toNat) (fun _ => rfl))
    split
    · exact h2.trans (goesOn_yield _ _)
    · exact h2
  · exact h

theorem Group.advance_still (g : Group) (clk : Nat) (dest : Option Word) : (advance g clk dest).still = g.still := by
  unfold advance
  simp only
  split
  · split
    · split <;> rfl
    · rfl
  · rfl

theorem goesOn_goOn {s : State} {k : Nat} {g : Group} (w : W32) (dest : Option Word) (dests : List Reg) (hg : s.group k = some g) :
    GoesOn s (goOn s k g w dest dests) := by
  unfold goOn
  simp only
  have h1 := goesOn_modCore s g.id.core (fun x => x.taken (slotsOf w g.id.foot) k) (fun _ => rfl)
  have h2 := h1.trans (goesOn_setGroup _ k g (advance g (s.core g.id.core).clk dest) (by simpa using hg) (Group.advance_still _ _ _))
  have h3 := h2.trans (goesOn_applySched _ k g.bundle dests)
  split
  · exact h3.trans (goesOn_yield _ _)
  · exact h3

theorem goesOn_finish (s : State) (k : Nat) (w : W32) (dest : Option Word) (dests : List Reg)
    (q : ∀ g, s.group k = some g → (s.core g.id.core).quiet) : GoesOn s (finish s k w dest dests) := by
  unfold finish
  split
  · exact .refl s
  · rename_i g hg
    have h := goesOn_goOn w dest dests hg
    exact h.trans (goesOn_settleClock _ _ (Core.quiet_of_still (h.core _) (q g hg)))

/-! ### Before and after the instruction's own effect -/

@[simp] theorem Group.closedBy_id (g : Group) (n : Need) : (g.closedBy n).id = g.id := by
  unfold Group.closedBy; split <;> rfl

theorem dropPending_group (s : State) (k c : Nat) (rs : List Reg) (j : Nat) :
    (dropPending s k c rs).group j = if j = k then (s.group k).map (fun g => g.discardAll rs) else s.group j := by
  simp only [dropPending, State.modCore_group, State.group_modGroup, Group.discardAll]

theorem closeRegion_group (s : State) (k j : Nat) :
    (closeRegion s k).group j = if j = k then (s.group k).map (fun g => { g with region := none }) else s.group j := by
  unfold closeRegion
  cases hg : s.group k with
  | none => by_cases h : j = k <;> simp_all
  | some g =>
    simp only
    cases hr : g.region with
    | none =>
      by_cases h : j = k
      · subst h; simp only [hg, if_true, Option.map_some]; rw [← hr]
      · simp [h]
    | some _ => simp [State.group_setGroup]

/-- The group an instruction's own effect starts from. -/
theorem startWord_group {s : State} {k : Nat} {g : Group} (core : Nat) (n : Need) (hg : s.group k = some g) :
    (startWord s k core n).group k = some ((g.closedBy n).begun n) := by
  unfold startWord Group.closedBy Group.begun
  rw [State.group_modGroup_self, dropPending_group, if_pos rfl]
  cases n.closes <;> simp [hg, closeRegion_group]

theorem dropPending_still (s : State) (k c : Nat) (rs : List Reg) : (dropPending s k c rs).still = s.still := rfl

theorem dropPending_core (s : State) (k c : Nat) (rs : List Reg) (q : (s.core c).quiet) (j : Nat) :
    ((dropPending s k c rs).core j).still = (s.core j).still := by
  unfold dropPending
  rw [State.core_modCore]
  split
  · subst_vars
    rw [State.modGroup_core]
    obtain ⟨h1, h2⟩ := q
    simp [Core.still, h1]
  · rfl

/-- The instruction's own effect starts from the state with nothing but its group changed. -/
theorem startWord_goesOn {s : State} {k : Nat} {g : Group} {core : Nat} (n : Need) (hg : s.group k = some g)
    (q : (s.core core).quiet) : GoesOn (s.setGroup k ((g.closedBy n).begun n)) (startWord s k core n) := by
  have hs := startWord_group core n hg
  have hc : GoesOn s (if n.closes = true then closeRegion s k else s) := by
    split
    · exact goesOn_closeRegion s k
    · exact .refl s
  refine ⟨hc.rest, fun j => ?_, fun c => ?_, fun d => hc.die d, fun j => hc.team j⟩
  · rw [State.group_setGroup]
    split
    · subst_vars; rw [hs]
    · rename_i h
      have := hc.group j
      simp only [startWord, State.group_modGroup, dropPending_group, if_neg h]
      exact this
  · have h1 := dropPending_core (if n.closes = true then closeRegion s k else s) k core (n.frees ++ n.dests)
      (Core.quiet_of_still (hc.core _) q) c
    exact h1.trans (hc.core c)

theorem goesOn_turnWord (s : State) (k : Nat) (g : Group) (n : Need) : GoesOn s (turnWord s k g n) := by
  unfold turnWord
  simp only
  refine ((goesOn_turnRows s k g _ _).trans (goesOn_modCore _ _ _ (fun x => ?_))).trans
    (GoesOn.foldl (fun s r => goesOn_mendRows s k g _ r _) _ _)
  exact still_foldl (fun c r => Core.touch_still c k false r) _ _

/-- A group keeps its identity. -/
theorem GoesOn.sameId {s t : State} (h : GoesOn s t) {k : Nat} {g g' : Group} (hg : s.group k = some g)
    (ht : t.group k = some g') : g'.id = g.id := by
  obtain ⟨x, hx, e⟩ := h.groupSome hg
  rw [ht] at hx
  cases hx
  have := congrArg Group.id e
  exact this

/-- An instruction leaves what its body leaves, but for what every word that issues changes. -/
theorem perform_goesOn {s : State} {k : Nat} {g : Group} {w : W32} {n : Need} {body : State → Done}
    (ha : (body (startWord s k g.id.core n)).after = none)
    (hl : (body (startWord s k g.id.core n)).last = id)
    (q : ∀ g', (body (startWord s k g.id.core n)).s.group k = some g' →
      ((body (startWord s k g.id.core n)).s.core g'.id.core).quiet) :
    GoesOn (body (startWord s k g.id.core n)).s (perform s k g w n body) := by
  unfold perform
  simp only [Group.closedBy_id, ha, hl]
  have h1 := goesOn_turnWord (body (startWord s k g.id.core n)).s k (g.closedBy n) n
  refine h1.trans (goesOn_finish _ k w _ _ (fun g' hg' => ?_))
  cases hk : (body (startWord s k g.id.core n)).s.group k with
  | none =>
    have := h1.group k
    rw [hk, hg'] at this
    cases this
  | some x =>
    rw [h1.sameId hk hg']
    exact Core.quiet_of_still (h1.core _) (q x hk)

/-- A word that nothing holds back, and that its own checks let pass, is performed. -/
theorem issue_clear {w : W32} {need : Group → Need} {gate : Nat → Group → State → Gate} {body : Nat → Group → State → Done}
    {s : State} {k : Nat} {g : Group} (c : Clear s k g w (need g)) (hg : gate k g s = .pass) :
    issue w need gate body s = .next (perform s k g w (need g) (body k g)) := by
  unfold issue issueAt
  simp only [c.issuer.1, c.issuer.2, c.slots, c.held, c.legal, if_neg c.lanes, c.regs, hg, Bool.not_true, Bool.false_eq_true,
    if_false]

/-! ### Where the group goes on -/

/-- Every group stands where it stood. -/
def SamePlace (s t : State) : Prop := ∀ j, (t.group j).map Group.place = (s.group j).map Group.place

theorem SamePlace.refl (s : State) : SamePlace s s := fun _ => rfl
theorem SamePlace.trans {s t u : State} (h : SamePlace s t) (i : SamePlace t u) : SamePlace s u :=
  fun j => (i j).trans (h j)
theorem SamePlace.of_groups {s t : State} (h : ∀ j, t.group j = s.group j) : SamePlace s t := fun j => by rw [h j]

theorem samePlace_setGroup {s : State} {k : Nat} {g g' : Group} (hg : s.group k = some g) (h : g'.place = g.place) :
    SamePlace s (s.setGroup k g') := by
  intro j
  rw [State.group_setGroup]
  split
  · subst_vars; simp [hg, h]
  · rfl

theorem samePlace_modGroup (s : State) (k : Nat) (f : Group → Group) (h : ∀ g, (f g).place = g.place) :
    SamePlace s (s.modGroup k f) := by
  intro j
  rw [State.group_modGroup]
  split
  · subst_vars; cases s.group j <;> simp [h]
  · rfl

theorem samePlace_closeRegion (s : State) (k : Nat) : SamePlace s (closeRegion s k) := by
  intro j
  rw [closeRegion_group]
  split
  · subst_vars; cases s.group j <;> rfl
  · rfl

theorem samePlace_noteTouches (s : State) (k : Nat) (rs : List Reg) : SamePlace s (noteTouches s k rs) := by
  refine samePlace_modGroup s k _ (fun g => ?_)
  induction rs generalizing g with
  | nil => rfl
  | cons r rs ih =>
    refine (ih _).trans ?_
    unfold Group.noteTouch
    split
    · rfl
    · split <;> rfl

theorem samePlace_mendRows (s : State) (k : Nat) (g : Group) (old : Core) (r : Reg) (m : Nat → Bool) :
    SamePlace s (mendRows s k g old r m) := by
  refine .of_groups (fun j => ?_)
  unfold mendRows
  split
  · rfl
  · cases r <;> rfl

theorem samePlace_turnWord (s : State) (k : Nat) (g : Group) (n : Need) : SamePlace s (turnWord s k g n) := by
  unfold turnWord
  simp only
  have h1 : SamePlace s (turnRows s k g n.frees n.dests) := by
    unfold turnRows
    simp only
    split
    · exact samePlace_closeRegion s k
    · exact samePlace_noteTouches (s.setCore g.id.core _) k _
  have h2 : ∀ (l : List Reg) (t : State), SamePlace s t →
      SamePlace s (l.foldl (fun s' r => mendRows s' k g (s.core g.id.core) r (bit (n.lane.getD g.full))) t) := by
    intro l
    induction l with
    | nil => exact fun t h => h
    | cons r l ih => exact fun t h => ih _ (h.trans (samePlace_mendRows _ _ _ _ _ _))
  exact h2 _ _ h1

theorem samePlace_passOver (s : State) (ks : List Nat) : SamePlace s (s.passOver ks) := by
  intro j
  have h := Tab.get_map s.groups (fun j g => if ks.contains j then g.passOver else g) j
  have : (s.passOver ks).group j = (s.group j).map (fun g => if ks.contains j then g.passOver else g) := h
  rw [this]
  cases s.group j with
  | none => rfl
  | some g => simp only [Option.map_some, Option.some.injEq]; split <;> rfl

theorem samePlace_enterActive (s : State) (core i k : Nat) : SamePlace s (enterActive s core i k) := by
  refine (samePlace_modGroup s k _ (fun g => ?_)).trans (.of_groups (fun _ => rfl))
  rfl

/-- Where group `k` stands: where `g` stands, or at its boundary. -/
def Stands (s : State) (k : Nat) (g : Group) : Prop :=
  ∃ h, s.group k = some h ∧ (h.place = g.place ∨ h.place = g.toBoundary.place)

theorem Stands.samePlace {s t : State} {k : Nat} {g : Group} (h : Stands s k g) (p : SamePlace s t) : Stands t k g := by
  obtain ⟨x, h1, h2⟩ := h
  have := p k
  rw [h1] at this
  cases ht : t.group k with
  | none => rw [ht] at this; cases this
  | some y =>
    rw [ht] at this
    have e : y.place = x.place := by simpa using this
    exact ⟨y, ht, by rw [e]; exact h2⟩

/-- A group that stands there stands at that boundary when it is put at its own. -/
theorem boundary_of {x g : Group} (h : x.place = g.place ∨ x.place = g.toBoundary.place) : x.toBoundary.place = g.toBoundary.place := by
  rcases h with h | h <;>
  · have e1 := congrArg (fun x => x.1) h
    have e2 := congrArg (fun x => x.2.1) h
    have e3 := congrArg (fun x => x.2.2) h
    simp only [Group.place, Group.toBoundary] at e1 e2 e3 ⊢
    simp only [Group.bundlePc, e1, e2, e3]

theorem stands_swapOut {s : State} {k : Nat} {g : Group} (h : Stands s k g) (core i x : Nat) (f : Group → Group)
    (hf : ∀ g, (f g).place = g.place) : Stands (swapOut s core i k x f) k g := by
  obtain ⟨y, h1, h2⟩ := h
  have h3 : Stands (s.modGroup k (fun g => (f g).swappedOut (s.core core).clk)) k g :=
    ⟨(f y).swappedOut (s.core core).clk, by simp [h1], .inr (boundary_of (by rw [hf y]; exact h2))⟩
  exact h3.samePlace ((samePlace_passOver _ _).trans (samePlace_enterActive _ _ _ _))

theorem stands_yield {s : State} {k : Nat} {g : Group} (h : Stands s k g) : Stands (yield s k) k g := by
  unfold yield
  split
  · exact h
  · split
    · exact h
    · split
      · exact h
      · exact stands_swapOut h _ _ _ _ (fun _ => rfl)

theorem stands_applySched {s : State} {k : Nat} {g : Group} (h : Stands s k g) (b : Option Bundle) (dests : List Reg) :
    Stands (applySched s k b dests) k g := by
  have h := h.samePlace (samePlace_modGroup s k (fun g => g.stalling dests (stallOf b)) (fun _ => rfl))
  unfold applySched
  dsimp only
  split
  · rename_i p _ _
    have h2 := h.samePlace (samePlace_modGroup _ k (fun g => g.hinted p.toNat) (fun _ => rfl))
    split
    · exact stands_yield h2
    · exact h2
  · exact h

theorem samePlace_countAll (s : State) (c d : Nat) : SamePlace s (countAll s c d) := by
  intro j
  have h := Tab.get_map s.groups (fun j g => if g.id.core == c && s.counts j g then g.counted d else g) j
  have : (countAll s c d).group j = (s.group j).map (fun g => if g.id.core == c && s.counts j g then g.counted d else g) := h
  rw [this]
  cases s.group j with
  | none => rfl
  | some g => simp only [Option.map_some, Option.some.injEq]; split <;> rfl

theorem samePlace_settleClock (s : State) (c : Nat) (q : (s.core c).quiet) : SamePlace s (settleClock s c) := by
  have h : ∀ d, SamePlace s (elapse s c d) := by
    intro d
    unfold elapse
    simp only [q.1, q.2, List.filter_nil, List.foldl_nil]
    exact samePlace_countAll (s.setCore c _) c d
  exact h _

theorem place_advance (g : Group) (clk : Nat) (dest : Option Word) : (advance g clk dest).place = g.nextPlace dest := by
  unfold Group.nextPlace advance
  cases hb : g.bundle with
  | none => simp [Group.freshened, Group.place, Group.leaves, hb]
  | some b =>
    cases hr : b.rpt with
    | none => simp [Group.freshened, Group.place, Group.leaves, hb, hr]
    | some r =>
      by_cases h : g.rptdone + 1 < r.n <;> simp [Group.freshened, Group.place, Group.leaves, hb, hr, h]

/-- Where the group of a word that has issued stands. -/
theorem finish_place {s : State} {k : Nat} {g : Group} {w : W32} {dest : Option Word} {dests : List Reg} (hg : s.group k = some g)
    (q : (s.core g.id.core).quiet) : ∃ g', (finish s k w dest dests).group k = some g' ∧ g.goesTo dest g' := by
  have h1 : Stands (goOn s k g w dest dests) k (advance g 0 dest) := by
    unfold goOn
    simp only
    have h2 : Stands ((s.modCore g.id.core (fun x => x.taken (slotsOf w g.id.foot) k)).setGroup k
        (advance g (s.core g.id.core).clk dest)) k (advance g 0 dest) :=
      ⟨advance g (s.core g.id.core).clk dest, by simp, .inl (place_advance _ _ _)⟩
    split
    · exact stands_yield (stands_applySched h2 _ _)
    · exact stands_applySched h2 _ _
  unfold finish
  simp only [hg]
  exact h1.samePlace (samePlace_settleClock _ _ (Core.quiet_of_still ((goesOn_goOn w dest dests hg).core _) q))

theorem nextPlace_of {g h : Group} (e : g.place = h.place) (dest : Option Word) : g.nextPlace dest = h.nextPlace dest := by
  have e1 : g.pc = h.pc := congrArg (fun x => x.1) e
  have e2 : g.bundle = h.bundle := congrArg (fun x => x.2.1) e
  have e3 : g.rptdone = h.rptdone := congrArg (fun x => x.2.2) e
  unfold Group.nextPlace advance
  cases hb : h.bundle with
  | none => simp [Group.freshened, Group.place, Group.leaves, e1, e2, hb]
  | some b =>
    cases hr : b.rpt with
    | none => simp [Group.freshened, Group.place, Group.leaves, e1, e2, hb, hr]
    | some r =>
      by_cases h : h.rptdone + 1 < r.n <;> simp [Group.freshened, Group.place, Group.leaves, e1, e2, e3, hb, hr, h]

/-- A group goes on from where another stands as that one does. -/
theorem goesTo_of {g h x : Group} (e : g.place = h.place) {dest : Option Word} (p : g.goesTo dest x) : h.goesTo dest x := by
  have e2 : (advance g 0 dest).place = (advance h 0 dest).place := nextPlace_of e dest
  rcases p with p | p
  · exact .inl (p.trans e2)
  · exact .inr (p.trans (boundary_of (.inl e2)))

/-- Where the group of an instruction that takes no trap stands: where its body left it, and then one word on. -/
theorem perform_place {s : State} {k : Nat} {g : Group} {w : W32} {n : Need} {body : State → Done} {h : Group}
    (ha : (body (startWord s k g.id.core n)).after = none)
    (hl : (body (startWord s k g.id.core n)).last = id)
    (hg : (body (startWord s k g.id.core n)).s.group k = some h)
    (q : ((body (startWord s k g.id.core n)).s.core h.id.core).quiet) :
    ∃ g', (perform s k g w n body).group k = some g' ∧ h.goesTo (body (startWord s k g.id.core n)).pc g' := by
  unfold perform
  simp only [Group.closedBy_id, ha, hl]
  have h1 := goesOn_turnWord (body (startWord s k g.id.core n)).s k (g.closedBy n) n
  have h2 := samePlace_turnWord (body (startWord s k g.id.core n)).s k (g.closedBy n) n
  obtain ⟨x, hx, -⟩ := h1.groupSome hg
  have hid := h1.sameId hg hx
  have hp := h2 k
  rw [hx, hg] at hp
  have hp : x.place = h.place := by simpa using hp
  obtain ⟨y, a, b⟩ := finish_place (w := w) (dest := (body (startWord s k g.id.core n)).pc) (dests := n.dests) hx (by
    rw [hid]; exact Core.quiet_of_still (h1.core _) q)
  exact ⟨y, a, goesTo_of hp b⟩

end Sys2Proof.Machine
end

