-- ==== Sys2Proof/Laws/Regs.lean ====
section
/-!
SUPPORT. Registers of a group: what a read gives after each write, free and discard.
-/

namespace Sys2Proof.Machine

theorem getLsbD_setBit {w : Nat} (b : BitVec w) (n m : Nat) (x : Bool) :
    (setBit b n x).getLsbD m = if m = n ∧ m < w then x else b.getLsbD m := by
  have hb : (BitVec.ofNat w (2 ^ n)).getLsbD m = (decide (m < w) && decide (n = m)) := by
    rw [BitVec.getLsbD_ofNat, Nat.testBit_two_pow]
  have h0 : ¬ m < w → b.getLsbD m = false := fun h => BitVec.getLsbD_of_ge b m (Nat.le_of_not_lt h)
  cases x
  · simp only [setBit, Bool.false_eq_true, if_false]
    rw [BitVec.getLsbD_and, BitVec.getLsbD_not, hb]
    by_cases hw : m < w
    · by_cases h : n = m
      · subst h; simp [hw]
      · have h' : m ≠ n := fun e => h e.symm
        simp [hw, h, h']
    · simp [hw, h0 hw]
  · simp only [setBit, if_true]
    rw [BitVec.getLsbD_or, hb]
    by_cases hw : m < w
    · by_cases h : n = m
      · subst h; simp [hw]
      · have h' : m ≠ n := fun e => h e.symm
        simp [hw, h, h']
    · simp [hw, h0 hw]

/-! ### Scalars -/

@[simp] theorem Group.sreg_zero (g : Group) : g.sreg 0 = 0 := by simp [Group.sreg]
@[simp] theorem Group.live_zero (g : Group) : g.live (.s 0) = true := by simp [Group.live]
@[simp] theorem Group.empty_zero (g : Group) : g.empty (.s 0) = false := by simp [Group.empty]

theorem Group.setS_of_ne {g : Group} {n : Nat} {x : Word} (h : n ≠ 0) :
    g.setS n x = { g with regs := { g.regs with
      s := setPad 0 g.regs.s n x, slive := setBit g.regs.slive n true, sempty := setBit g.regs.sempty n false } } := by
  simp [Group.setS, h, Group.putS, Group.setLive, Group.setEmpty]

theorem Group.sreg_setS (g : Group) (n m : Nat) (x : Word) :
    (g.setS n x).sreg m = if m = n ∧ m ≠ 0 then x else g.sreg m := by
  by_cases h : n = 0
  · subst h; by_cases hm : m = 0 <;> simp [Group.setS, hm]
  · rw [Group.setS_of_ne h]
    by_cases hm : m = 0
    · simp [Group.sreg, hm]
    · simp [Group.sreg, hm, -List.getD_eq_getElem?_getD, getD_setPad]

theorem Group.live_setS (g : Group) (n : Nat) (x : Word) (r : Reg) :
    (g.setS n x).live r = if r = .s n ∧ n < 32 then true else g.live r := by
  by_cases h : n = 0
  · subst h; cases r with
    | s m => by_cases hm : m = 0 <;> simp [Group.setS, hm]
    | v m => simp [Group.setS]
  · rw [Group.setS_of_ne h]
    cases r with
    | s m =>
      by_cases hm : m = n
      · subst hm; by_cases h32 : m < 32 <;> simp [Group.live, getLsbD_setBit, h, h32, -BitVec.getLsbD_eq_getElem]
      · simp [Group.live, getLsbD_setBit, hm, -BitVec.getLsbD_eq_getElem]
    | v m => simp [Group.live]

theorem Group.empty_setS (g : Group) (n : Nat) (x : Word) (r : Reg) :
    (g.setS n x).empty r = if r = .s n then false else g.empty r := by
  by_cases h : n = 0
  · subst h; cases r with
    | s m => by_cases hm : m = 0 <;> simp [Group.setS, hm]
    | v m => simp [Group.setS]
  · rw [Group.setS_of_ne h]
    cases r with
    | s m =>
      by_cases hm : m = n
      · subst hm
        have h32 : ¬ m < 32 → g.regs.sempty.getLsbD m = false := fun h => BitVec.getLsbD_of_ge _ m (Nat.le_of_not_lt h)
        by_cases h' : m < 32
        · simp [Group.empty, getLsbD_setBit, h', -BitVec.getLsbD_eq_getElem]
        · simp [Group.empty, getLsbD_setBit, h', h32 h', -BitVec.getLsbD_eq_getElem]
      · simp [Group.empty, getLsbD_setBit, hm, -BitVec.getLsbD_eq_getElem]
    | v m => simp [Group.empty]

/-- A write of a scalar changes nothing else of its group. -/
theorem Group.setS_rest (g : Group) (n : Nat) (x : Word) :
    (g.setS n x) = { g with regs := { g.regs with
      s := (g.setS n x).regs.s, slive := (g.setS n x).regs.slive, sempty := (g.setS n x).regs.sempty } } := by
  by_cases h : n = 0
  · simp [Group.setS, h]
  · rw [Group.setS_of_ne h]

@[simp] theorem Group.vreg_setS (g : Group) (n m l : Nat) (x : Word) : (g.setS n x).vreg m l = g.vreg m l := by
  rw [Group.setS_rest]; rfl
@[simp] theorem Group.id_setS (g : Group) (n : Nat) (x : Word) : (g.setS n x).id = g.id := by rw [Group.setS_rest]
@[simp] theorem Group.sys_setS (g : Group) (n : Nat) (x : Word) : (g.setS n x).sys = g.sys := by rw [Group.setS_rest]
@[simp] theorem Group.alive_setS (g : Group) (n : Nat) (x : Word) : (g.setS n x).alive = g.alive := by rw [Group.setS_rest]
@[simp] theorem Group.accs_setS (g : Group) (n : Nat) (x : Word) : (g.setS n x).accs = g.accs := by rw [Group.setS_rest]
@[simp] theorem Group.p_setS (g : Group) (n : Nat) (x : Word) : (g.setS n x).regs.p = g.regs.p := by rw [Group.setS_rest]
@[simp] theorem Group.v_setS (g : Group) (n : Nat) (x : Word) : (g.setS n x).regs.v = g.regs.v := by rw [Group.setS_rest]
@[simp] theorem Group.pin_setS (g : Group) (n : Nat) (x : Word) : (g.setS n x).regs.pin = g.regs.pin := by
  rw [Group.setS_rest]
@[simp] theorem Group.trap_setS (g : Group) (n : Nat) (x : Word) : (g.setS n x).trap = g.trap := by rw [Group.setS_rest]
@[simp] theorem Group.pend_setS (g : Group) (n : Nat) (x : Word) : (g.setS n x).pend = g.pend := by rw [Group.setS_rest]
@[simp] theorem Group.log_setS (g : Group) (n : Nat) (x : Word) : (g.setS n x).log = g.log := by rw [Group.setS_rest]

/-! ### Discarding and freeing -/

theorem Group.discard_regs (g : Group) (r : Reg) : (g.discard r).regs = g.regs := rfl

theorem Group.discardAll_rest (g : Group) (rs : List Reg) :
    ∃ a l, rs.foldl Group.discard g = { g with accs := a, log := l } := by
  induction rs generalizing g with
  | nil => exact ⟨g.accs, g.log, rfl⟩
  | cons r rs ih =>
    obtain ⟨a, l, h⟩ := ih (g.discard r)
    exact ⟨a, l, h⟩

theorem Group.free_s_of_ne {g : Group} {n : Nat} (h : n ≠ 0) :
    g.free (.s n) = Group.discard { g with regs := { g.regs with
      s := setPad 0 g.regs.s n 0, slive := setBit g.regs.slive n false, sempty := setBit g.regs.sempty n false } } (.s n) := by
  simp [Group.free, h, Group.putS, Group.setLive, Group.setEmpty]

theorem Group.sreg_free (g : Group) (r : Reg) (m : Nat) : (g.free r).sreg m = if r = .s m then 0 else g.sreg m := by
  cases r with
  | s n =>
    by_cases h : n = 0
    · subst h; by_cases hm : m = 0 <;> simp [Group.free, hm, eq_comm]
    · rw [Group.free_s_of_ne h]
      by_cases hm : m = 0
      · simp [Group.sreg, hm]
      · by_cases e : n = m
        · subst e; simp [Group.sreg, Group.discard, hm, -List.getD_eq_getElem?_getD, getD_setPad]
        · simp [Group.sreg, Group.discard, hm, -List.getD_eq_getElem?_getD, getD_setPad, e, Ne.symm e]
  | v n => simp [Group.free, Group.discard, Group.setLive, Group.setEmpty, Group.putV, Group.sreg]

theorem Group.live_free (g : Group) (r q : Reg) : (g.free r).live q = if r = q ∧ q ≠ .s 0 then false else g.live q := by
  cases r with
  | s n =>
    by_cases h : n = 0
    · subst h; cases q with
      | s m => by_cases hm : m = 0 <;> simp [Group.free, hm, eq_comm]
      | v m => simp [Group.free]
    · rw [Group.free_s_of_ne h]
      cases q with
      | s m =>
        by_cases e : n = m
        · subst e; by_cases h32 : n < 32
          · simp [Group.live, Group.discard, getLsbD_setBit, h, h32, -BitVec.getLsbD_eq_getElem]
          · have := BitVec.getLsbD_of_ge g.regs.slive n (Nat.le_of_not_lt h32)
            simp [Group.live, Group.discard, getLsbD_setBit, h, h32, this, -BitVec.getLsbD_eq_getElem]
        · simp [Group.live, Group.discard, getLsbD_setBit, e, Ne.symm e, -BitVec.getLsbD_eq_getElem]
      | v m => simp [Group.live, Group.discard]
  | v n =>
    cases q with
    | s m => simp [Group.free, Group.discard, Group.setLive, Group.setEmpty, Group.putV, Group.live]
    | v m =>
      by_cases e : n = m
      · subst e; by_cases h32 : n < 32
        · simp [Group.free, Group.discard, Group.setLive, Group.setEmpty, Group.putV, Group.live, getLsbD_setBit, h32, -BitVec.getLsbD_eq_getElem]
        · have := BitVec.getLsbD_of_ge g.regs.vlive n (Nat.le_of_not_lt h32)
          simp [Group.free, Group.discard, Group.setLive, Group.setEmpty, Group.putV, Group.live, getLsbD_setBit, h32, this, -BitVec.getLsbD_eq_getElem]
      · simp [Group.free, Group.discard, Group.setLive, Group.setEmpty, Group.putV, Group.live, getLsbD_setBit, e, Ne.symm e, -BitVec.getLsbD_eq_getElem]

theorem Group.empty_free (g : Group) (r q : Reg) : (g.free r).empty q = if r = q then false else g.empty q := by
  cases r with
  | s n =>
    by_cases h : n = 0
    · subst h; cases q with
      | s m => by_cases hm : m = 0 <;> simp [Group.free, hm, eq_comm]
      | v m => simp [Group.free]
    · rw [Group.free_s_of_ne h]
      cases q with
      | s m =>
        by_cases e : n = m
        · subst e; by_cases h32 : n < 32
          · simp [Group.empty, Group.discard, getLsbD_setBit, h32, -BitVec.getLsbD_eq_getElem]
          · have := BitVec.getLsbD_of_ge g.regs.sempty n (Nat.le_of_not_lt h32)
            simp [Group.empty, Group.discard, getLsbD_setBit, h32, this, -BitVec.getLsbD_eq_getElem]
        · simp [Group.empty, Group.discard, getLsbD_setBit, e, Ne.symm e, -BitVec.getLsbD_eq_getElem]
      | v m => simp [Group.empty, Group.discard]
  | v n =>
    cases q with
    | s m => simp [Group.free, Group.discard, Group.setLive, Group.setEmpty, Group.putV, Group.empty]
    | v m =>
      by_cases e : n = m
      · subst e; by_cases h32 : n < 32
        · simp [Group.free, Group.discard, Group.setLive, Group.setEmpty, Group.putV, Group.empty, getLsbD_setBit, h32, -BitVec.getLsbD_eq_getElem]
        · have := BitVec.getLsbD_of_ge g.regs.vempty n (Nat.le_of_not_lt h32)
          simp [Group.free, Group.discard, Group.setLive, Group.setEmpty, Group.putV, Group.empty, getLsbD_setBit, h32, this, -BitVec.getLsbD_eq_getElem]
      · simp [Group.free, Group.discard, Group.setLive, Group.setEmpty, Group.putV, Group.empty, getLsbD_setBit, e, Ne.symm e, -BitVec.getLsbD_eq_getElem]

theorem Group.vreg_free (g : Group) (r : Reg) (m l : Nat) : (g.free r).vreg m l = if r = .v m then 0 else g.vreg m l := by
  cases r with
  | s n =>
    by_cases h : n = 0
    · subst h; simp [Group.free]
    · rw [Group.free_s_of_ne h]; simp [Group.vreg, Group.discard]
  | v n =>
    by_cases e : n = m
    · subst e
      simp [Group.free, Group.discard, Group.setLive, Group.setEmpty, Group.putV, Group.vreg,
        -List.getD_eq_getElem?_getD, getD_setPad]
    · simp [Group.free, Group.discard, Group.setLive, Group.setEmpty, Group.putV, Group.vreg,
        -List.getD_eq_getElem?_getD, getD_setPad, e, Ne.symm e]

/-- A free changes registers and what accesses under way reach, and nothing else. -/
theorem Group.free_rest (g : Group) (r : Reg) :
    ∃ x a l, g.free r = { g with regs := x, accs := a, log := l } ∧ x.p = g.regs.p ∧ x.pin = g.regs.pin := by
  cases r with
  | s n =>
    by_cases h : n = 0
    · exact ⟨g.regs, g.accs, g.log, by simp [Group.free, h], rfl, rfl⟩
    · rw [Group.free_s_of_ne h]; exact ⟨_, _, _, rfl, rfl, rfl⟩
  | v n => exact ⟨_, _, _, rfl, rfl, rfl⟩

theorem Group.freeAll_rest (g : Group) (rs : List Reg) :
    ∃ x a l, g.freeAll rs = { g with regs := x, accs := a, log := l } ∧ x.p = g.regs.p ∧ x.pin = g.regs.pin := by
  unfold Group.freeAll
  induction rs generalizing g with
  | nil => exact ⟨g.regs, g.accs, g.log, rfl, rfl, rfl⟩
  | cons r rs ih =>
    obtain ⟨x, a, l, h, hp, hq⟩ := Group.free_rest g r
    obtain ⟨x', a', l', h', hp', hq'⟩ := ih (g.free r)
    refine ⟨x', a', l', ?_, ?_, ?_⟩
    · rw [List.foldl_cons, h', h]
    · rw [hp', h]; exact hp
    · rw [hq', h]; exact hq

theorem Group.sreg_freeAll (g : Group) (rs : List Reg) (m : Nat) :
    (g.freeAll rs).sreg m = if Reg.s m ∈ rs then 0 else g.sreg m := by
  unfold Group.freeAll
  induction rs generalizing g with
  | nil => simp
  | cons r rs ih =>
    rw [List.foldl_cons, ih, Group.sreg_free]
    by_cases h : Reg.s m ∈ rs <;> by_cases e : r = .s m <;> simp [h, e, eq_comm]

theorem Group.vreg_freeAll (g : Group) (rs : List Reg) (m l : Nat) :
    (g.freeAll rs).vreg m l = if Reg.v m ∈ rs then 0 else g.vreg m l := by
  unfold Group.freeAll
  induction rs generalizing g with
  | nil => simp
  | cons r rs ih =>
    rw [List.foldl_cons, ih, Group.vreg_free]
    by_cases h : Reg.v m ∈ rs <;> by_cases e : r = .v m <;> simp [h, e, eq_comm]

theorem Group.live_freeAll (g : Group) (rs : List Reg) (q : Reg) :
    (g.freeAll rs).live q = if q ∈ rs ∧ q ≠ .s 0 then false else g.live q := by
  unfold Group.freeAll
  induction rs generalizing g with
  | nil => simp
  | cons r rs ih =>
    rw [List.foldl_cons, ih, Group.live_free]
    by_cases h : q ∈ rs <;> by_cases e : r = q <;> by_cases z : q = .s 0 <;> simp [h, e, z, Ne.symm, @eq_comm _ q r]

theorem Group.empty_freeAll (g : Group) (rs : List Reg) (q : Reg) :
    (g.freeAll rs).empty q = if q ∈ rs then false else g.empty q := by
  unfold Group.freeAll
  induction rs generalizing g with
  | nil => simp
  | cons r rs ih =>
    rw [List.foldl_cons, ih, Group.empty_free]
    by_cases h : q ∈ rs <;> by_cases e : r = q <;> simp [h, e, @eq_comm _ q r]

/-! ### Lane registers and predicates -/

theorem Group.vreg_setV (g old : Group) (n : Nat) (m : Mask) (f : Nat → Word) (j l : Nat) :
    (g.setV old n m f).vreg j l =
      if j = n then
        (if l < old.lanes then (if bit m l then f l else if old.live (.v n) then old.vreg n l else 0) else 0)
      else g.vreg j l := by
  by_cases h : j = n
  · subst h
    simp only [Group.setV, Group.setLive, Group.setEmpty, Group.putV, Group.vreg, getD_setPad, if_true, Group.merged, tabulate]
    by_cases hl : l < old.lanes
    · simp [List.getD, hl]
    · simp [List.getD, hl]
  · simp [Group.setV, Group.setLive, Group.setEmpty, Group.putV, Group.vreg, h, -List.getD_eq_getElem?_getD, getD_setPad]

theorem Group.live_setV (g old : Group) (n : Nat) (m : Mask) (f : Nat → Word) (r : Reg) :
    (g.setV old n m f).live r = if r = .v n ∧ n < 32 then true else g.live r := by
  cases r with
  | s j => simp [Group.setV, Group.setLive, Group.setEmpty, Group.putV, Group.live]
  | v j =>
    by_cases e : j = n
    · subst e; by_cases h32 : j < 32
      · simp [Group.setV, Group.setLive, Group.setEmpty, Group.putV, Group.live, getLsbD_setBit, h32, -BitVec.getLsbD_eq_getElem]
      · simp [Group.setV, Group.setLive, Group.setEmpty, Group.putV, Group.live, getLsbD_setBit, h32, -BitVec.getLsbD_eq_getElem]
    · simp [Group.setV, Group.setLive, Group.setEmpty, Group.putV, Group.live, getLsbD_setBit, e, -BitVec.getLsbD_eq_getElem]

theorem Group.empty_setV (g old : Group) (n : Nat) (m : Mask) (f : Nat → Word) (r : Reg) :
    (g.setV old n m f).empty r = if r = .v n then false else g.empty r := by
  cases r with
  | s j => simp [Group.setV, Group.setLive, Group.setEmpty, Group.putV, Group.empty]
  | v j =>
    by_cases e : j = n
    · subst e; by_cases h32 : j < 32
      · simp [Group.setV, Group.setLive, Group.setEmpty, Group.putV, Group.empty, getLsbD_setBit, h32, -BitVec.getLsbD_eq_getElem]
      · have := BitVec.getLsbD_of_ge g.regs.vempty j (Nat.le_of_not_lt h32)
        simp [Group.setV, Group.setLive, Group.setEmpty, Group.putV, Group.empty, getLsbD_setBit, h32, this, -BitVec.getLsbD_eq_getElem]
    · simp [Group.setV, Group.setLive, Group.setEmpty, Group.putV, Group.empty, getLsbD_setBit, e, -BitVec.getLsbD_eq_getElem]

@[simp] theorem Group.sreg_setV (g old : Group) (n : Nat) (m : Mask) (f : Nat → Word) (j : Nat) :
    (g.setV old n m f).sreg j = g.sreg j := rfl
@[simp] theorem Group.id_setV (g old : Group) (n : Nat) (m : Mask) (f : Nat → Word) : (g.setV old n m f).id = g.id := rfl
@[simp] theorem Group.sys_setV (g old : Group) (n : Nat) (m : Mask) (f : Nat → Word) : (g.setV old n m f).sys = g.sys := rfl
@[simp] theorem Group.p_setV (g old : Group) (n : Nat) (m : Mask) (f : Nat → Word) :
    (g.setV old n m f).regs.p = g.regs.p := rfl

@[simp] theorem Group.id_addFlags (g : Group) (x : Fx) : (g.addFlags x).id = g.id := by unfold Group.addFlags; split <;> rfl
@[simp] theorem Group.regs_addFlags (g : Group) (x : Fx) : (g.addFlags x).regs = g.regs := by unfold Group.addFlags; split <;> rfl
@[simp] theorem Group.alive_addFlags (g : Group) (x : Fx) : (g.addFlags x).alive = g.alive := by unfold Group.addFlags; split <;> rfl

/-- Predicate bits after a write of a predicate. -/
theorem Group.pred_setP (g : Group) (q : Nat) (m : Mask) (f : Nat → Bool) (j l : Nat) (hf : g.id.foot ≤ 4) (hl : l < g.lanes) :
    bit ((g.setP q m f).regs.p.getD (j - 1) 0) l =
      if j = q ∧ q ≠ 0 then (if bit m l then f l else bit (g.regs.p.getD (q - 1) 0) l)
      else if j = 0 ∧ q = 1 then (if bit m l then f l else bit (g.regs.p.getD 0 0) l)
      else bit (g.regs.p.getD (j - 1) 0) l := by
  have h768 : g.lanes ≤ 768 := by unfold Group.lanes; omega
  by_cases h0 : q = 0
  · subst h0
    by_cases hj : j = 0 <;> simp [Group.setP, hj]
  · have key : (setPad 0 g.regs.p (q - 1) (maskOf g.lanes (fun l => if bit m l then f l else bit (g.regs.p.getD (q - 1) 0) l))).getD (j - 1) 0
        = if j - 1 = q - 1 then maskOf g.lanes (fun l => if bit m l then f l else bit (g.regs.p.getD (q - 1) 0) l)
          else g.regs.p.getD (j - 1) 0 := getD_setPad _ _ _ _ _
    simp only [Group.setP, if_neg h0, key]
    by_cases e : j - 1 = q - 1
    · rw [if_pos e]
      simp only [bit, getLsbD_maskOf _ _ _ h768, hl, decide_true, Bool.true_and]
      by_cases hj : j = q
      · subst hj; simp [h0]
      · have h1 : j = 0 ∧ q = 1 := by omega
        obtain ⟨rfl, rfl⟩ := h1
        simp
    · rw [if_neg e]
      have hj : j ≠ q := by intro h; subst h; exact e rfl
      have h1 : ¬ (j = 0 ∧ q = 1) := by rintro ⟨rfl, rfl⟩; exact e rfl
      simp [hj, h1]

end Sys2Proof.Machine
end

