-- ==== Sys2Proof/Laws/Results.lean ====
section
/-!
SUPPORT. What an instruction whose effect lies in its own group leaves of the state: the law that the statements about
register instructions rest on.
-/

namespace Sys2Proof.Machine

/-- An instruction that nothing holds back and whose own checks let pass answers a next state: what its body leaves, but for
what every word that issues changes; its group goes on from where the body left it. -/
theorem next_issue {i : Instr} {s : State} {k : Nat} {g : Group} {w : W32} {need : Group → Need}
    {gate : Nat → Group → State → Gate} {body : Nat → Group → State → Done} {h : Group}
    (hi : exec i s = issue w need gate body s) (he : encode i = some w) (r : Ready i s k g (need g))
    (hgate : gate k g s = .pass)
    (ha : (body k g (startWord s k g.id.core (need g))).after = none)
    (hl : (body k g (startWord s k g.id.core (need g))).last = id)
    (hg : (body k g (startWord s k g.id.core (need g))).s.group k = some h)
    (q : ((body k g (startWord s k g.id.core (need g))).s.core h.id.core).quiet) :
    ∃ t, exec i s = .next t ∧ GoesOn (body k g (startWord s k g.id.core (need g))).s t ∧
      ∃ g', t.group k = some g' ∧ h.goesTo (body k g (startWord s k g.id.core (need g))).pc g' := by
  refine ⟨perform s k g w (need g) (body k g), ?_, ?_, ?_⟩
  · rw [hi, issue_clear (r.clear w he) hgate]
  · refine perform_goesOn ha hl (fun g' hg' => ?_)
    rw [hg] at hg'; cases hg'; exact q
  · exact perform_place ha hl hg q

/-- An instruction whose effect `f` lies in its group alone: it answers a next state, which is the state with the group
changed by `f`, but for what every word that issues changes. -/
theorem next_modGroup {i : Instr} {s : State} {k : Nat} {g : Group} {w : W32} {need : Group → Need}
    {gate : Nat → Group → State → Gate} {body : Nat → Group → State → Done} {f : Group → Group}
    (hi : exec i s = issue w need gate body s) (he : encode i = some w) (r : Ready i s k g (need g))
    (hgate : gate k g s = .pass)
    (hb : body k g (startWord s k g.id.core (need g)) = { s := (startWord s k g.id.core (need g)).modGroup k f })
    (hid : (f ((g.closedBy (need g)).begun (need g))).id = g.id) :
    ∃ t, exec i s = .next t ∧ GoesOn (s.setGroup k (f ((g.closedBy (need g)).begun (need g)))) t ∧
      ∃ g', t.group k = some g' ∧ (f ((g.closedBy (need g)).begun (need g))).goesTo none g' := by
  have hg := (r.clear w he).issuer.2
  have h1 := startWord_group g.id.core (need g) hg
  have h2 := startWord_goesOn (core := g.id.core) (need g) hg r.quiet
  have h3 : GoesOn (s.setGroup k (f ((g.closedBy (need g)).begun (need g)))) ((startWord s k g.id.core (need g)).modGroup k f) := by
    refine ⟨h2.rest, fun j => ?_, h2.core, h2.die, h2.team⟩
    rw [State.group_modGroup, State.group_setGroup]
    split
    · rw [h1]; rfl
    · rename_i hj
      have := h2.group j
      rw [State.group_setGroup, if_neg hj] at this
      exact this
  have h4 : ((startWord s k g.id.core (need g)).modGroup k f).group k = some (f ((g.closedBy (need g)).begun (need g))) := by
    simp [h1]
  obtain ⟨t, e, h5, h6⟩ := next_issue hi he r hgate (by rw [hb]) (by rw [hb]) (by rw [hb]; exact h4) (by
    rw [hb, hid]; exact Core.quiet_of_still (h3.core _) r.quiet)
  rw [hb] at h5 h6
  exact ⟨t, e, h3.trans h5, h6⟩

theorem next_onGroup {i : Instr} {s : State} {k : Nat} {g : Group} {w : W32} {need : Group → Need}
    {f : Group → Group → Group} (hi : exec i s = issue w need noGate (onGroup f) s) (he : encode i = some w)
    (r : Ready i s k g (need g))
    (hid : (f g ((g.closedBy (need g)).begun (need g))).id = g.id) :
    ∃ t, exec i s = .next t ∧ GoesOn (s.setGroup k (f g ((g.closedBy (need g)).begun (need g)))) t ∧
      ∃ g', t.group k = some g' ∧ (f g ((g.closedBy (need g)).begun (need g))).goesTo none g' :=
  next_modGroup hi he r rfl rfl hid

/-- The same, as a property of the group that it leaves. -/
theorem leaves_onGroup {i : Instr} {s : State} {k : Nat} {g : Group} {w : W32} {need : Group → Need}
    {f : Group → Group → Group} (hi : exec i s = issue w need noGate (onGroup f) s) (he : encode i = some w)
    (r : Ready i s k g (need g))
    (hid : (f g ((g.closedBy (need g)).begun (need g))).id = g.id) {P : Group → Prop}
    (hP : ∀ g', g'.still = (f g ((g.closedBy (need g)).begun (need g))).still →
      (f g ((g.closedBy (need g)).begun (need g))).goesTo none g' → P g') : Leaves i s k P := by
  obtain ⟨t, h1, h2, x, h5, h6⟩ := next_onGroup hi he r hid
  obtain ⟨g', h3, h4⟩ := h2.groupSome (State.group_setGroup_self _ _ _)
  have e : g' = x := by rw [h3] at h5; exact Option.some.inj h5
  subst e
  refine ⟨t, g', h1, h3, ⟨h2.rest, fun j hj => ?_, h2.core, h2.die, h2.team, ?_⟩, hP g' h4 h6⟩
  · rw [h2.group j, State.group_setGroup, if_neg hj]
  · exact SameBytes.trans (fun _ => ⟨rfl, fun _ => rfl, fun _ => rfl⟩) h2.sameBytes

/-! ### Other system registers -/

@[simp] theorem withSys_id (g : Group) (x : SysRegs) : (g.withSys x).id = g.id := rfl
@[simp] theorem withSys_alive (g : Group) (x : SysRegs) : (g.withSys x).alive = g.alive := rfl
@[simp] theorem withSys_regs (g : Group) (x : SysRegs) : (g.withSys x).regs = g.regs := rfl
@[simp] theorem withSys_trap (g : Group) (x : SysRegs) : (g.withSys x).trap = g.trap := rfl
@[simp] theorem withSys_pend (g : Group) (x : SysRegs) : (g.withSys x).pend = g.pend := rfl
@[simp] theorem withSys_sys (g : Group) (x : SysRegs) : (g.withSys x).sys = x := rfl

/-! ### What a group keeps while it goes on -/

theorem still_regs {x y : Group} (h : x.still = y.still) : x.regs = y.regs := by
  have := congrArg Group.regs h; exact this
theorem still_id {x y : Group} (h : x.still = y.still) : x.id = y.id := by
  have := congrArg Group.id h; exact this
theorem still_alive {x y : Group} (h : x.still = y.still) : x.alive = y.alive := by
  have := congrArg Group.alive h; exact this
theorem still_trap {x y : Group} (h : x.still = y.still) : x.trap = y.trap := by
  have := congrArg Group.trap h; exact this
theorem still_pend {x y : Group} (h : x.still = y.still) : x.pend = y.pend := by
  have := congrArg Group.pend h; exact this
theorem still_accs {x y : Group} (h : x.still = y.still) : x.accs = y.accs := by
  have := congrArg Group.accs h; exact this
theorem still_sys {x y : Group} (h : x.still = y.still) : x.sys = { y.sys with wdcount := x.sys.wdcount } := by
  have h : { x.sys with wdcount := 0 } = { y.sys with wdcount := 0 } := by
    have := congrArg Group.sys h; exact this
  cases hx : x.sys
  cases hy : y.sys
  rw [hx, hy] at h
  injection h
  subst_vars
  rfl

theorem live_regs {x y : Group} (h : x.regs = y.regs) (r : Reg) : x.live r = y.live r := by
  cases r <;> simp only [Group.live, h]
theorem empty_regs {x y : Group} (h : x.regs = y.regs) (r : Reg) : x.empty r = y.empty r := by
  cases r <;> simp only [Group.empty, h]
theorem value_regs {x y : Group} (h : x.regs = y.regs) (r : Reg) (l : Nat) : x.value r l = y.value r l := by
  cases r <;> simp only [Group.value, Group.sreg, Group.vreg, h]

/-! ### The group that an effect starts from -/

theorem begun_rest (g : Group) (n : Need) :
    ∃ x a l r, (g.closedBy n).begun n = { g with regs := x, accs := a, log := l, region := r } ∧ x.p = g.regs.p ∧
      x.pin = g.regs.pin := by
  obtain ⟨a, l, h⟩ := Group.discardAll_rest (g.closedBy n) (n.frees ++ n.dests)
  obtain ⟨x, a', l', h', hp, hq⟩ := Group.freeAll_rest { g.closedBy n with accs := a, log := l } n.frees
  refine ⟨x, a', l', (g.closedBy n).region, ?_, ?_, ?_⟩
  · simp only [Group.begun, Group.discardAll, h, h']
    unfold Group.closedBy; split <;> rfl
  · rw [hp]; unfold Group.closedBy; split <;> rfl
  · rw [hq]; unfold Group.closedBy; split <;> rfl

@[simp] theorem begun_id (g : Group) (n : Need) : ((g.closedBy n).begun n).id = g.id := by
  obtain ⟨x, a, l, r, h, -, -⟩ := begun_rest g n; rw [h]
@[simp] theorem begun_alive (g : Group) (n : Need) : ((g.closedBy n).begun n).alive = g.alive := by
  obtain ⟨x, a, l, r, h, -, -⟩ := begun_rest g n; rw [h]
@[simp] theorem begun_sys (g : Group) (n : Need) : ((g.closedBy n).begun n).sys = g.sys := by
  obtain ⟨x, a, l, r, h, -, -⟩ := begun_rest g n; rw [h]
@[simp] theorem begun_trap (g : Group) (n : Need) : ((g.closedBy n).begun n).trap = g.trap := by
  obtain ⟨x, a, l, r, h, -, -⟩ := begun_rest g n; rw [h]
@[simp] theorem begun_pend (g : Group) (n : Need) : ((g.closedBy n).begun n).pend = g.pend := by
  obtain ⟨x, a, l, r, h, -, -⟩ := begun_rest g n; rw [h]
@[simp] theorem begun_p (g : Group) (n : Need) : ((g.closedBy n).begun n).regs.p = g.regs.p := by
  obtain ⟨x, a, l, r, h, hp, -⟩ := begun_rest g n; rw [h]; exact hp
@[simp] theorem begun_pin (g : Group) (n : Need) : ((g.closedBy n).begun n).regs.pin = g.regs.pin := by
  obtain ⟨x, a, l, r, h, -, hq⟩ := begun_rest g n; rw [h]; exact hq

@[simp] theorem begun_place (g : Group) (n : Need) : ((g.closedBy n).begun n).place = g.place := by
  obtain ⟨x, a, l, r, h, -, -⟩ := begun_rest g n; rw [h]; rfl

theorem opened_regs (g : Group) (n : Need) : ((g.closedBy n).discardAll (n.frees ++ n.dests)).regs = g.regs := by
  obtain ⟨a, l, h⟩ := Group.discardAll_rest (g.closedBy n) (n.frees ++ n.dests)
  simp only [Group.discardAll, h]
  unfold Group.closedBy; split <;> rfl

theorem begun_live (g : Group) (n : Need) (r : Reg) :
    ((g.closedBy n).begun n).live r = if r ∈ n.frees ∧ r ≠ .s 0 then false else g.live r := by
  rw [Group.begun, Group.live_freeAll, live_regs (opened_regs g n)]
theorem begun_empty (g : Group) (n : Need) (r : Reg) :
    ((g.closedBy n).begun n).empty r = if r ∈ n.frees then false else g.empty r := by
  rw [Group.begun, Group.empty_freeAll, empty_regs (opened_regs g n)]
theorem begun_sreg (g : Group) (n : Need) (m : Nat) :
    ((g.closedBy n).begun n).sreg m = if Reg.s m ∈ n.frees then 0 else g.sreg m := by
  rw [Group.begun, Group.sreg_freeAll]
  have := value_regs (opened_regs g n) (.s m) 0
  simp only [Group.value] at this
  rw [this]
theorem begun_vreg (g : Group) (n : Need) (m l : Nat) :
    ((g.closedBy n).begun n).vreg m l = if Reg.v m ∈ n.frees then 0 else g.vreg m l := by
  rw [Group.begun, Group.vreg_freeAll]
  have := value_regs (opened_regs g n) (.v m) l
  simp only [Group.value] at this
  rw [this]

/-! ### Frames of the register writes -/

/-- A group that is what the effect starts from but for registers it writes: the shared part of every frame. -/
theorem framed_of {g g' h : Group} {n : Need} {q : Option Nat} {sys : SysRegs} (hs : g'.still = h.still)
    (hp : h.goesTo none g') (h0 : h.place = g.place)
    (h1 : h.id = g.id ∧ h.alive = g.alive ∧ h.regs.pin = g.regs.pin ∧ h.trap = g.trap ∧ h.pend = g.pend)
    (h2 : h.sys = sys)
    (h3 : ∀ r, r ∉ n.dests → h.live r = ((g.closedBy n).begun n).live r ∧ h.empty r = ((g.closedBy n).begun n).empty r ∧
      ∀ l, h.value r l = ((g.closedBy n).begun n).value r l)
    (h4 : ∀ r, r ∈ n.dests → h.live r = true ∧ h.empty r = false)
    (h5 : ∀ j l, 0 < j → some j ≠ q → l < g.lanes → h.predBit j l = g.predBit j l) : Framed g n q sys none g' := by
  have hr := still_regs hs
  refine ⟨⟨?_, ?_, fun r hd hf => ?_, fun r hf hd hz => ?_, fun j l hj hq hl => ?_,
    goesTo_of h0 hp⟩, fun r hd => ?_⟩
  · rw [still_id hs, still_alive hs, hr, still_trap hs, still_pend hs]; exact h1
  · rw [still_sys hs, h2]
  · obtain ⟨a, b, c⟩ := h3 r hd
    rw [live_regs hr, empty_regs hr, a, b, begun_live, begun_empty, if_neg (fun x => hf x.1), if_neg hf]
    refine ⟨rfl, rfl, fun l => ?_⟩
    rw [value_regs hr, c]
    cases r with
    | s m => simp only [Group.value, begun_sreg, if_neg hf]
    | v m => simp only [Group.value, begun_vreg, if_neg hf]
  · rw [live_regs hr, (h3 r hd).1, begun_live, if_pos ⟨hf, hz⟩]
  · rw [← h5 j l hj hq hl]; simp only [Group.predBit, hr]
  · rw [live_regs hr, empty_regs hr]; exact h4 r hd

/-- The frame of a write of scalar `d`. -/
theorem framed_setS {g g' : Group} {n : Need} {d : BitVec 5} {v : Word} {sys : SysRegs}
    (hd : n.dests = pick (sr d != .s 0) (sr d)) (hs : g'.still = ((((g.closedBy n).begun n).setS d.toNat v).withSys (sys)).still)
    (hp : ((((g.closedBy n).begun n).setS d.toNat v).withSys (sys)).goesTo none g') :
    Framed g n none sys none g' := by
  have hd32 : d.toNat < 32 := d.isLt
  refine framed_of hs hp ?_ ?_ rfl (fun r hr => ?_) (fun r hr => ?_) (fun j l hj hq hl => ?_)
  · have : (((g.closedBy n).begun n).setS d.toNat v).place = ((g.closedBy n).begun n).place := by rw [Group.setS_rest]; rfl
    exact this.trans (begun_place g n)
  · simp
  · have hne : r ≠ .s d.toNat ∨ d.toNat = 0 := by
      rw [hd] at hr
      by_cases z : d.toNat = 0
      · exact .inr z
      · left; rintro rfl; apply hr; simp [pick, sr, z]
    have hl : ∀ x : Group, ((x).withSys (sys)).live r = x.live r := fun x => by cases r <;> rfl
    have he : ∀ x : Group, ((x).withSys (sys)).empty r = x.empty r := fun x => by cases r <;> rfl
    have hv : ∀ (x : Group) l, ((x).withSys (sys)).value r l = x.value r l := fun x l => by cases r <;> rfl
    rw [hl, he, Group.live_setS, Group.empty_setS]
    refine ⟨?_, ?_, fun l => ?_⟩
    · split
      · rename_i h; obtain ⟨rfl, h⟩ := h
        have z : d.toNat = 0 := hne.resolve_left (fun h => h rfl)
        rw [z]; simp
      · rfl
    · split
      · rename_i h; subst h
        have z : d.toNat = 0 := hne.resolve_left (fun h => h rfl)
        rw [z]; simp
      · rfl
    · rw [hv]
      cases r with
      | s m =>
        simp only [Group.value, Group.sreg_setS]
        split
        · rename_i h; obtain ⟨rfl, h⟩ := h
          exact absurd (hne.resolve_left (fun h => h rfl)) h
        · rfl
      | v m => simp only [Group.value, Group.vreg_setS]
  · rw [hd] at hr
    by_cases z : d.toNat = 0
    · simp [pick, sr, z] at hr
    · have : r = .s d.toNat := by simpa [pick, sr, z] using hr
      subst this
      have hl : ∀ x : Group, ((x).withSys (sys)).live (.s d.toNat) = x.live (.s d.toNat) := fun _ => rfl
      have he : ∀ x : Group, ((x).withSys (sys)).empty (.s d.toNat) = x.empty (.s d.toNat) := fun _ => rfl
      rw [hl, he, Group.live_setS, Group.empty_setS]
      simp [hd32]
  · simp [Group.predBit]

/-- The frame of a write of lane register `d`. -/
theorem framed_setV {g g' : Group} {n : Need} {d : BitVec 5} {m : Mask} {f : Nat → Word} {sys : SysRegs}
    (hd : n.dests = [vr d])
    (hs : g'.still = ((((g.closedBy n).begun n).setV g d.toNat m f).withSys (sys)).still)
    (hp : ((((g.closedBy n).begun n).setV g d.toNat m f).withSys (sys)).goesTo none g') :
    Framed g n none sys none g' := by
  have hd32 : d.toNat < 32 := d.isLt
  refine framed_of hs hp ?_ ?_ rfl (fun r hr => ?_) (fun r hr => ?_) (fun j l hj hq hl => ?_)
  · exact begun_place g n
  · refine ⟨?_, ?_, ?_, ?_, ?_⟩
    · exact begun_id g n
    · exact begun_alive g n
    · exact begun_pin g n
    · exact begun_trap g n
    · exact begun_pend g n
  · have hne : r ≠ .v d.toNat := by rintro rfl; apply hr; simp [hd, vr]
    have hl : ∀ x : Group, ((x).withSys (sys)).live r = x.live r := fun x => by cases r <;> rfl
    have he : ∀ x : Group, ((x).withSys (sys)).empty r = x.empty r := fun x => by cases r <;> rfl
    have hv : ∀ (x : Group) l, ((x).withSys (sys)).value r l = x.value r l := fun x l => by cases r <;> rfl
    rw [hl, he, Group.live_setV, Group.empty_setV, if_neg (fun h => hne h.1), if_neg hne]
    refine ⟨rfl, rfl, fun l => ?_⟩
    rw [hv]
    cases r with
    | s j => rfl
    | v j =>
      simp only [Group.value, Group.vreg_setV]
      rw [if_neg]; rintro rfl; exact hne rfl
  · have : r = .v d.toNat := by simpa [hd, vr] using hr
    subst this
    have hl : ∀ x : Group, ((x).withSys (sys)).live (.v d.toNat) = x.live (.v d.toNat) := fun _ => rfl
    have he : ∀ x : Group, ((x).withSys (sys)).empty (.v d.toNat) = x.empty (.v d.toNat) := fun _ => rfl
    rw [hl, he, Group.live_setV, Group.empty_setV]
    simp [hd32]
  · have : (((g.closedBy n).begun n).setV g d.toNat m f).regs.p = g.regs.p := begun_p g n
    simp only [Group.predBit, withSys_regs, this]

/-! ### Register instructions -/

/-- The group from which the own effect of an instruction of group `g` starts. -/
abbrev start (need : Group → Need) (g : Group) : Group := (g.closedBy (need g)).begun (need g)

theorem regOp_setS {i : Instr} {w : W32} {need : Group → Need} {f : Group → Group → Group} {d : BitVec 5} {v : Group → Word}
    {sys : Group → SysRegs} (hi : ∀ s, exec i s = issue w need noGate (onGroup f) s) (he : encode i = some w)
    (hd : ∀ g, (need g).dests = pick (sr d != .s 0) (sr d))
    (hf : ∀ g, f g (start need g) = ((start need g).setS d.toNat (v g)).withSys (sys g)) :
    RegOp i need none sys (fun g g' => ScalarValue d (v g) g') := by
  intro s k g r
  refine leaves_onGroup (hi s) he r ?_ (fun g' hs hp => ?_)
  · rw [hf]; simp
  · rw [hf] at hs hp
    refine ⟨framed_setS (hd g) hs hp, ?_⟩
    have := value_regs (still_regs hs) (.s d.toNat) 0
    simp only [Group.value] at this
    show g'.sreg d.toNat = if d = 0 then 0 else v g
    rw [this]
    have h2 : (((start need g).setS d.toNat (v g)).withSys (sys g)).sreg d.toNat =
      ((start need g).setS d.toNat (v g)).sreg d.toNat := rfl
    rw [h2, Group.sreg_setS]
    by_cases h : d = 0
    · subst h; simp
    · have h' : d.toNat ≠ 0 := fun e => h (BitVec.eq_of_toNat_eq e)
      rw [if_pos ⟨rfl, h'⟩, if_neg h]

/-- The group with other notes for a context that memory holds. -/
def Group.withNotes (g : Group) (ns : List Note) : Group := { g with notes := ns }

theorem still_withNotes (g : Group) (ns : List Note) : (g.withNotes ns).still = g.still := rfl
theorem place_withNotes (g : Group) (ns : List Note) : (g.withNotes ns).place = g.place := rfl
theorem id_withNotes (g : Group) (ns : List Note) : (g.withNotes ns).id = g.id := rfl
theorem id_withSys (g : Group) (x : SysRegs) : (g.withSys x).id = g.id := rfl

theorem regOp_setV {i : Instr} {w : W32} {need : Group → Need} {f : Group → Group → Group} {d : BitVec 5} {q : BitVec 3}
    {v : Group → Nat → Word} {sys : Group → SysRegs} (hi : ∀ s, exec i s = issue w need noGate (onGroup f) s)
    (he : encode i = some w) (hd : ∀ g, (need g).dests = [vr d])
    (hf : ∀ g, ∃ ns, f g (start need g) = (((start need g).setV g d.toNat (g.eff q.toNat) (v g)).withSys (sys g)).withNotes ns) :
    RegOp i need none sys (fun g g' => LaneValues g d q (v g) g') := by
  intro s k g r
  obtain ⟨ns, hf⟩ := hf g
  refine leaves_onGroup (hi s) he r ?_ (fun g' hs hp => ?_)
  · rw [hf, id_withNotes, id_withSys]; exact begun_id g _
  · rw [hf] at hs hp
    rw [still_withNotes] at hs
    replace hp := goesTo_of (place_withNotes _ _) hp
    refine ⟨framed_setV (hd g) hs hp, fun l hl => ?_⟩
    have := value_regs (still_regs hs) (.v d.toNat) l
    simp only [Group.value] at this
    rw [this]
    have h2 : (((start need g).setV g d.toNat (g.eff q.toNat) (v g)).withSys (sys g)).vreg d.toNat l =
      ((start need g).setV g d.toNat (g.eff q.toNat) (v g)).vreg d.toNat l := rfl
    rw [h2, Group.vreg_setV, if_pos rfl, if_pos hl]
    rfl

theorem regOp_setP {i : Instr} {w : W32} {need : Group → Need} {f : Group → Group → Group} {d q : BitVec 3}
    {v : Group → Nat → Bool} {sys : Group → SysRegs} (hi : ∀ s, exec i s = issue w need noGate (onGroup f) s)
    (he : encode i = some w) (hd : ∀ g, (need g).dests = [])
    (hf : ∀ g, ∃ ns, f g (start need g) = (((start need g).setP d.toNat (g.eff q.toNat) (v g)).withSys (sys g)).withNotes ns) :
    RegOp i need (some d.toNat) sys (fun g g' => g.id.foot ≤ 4 → PredValues g d q (v g) g') := by
  intro s k g r
  have hid : ∀ g : Group, ∀ m f, (g.setP d.toNat m f).id = g.id := by
    intro g m f; unfold Group.setP; split <;> rfl
  obtain ⟨ns, hf⟩ := hf g
  refine leaves_onGroup (hi s) he r ?_ (fun g' hs hp => ?_)
  · rw [hf, id_withNotes, id_withSys]; exact (hid _ _ _).trans (begun_id g _)
  · rw [hf] at hs hp
    rw [still_withNotes] at hs
    replace hp := goesTo_of (place_withNotes _ _) hp
    have hkeep : ∀ g : Group, ∀ m f r, (g.setP d.toNat m f).live r = g.live r ∧ (g.setP d.toNat m f).empty r = g.empty r ∧
        ∀ l, (g.setP d.toNat m f).value r l = g.value r l := by
      intro g m f r; unfold Group.setP; split
      · exact ⟨rfl, rfl, fun _ => rfl⟩
      · cases r <;> exact ⟨rfl, rfl, fun _ => rfl⟩
    have hrest : ∀ g : Group, ∀ m f, (g.setP d.toNat m f).alive = g.alive ∧ (g.setP d.toNat m f).regs.pin = g.regs.pin ∧
        (g.setP d.toNat m f).trap = g.trap ∧ (g.setP d.toNat m f).pend = g.pend ∧ (g.setP d.toNat m f).place = g.place := by
      intro g m f; unfold Group.setP; split <;> exact ⟨rfl, rfl, rfl, rfl, rfl⟩
    obtain ⟨a1, a2, a3, a4, a5⟩ := hrest (start need g) (g.eff q.toNat) (v g)
    refine ⟨framed_of hs hp (a5.trans (begun_place g _)) ⟨(hid _ _ _).trans (begun_id g _), a1.trans (begun_alive g _),
      a2.trans (begun_pin g _), a3.trans (begun_trap g _), a4.trans (begun_pend g _)⟩ rfl (fun r _ => ?_) (fun r hr => ?_)
      (fun j l hj hq hl => ?_), fun hfoot hd0 l hl => ?_⟩
    · obtain ⟨b1, b2, b3⟩ := hkeep (start need g) (g.eff q.toNat) (v g) r
      cases r <;> exact ⟨b1, b2, b3⟩
    · rw [hd g] at hr; cases hr
    · show bit (((start need g).setP d.toNat (g.eff q.toNat) (v g)).regs.p.getD (j - 1) 0) l = _
      have hne : j ≠ d.toNat := fun e => hq (by rw [e])
      unfold Group.setP
      split
      · simp only [start, begun_p, Group.predBit]
      · rename_i h0
        have : (j - 1) ≠ d.toNat - 1 := by omega
        have key := getD_setPad (0 : Mask) (start need g).regs.p (d.toNat - 1) (j - 1)
          (maskOf (start need g).lanes (fun l => if bit (g.eff q.toNat) l then v g l else bit ((start need g).regs.p.getD (d.toNat - 1) 0) l))
        simp only [start, begun_p] at key ⊢
        rw [key, if_neg this]; rfl
    · have hz : d.toNat ≠ 0 := fun e => hd0 (BitVec.eq_of_toNat_eq e)
      have hr := still_regs hs
      have hreg : g'.regs = ((start need g).setP d.toNat (g.eff q.toNat) (v g)).regs := hr
      have hlanes : (start need g).lanes = g.lanes := by simp only [Group.lanes, start, begun_id]
      have key := Group.pred_setP (start need g) d.toNat (g.eff q.toNat) (v g) d.toNat l
        (by simpa only [start, begun_id] using hfoot) (by rw [hlanes]; exact hl)
      simp only [Group.predBit, hreg, key, hz, ne_eq, not_false_eq_true, and_self, if_true, start, begun_p]

theorem withSys_of {g : Group} {x : SysRegs} (h : g.sys = x) : g.withSys x = g := by subst h; rfl

/-- The same laws for effects that leave the system registers alone. -/
theorem regOp_setS' {i : Instr} {w : W32} {need : Group → Need} {f : Group → Group → Group} {d : BitVec 5} {v : Group → Word}
    (hi : ∀ s, exec i s = issue w need noGate (onGroup f) s) (he : encode i = some w)
    (hd : ∀ g, (need g).dests = pick (sr d != .s 0) (sr d))
    (hf : ∀ g, f g (start need g) = (start need g).setS d.toNat (v g)) :
    RegOp i need none Group.sys (fun g g' => ScalarValue d (v g) g') :=
  regOp_setS hi he hd (fun g => by rw [hf, withSys_of]; simp)

theorem regOp_setV' {i : Instr} {w : W32} {need : Group → Need} {f : Group → Group → Group} {d : BitVec 5} {q : BitVec 3}
    {v : Group → Nat → Word} (hi : ∀ s, exec i s = issue w need noGate (onGroup f) s)
    (he : encode i = some w) (hd : ∀ g, (need g).dests = [vr d])
    (hf : ∀ g, f g (start need g) = (start need g).setV g d.toNat (g.eff q.toNat) (v g)) :
    RegOp i need none Group.sys (fun g g' => LaneValues g d q (v g) g') :=
  regOp_setV hi he hd (fun g => ⟨(start need g).notes, by rw [hf, withSys_of]; rfl; exact begun_sys g _⟩)

theorem regOp_setP' {i : Instr} {w : W32} {need : Group → Need} {f : Group → Group → Group} {d q : BitVec 3}
    {v : Group → Nat → Bool} (hi : ∀ s, exec i s = issue w need noGate (onGroup f) s)
    (he : encode i = some w) (hd : ∀ g, (need g).dests = [])
    (hf : ∀ g, f g (start need g) = (start need g).setP d.toNat (g.eff q.toNat) (v g)) :
    RegOp i need (some d.toNat) Group.sys (fun g g' => g.id.foot ≤ 4 → PredValues g d q (v g) g') :=
  regOp_setP hi he hd (fun g => ⟨((start need g).setP d.toNat (g.eff q.toNat) (v g)).notes, by
    rw [hf, withSys_of]
    · rfl
    · unfold Group.setP
      split <;> exact begun_sys g _⟩)

end Sys2Proof.Machine
end

