-- ==== Sys2Proof/Laws/Words.lean ====
section
/-!
SUPPORT. Numbers and words: signed values, wrapped results, fields, and packed elements.
-/

namespace Sys2Proof.Machine

theorem sval_toNat {w : Nat} (x : BitVec w) : sval w x.toNat = x.toInt := by
  unfold sval
  have h : x.toNat % 2 ^ w = x.toNat := Nat.mod_eq_of_lt x.isLt
  simp only [h]
  rw [BitVec.toInt_eq_toNat_cond]
  cases w with
  | zero => simp [BitVec.eq_nil x]
  | succ w =>
    have h2 : 2 ^ (w + 1) = 2 * 2 ^ w := by rw [Nat.pow_succ, Nat.mul_comm]
    simp only [Nat.add_sub_cancel, h2]
    have h3 : (2 : Int) ^ (w + 1) = 2 * 2 ^ w := by rw [Int.pow_succ, Int.mul_comm]
    split <;> split <;> first | rfl | omega | (push_cast; rw [h3])

theorem ofNat_wrap (w : Nat) (i : Int) : BitVec.ofNat w (wrap w i) = BitVec.ofInt w i := by
  apply BitVec.eq_of_toNat_eq
  have hp : (0 : Int) < 2 ^ w := Int.pow_pos (by decide)
  have hc : ((2 ^ w : Nat) : Int) = 2 ^ w := by push_cast; rfl
  rw [BitVec.toNat_ofNat, BitVec.toNat_ofInt, hc]
  unfold wrap
  apply Nat.mod_eq_of_lt
  have := Int.emod_lt_of_pos i hp
  have h0 := Int.emod_nonneg i (Int.ne_of_gt hp)
  omega

theorem packN_lt (w : Nat) (f : Nat → Nat) (m : Nat) : packN w f m < 2 ^ (w * m) := by
  induction m with
  | zero => simp [packN]
  | succ m ih =>
    have h1 : f m % 2 ^ w ≤ 2 ^ w - 1 := by have := Nat.mod_lt (f m) (Nat.two_pow_pos w); omega
    have h2 : f m % 2 ^ w * 2 ^ (w * m) ≤ (2 ^ w - 1) * 2 ^ (w * m) := Nat.mul_le_mul_right _ h1
    have h3 : (2 ^ w - 1) * 2 ^ (w * m) + 2 ^ (w * m) = 2 ^ (w * (m + 1)) := by
      rw [Nat.mul_succ, Nat.pow_add, Nat.mul_comm (2 ^ (w * m)), ← Nat.succ_mul]
      congr 1
      have := Nat.two_pow_pos w
      omega
    simp only [packN]; omega

theorem elem_pack {w : Nat} (n : Nat) (f : Nat → Nat) (e : Nat) (h : e < n) :
    packN w f n / 2 ^ (w * e) % 2 ^ w = f e % 2 ^ w := by
  induction n with
  | zero => omega
  | succ n ih =>
    simp only [packN]
    by_cases e' : e = n
    · subst e'
      rw [Nat.add_mul_div_right _ _ (Nat.two_pow_pos _), Nat.div_eq_of_lt (packN_lt w f e), Nat.zero_add, Nat.mod_mod]
    · have hlt : e < n := by omega
      have h1 : 2 ^ (w * n) = 2 ^ (w * e) * (2 ^ w * 2 ^ (w * (n - e - 1))) := by
        rw [← Nat.pow_add, ← Nat.pow_add]; congr 1
        have : n = e + 1 + (n - e - 1) := by omega
        calc w * n = w * (e + 1 + (n - e - 1)) := by rw [← this]
          _ = w * e + (w + w * (n - e - 1)) := by rw [Nat.mul_add, Nat.mul_succ]; omega
      rw [h1, Nat.mul_comm (f n % 2 ^ w), Nat.mul_assoc, Nat.add_mul_div_left _ _ (Nat.two_pow_pos _), Nat.mul_assoc,
        Nat.add_mul_mod_self_left]
      exact ih hlt

end Sys2Proof.Machine
end

