-- ==== Sys2Proof/Laws/Families.lean ====
section
/-!
SUPPORT. One law per shape of register instruction: what an instruction whose arm is that shape computes.
-/

namespace Sys2Proof.Machine

/-! ### Scalars -/

/-- A 32-bit result keeps the upper half of a destination that is live when the effect starts. -/
theorem putW_eq (g h : Group) (n : Need) (x : Bool) (d : BitVec 5) (v : Nat)
    (hl : h.live (sr d) = if sr d ∈ n.frees ∧ sr d ≠ .s 0 then false else g.live (sr d))
    (hv : h.sreg d.toNat = if sr d ∈ n.frees then 0 else g.sreg d.toNat) :
    h.putW x d.toNat v = h.setS d.toNat (BitVec.ofNat 64 (if x then
      v % 2 ^ 32 + (if g.live (sr d) && !n.frees.contains (sr d) then bits (g.sreg d.toNat) 63 32 * 2 ^ 32 else 0) else v)) := by
  by_cases hd : d = 0
  · subst hd; simp [Group.putW, Group.setS]
  · unfold Group.putW
    have hs : sr d ≠ .s 0 := by
      intro e; apply hd; apply BitVec.eq_of_toNat_eq; simpa [sr] using e
    have hl' : h.live (.s d.toNat) = if sr d ∈ n.frees then false else g.live (sr d) := by
      have := hl; simp only [hs, ne_eq, not_false_eq_true, and_true] at this; exact this
    by_cases hf : sr d ∈ n.frees
    · have hc : n.frees.contains (sr d) = true := by simpa using hf
      simp only [hl', if_pos hf, hc, Bool.not_true, Bool.and_false, Bool.false_eq_true, if_false]
    · have hc : n.frees.contains (sr d) = false := by simpa using hf
      simp only [hl', hv, if_neg hf, hc, Bool.not_false, Bool.and_true]

theorem scalar2_of {i : BitVec 5 → BitVec 5 → BitVec 5 → Bool → Bool → Bool → Bool → Instr} {f f' : Nat → Nat → Nat → Nat}
    {w : BitVec 5 → BitVec 5 → BitVec 5 → Bool → Bool → Bool → Bool → W32}
    (hi : ∀ d a b l m e x s, exec (i d a b l m e x) s = scalarBin (w d a b l m e x) d a b l m e x f s)
    (he : ∀ d a b l m e x, encode (i d a b l m e x) = some (w d a b l m e x))
    (hf : ∀ w a b, f w a b = f' w a b) : Scalar2 i f' := by
  have : f = f' := by funext; apply hf
  subst this
  intro d a b l m e x
  exact regOp_setS' (fun s => hi d a b l m e x s) (he ..) (fun _ => rfl)
    (fun g => putW_eq g _ (scalarNeed d a b l m e x g) x d _ (begun_live g _ _) (begun_sreg g _ _))

theorem scalar1_of {i : BitVec 5 → BitVec 5 → Bool → Bool → Bool → Instr} {f f' : Nat → Nat → Nat}
    {w : BitVec 5 → BitVec 5 → Bool → Bool → Bool → W32}
    (hi : ∀ d a l e x s, exec (i d a l e x) s = scalarUn (w d a l e x) d a l e x f s)
    (he : ∀ d a l e x, encode (i d a l e x) = some (w d a l e x)) (hf : ∀ w a, f w a = f' w a) : Scalar1 i f' := by
  have : f = f' := by funext; apply hf
  subst this
  intro d a l e x
  exact regOp_setS' (fun s => hi d a l e x s) (he ..) (fun _ => rfl)
    (fun g => putW_eq g _ (needS g [(sr a, l)] (some (sr d)) (g.keeps x d (freed [(sr a, l)])) e) x d _
      (begun_live g _ _) (begun_sreg g _ _))

theorem scalarI_of {i : BitVec 5 → BitVec 5 → Bool → BitVec 11 → Instr} {f : Nat → Word → Nat} {f' : Word → Word → Word}
    {w : BitVec 5 → BitVec 5 → Bool → BitVec 11 → W32}
    (hi : ∀ d a l n s, exec (i d a l n) s = scalarImm (w d a l n) d a l n f s)
    (he : ∀ d a l n, encode (i d a l n) = some (w d a l n))
    (hf : ∀ a i, BitVec.ofNat 64 (f a.toNat i) = f' a i) : ScalarI i f' := by
  intro d a l n
  have := regOp_setS' (i := i d a l n) (fun s => hi d a l n s) (he ..) (fun _ => rfl) (fun _ => rfl)
  simp only [hf] at this
  exact this

theorem scalarOut_of {i : Instr} {d : BitVec 5} {srcs : List (Reg × Bool)} {reads e : Bool} {v v' : Group → Word} {w : W32}
    (hi : ∀ s, exec i s = issue w (fun g => needS g srcs (some (sr d)) reads e) noGate
      (onGroup (fun g g' => g'.setS d.toNat (v g))) s) (he : encode i = some w) (hv : ∀ g, v g = v' g) :
    ScalarOut i d srcs reads e v' := by
  have : v = v' := by funext; apply hv
  subst this
  exact regOp_setS' hi he (fun _ => rfl) (fun _ => rfl)

/-! ### Lanes -/

theorem or_fxNone (x : Word) : x ||| BitVec.ofNat 64 fxNone.toNat = x := BitVec.or_zero

theorem addFlags_none (g : Group) : g.addFlags fxNone = g := if_pos rfl

/-- What flags leave of a group: its system registers, and notes. -/
theorem addFlags_eq (g : Group) (f : Fx) : ∃ ns, g.addFlags f =
    (g.withSys { g.sys with fpx := g.sys.fpx ||| BitVec.ofNat 64 f.toNat }).withNotes ns := by
  unfold Group.addFlags
  split
  · rename_i h
    subst h
    exact ⟨g.notes, by simp only [or_fxNone]; rfl⟩
  · exact ⟨_, rfl⟩

/-- What `laneOut`, then a step of the generator, leaves of the group. -/
theorem laneOut_step (g h : Group) (q : BitVec 3) (d : BitVec 5) (m : Rnd) (f : Group → Nat → Word × Fx) (hs : h.sys = g.sys) :
    ∃ ns, (laneOut q.toNat d f g h).step m = ((h.setV g d.toNat (g.eff q.toNat) (fun l => (f g l).1)).withSys
      { g.sys with
        fpx := g.sys.fpx ||| BitVec.ofNat 64 (orFlags g.lanes (g.eff q.toNat) (fun l => (f g l).2)).toNat
        lfsr := stepped m g.sys.lfsr }).withNotes ns := by
  obtain ⟨ns, e⟩ := addFlags_eq (h.setV g d.toNat (g.eff q.toNat) (fun l => (f g l).1))
    (orFlags g.lanes (g.eff q.toNat) (fun l => (f g l).2))
  have : (h.setV g d.toNat (g.eff q.toNat) (fun l => (f g l).1)).sys = g.sys := hs
  exact ⟨ns, by simp only [laneOut, e, Group.step, Group.withSys, Group.withNotes, this]⟩

theorem laneElems_of {g g' : Group} {d : BitVec 5} {q : BitVec 3} {w n : Nat} {v : Nat → Nat → Nat} (hw : 0 < w) (hn : n * w ≤ 64)
    (h : LaneValues g d q (fun l => BitVec.ofNat 64 (packN w (v l) n)) g') :
    LaneElems g d q w (fun l k => if k < n then v l k else 0) g' := by
  intro l hl e he
  have := congrArg (fun x => elem w x e) (h l hl)
  simp only at this
  rw [this]
  show _ = if _ then (if e < n then v l e else 0) % 2 ^ w else _
  split
  · show packN w (v l) n % 2 ^ 64 / 2 ^ (w * e) % 2 ^ w = _
    rw [Nat.mod_eq_of_lt (Nat.lt_of_lt_of_le (packN_lt w (v l) n) (Nat.pow_le_pow_right (by decide) (by rw [Nat.mul_comm]; exact hn)))]
    split
    · rename_i hk; rw [elem_pack n _ e hk]
    · rename_i hk
      rw [Nat.div_eq_of_lt]
      exact Nat.lt_of_lt_of_le (packN_lt w (v l) n) (Nat.pow_le_pow_right (by omega) (Nat.mul_le_mul_left _ (by omega)))
  · split
    · rfl
    · simp [elem]

theorem laneFloat_of {i : Instr} {d : BitVec 5} {q : BitVec 3} {srcs : List (Reg × Bool)} {reads e : Bool} {w n : Nat}
    {m : Group → Rnd} {v : Group → Nat → Nat → Nat × Fx} {f : Group → Nat → Word × Fx} {c : W32}
    (hi : ∀ s, exec i s = issue c (fun g => needV g srcs (vr d) reads e q.toNat) noGate
      (onGroup (fun g g' => (laneOut q.toNat d f g g').step (m g))) s) (he : encode i = some c)
    (hf : ∀ g l, f g l = packF w n (v g l)) (hw : 0 < w) (hn : n * w ≤ 64) : LaneFloat i d q srcs reads e w n m v := by
  have hf : f = fun g l => packF w n (v g l) := by funext g l; exact hf g l
  subst hf
  intro s k g r
  have h := regOp_setV (sys := fun g => floatSys g q n (m g) (v g))
    (v := fun g l => BitVec.ofNat 64 (packN w (fun e => (v g l e).1) n)) hi he (fun _ => rfl) (fun g =>
      laneOut_step g (start _ g) q d (m g) _ (begun_sys g _)) s k g r
  obtain ⟨t, g', h1, h2, h3, h4, h5⟩ := h
  exact ⟨t, g', h1, h2, h3, h4, laneElems_of hw hn h5⟩

theorem orFlags_none (n : Nat) (m : Mask) : orFlags n m (fun _ => fxNone) = fxNone := by
  unfold orFlags
  generalize lanesOf n m = l
  induction l with
  | nil => rfl
  | cons a t ih => simpa using ih

theorem laneValues_of {i : Instr} {d : BitVec 5} {q : BitVec 3} {srcs : List (Reg × Bool)} {reads e : Bool}
    {f : Group → Nat → Word} {c : W32}
    (hi : ∀ s, exec i s = issue c (fun g => needV g srcs (vr d) reads e q.toNat) noGate
      (onGroup (laneOut q.toNat d (fun g l => (f g l, fxNone)))) s) (he : encode i = some c) :
    RegOp i (fun g => needV g srcs (vr d) reads e q.toNat) none Group.sys (fun g g' => LaneValues g d q (f g) g') :=
  regOp_setV' hi he (fun _ => rfl) (fun g => by
    simp only [laneOut, orFlags_none, addFlags_none])

theorem laneOp_of {i : Instr} {d : BitVec 5} {q : BitVec 3} {srcs : List (Reg × Bool)} {reads e : Bool} {w : Nat}
    {f : Group → Nat → Word} {v : Group → Nat → Nat → Nat} {c : W32}
    (hi : ∀ s, exec i s = issue c (fun g => needV g srcs (vr d) reads e q.toNat) noGate
      (onGroup (laneOut q.toNat d (fun g l => (f g l, fxNone)))) s) (he : encode i = some c)
    (hf : ∀ g l, f g l = pack w (v g l)) (hw : 0 < w) : LaneOp i d q srcs reads e w v := by
  intro s k g r
  obtain ⟨t, g', h1, h2, h3, h4, h5⟩ := laneValues_of hi he s k g r
  refine ⟨t, g', h1, h2, h3, h4, ?_⟩
  have h5 : LaneValues g d q (fun l => BitVec.ofNat 64 (packN w (v g l) (64 / w))) g' := by
    have : f g = fun l => BitVec.ofNat 64 (packN w (v g l) (64 / w)) := by funext l; exact hf g l
    rw [← this]; exact h5
  have h6 := laneElems_of hw (Nat.div_mul_le_self 64 w) h5
  intro l hl e he
  rw [h6 l hl e he]
  simp only [he, if_true]

theorem pack_word (x : Word) : pack 64 (fun _ => x.toNat) = x := by
  apply BitVec.eq_of_toNat_eq
  simp only [pack, packN, BitVec.toNat_ofNat]
  have := x.isLt
  omega

/-- The law for words, read as one element of 64 bits. -/
theorem laneOp64_of {i : Instr} {d : BitVec 5} {q : BitVec 3} {srcs : List (Reg × Bool)} {reads e : Bool}
    {f : Group → Nat → Word} {v : Group → Nat → Nat → Nat} {c : W32}
    (hi : ∀ s, exec i s = issue c (fun g => needV g srcs (vr d) reads e q.toNat) noGate
      (onGroup (laneOut q.toNat d (fun g l => (f g l, fxNone)))) s) (he : encode i = some c)
    (hf : ∀ g l, (f g l).toNat = v g l 0) : LaneOp i d q srcs reads e 64 v :=
  laneOp_of hi he (fun g l => by
    rw [← pack_word (f g l), hf]
    simp only [pack, packN]) (by decide)

theorem predOp_of {i : Instr} {d q : BitVec 3} {srcs : List (Reg × Bool)} {e : Bool} {f : Group → Nat → Bool} {x : Group → Nat → Fx}
    {c : W32} (hi : ∀ s, exec i s = issue c (fun g => needL g srcs [] e q.toNat) noGate (onGroup (fun g g' =>
      (g'.setP d.toNat (g.eff q.toNat) (f g)).addFlags (orFlags g.lanes (g.eff q.toNat) (x g)))) s) (he : encode i = some c) :
    PredOp i d q srcs e f x := by
  refine regOp_setP hi he (fun _ => rfl) (fun g => ?_)
  have : ((start (fun g => needL g srcs [] e q.toNat) g).setP d.toNat (g.eff q.toNat) (f g)).sys = g.sys := by
    unfold Group.setP; split <;> exact begun_sys g _
  obtain ⟨ns, e⟩ := addFlags_eq ((start (fun g => needL g srcs [] e q.toNat) g).setP d.toNat (g.eff q.toNat) (f g))
    (orFlags g.lanes (g.eff q.toNat) (x g))
  refine ⟨ns, e.trans ?_⟩
  simp only [Group.withSys, this, floatSys, stepped]
  have hx : (fun l => fxNone ||| x g l) = x g := by funext l; exact BitVec.zero_or
  simp [hx]

theorem predOp_of' {i : Instr} {d q : BitVec 3} {srcs : List (Reg × Bool)} {e : Bool} {f : Group → Nat → Bool}
    {c : W32} (hi : ∀ s, exec i s = predOp c d srcs e q f s) (he : encode i = some c) :
    PredOp i d q srcs e f (fun _ _ => fxNone) :=
  predOp_of (fun s => by
    rw [hi s]
    unfold predOp
    congr 1
    funext k g s
    simp only [onGroup, orFlags_none, addFlags_none]) he

end Sys2Proof.Machine
end

