-- ==== Sys2Proof/Laws/Memory.lean ====
section
/-!
SUPPORT. Laws of the homes and the views: a read after a write, and that every operation over memory keeps the canonical form.
-/

namespace Sys2Proof.Machine

/-! ### One byte -/

theorem readByte_writeByte (m : List Host.Cell) (a b : Nat) (v : Byte) :
    readByte (writeByte m a v) b = if b = a then v else readByte m b := by
  unfold readByte writeByte
  by_cases hv : v = unwritten
  · rw [if_pos hv]
    by_cases h : b = a <;> simp [Tab.getD, Tab.get_erase, h, hv]
  · rw [if_neg hv]
    by_cases h : b = a <;> simp [Tab.getD, Tab.get_set, h]

theorem memWf_writeByte {m : List Host.Cell} (h : memWf m = true) (a : Nat) (v : Byte) : memWf (writeByte m a v) = true := by
  simp only [memWf, Bool.and_eq_true, List.all_eq_true, bne_iff_ne, ne_eq] at h ⊢
  unfold writeByte
  split
  · exact ⟨Tab.wf_erase h.1 a, fun x hx => h.2 x (Tab.mem_erase hx)⟩
  · refine ⟨Tab.wf_set h.1 a v, fun x hx => ?_⟩
    rcases Tab.mem_set hx with rfl | hx
    · assumption
    · exact h.2 x hx

theorem memWf_reset : memWf State.reset.mem = true := rfl

/-! ### Operations that leave the homes alone -/

@[simp] theorem State.mem_modCore (s : State) (c : Nat) (f : Core → Core) : (s.modCore c f).mem = s.mem := rfl
@[simp] theorem State.mem_modDie (s : State) (d : Nat) (f : Die → Die) : (s.modDie d f).mem = s.mem := rfl
@[simp] theorem State.mem_modGroup (s : State) (k : Nat) (f : Group → Group) : (s.modGroup k f).mem = s.mem := rfl
@[simp] theorem State.mem_modTeam (s : State) (k : Nat) (f : Team → Team) : (s.modTeam k f).mem = s.mem := rfl
@[simp] theorem State.mem_modGrid (s : State) (k : Nat) (f : Grid → Grid) : (s.modGrid k f).mem = s.mem := rfl
@[simp] theorem State.mem_setGroup (s : State) (k : Nat) (g : Group) : (s.setGroup k g).mem = s.mem := rfl
@[simp] theorem State.mem_tickFresh (s : State) : s.tickFresh.mem = s.mem := rfl
@[simp] theorem mem_addPoison (s : State) (a : Nat) : (addPoison s a).mem = s.mem := rfl
@[simp] theorem mem_coverPoison (s : State) (a n : Nat) : (coverPoison s a n).mem = s.mem := by
  unfold coverPoison; split <;> rfl
@[simp] theorem mem_noteRemote (s : State) (k : Nat) (id : Nat × Nat) (c : Poison) (w : Bool) (va : Nat) (pc : Word) (i : W32) :
    (noteRemote s k id c w va pc i).mem = s.mem := rfl
@[simp] theorem mem_mend (s : State) (p : ErrSite → Bool) : (s.mend p).mem = s.mem := rfl
@[simp] theorem mem_logError (s : State) (e : ErrSite) (c : Option ErrClass) : (logError s e c).mem = s.mem := rfl
@[simp] theorem mem_noteUncorr (s : State) (c n : Nat) : (noteUncorr s c n).mem = s.mem := by unfold noteUncorr; split <;> rfl
@[simp] theorem mem_noteUncorrAt (s : State) (e : ErrSite) : (noteUncorrAt s e).mem = s.mem := by
  unfold noteUncorrAt; split <;> simp
@[simp] theorem mem_setLayout (s : State) (c : Nat) (q : List LEntry) : (s.setLayout c q).mem = s.mem := by
  unfold State.setLayout; dsimp only; split <;> rfl
@[simp] theorem mem_loseScrub (s : State) (e : ErrSite) : (loseScrub s e).mem = s.mem := by
  unfold loseScrub; dsimp only; split <;> simp
@[simp] theorem mem_joinDies (s : State) (l : List (Nat × Nat)) : (joinDies s l).mem = s.mem := by
  unfold joinDies; split <;> rfl
@[simp] theorem mem_joinCores (s : State) (d : Nat) (l : List (Nat × Nat)) : (joinCores s d l).mem = s.mem := by
  unfold joinCores; split <;> rfl
@[simp] theorem mem_noteCorr (s : State) (e : ErrSite) : (noteCorr s e).mem = s.mem := by unfold noteCorr; split <;> rfl

@[simp] theorem mem_keepDies (s : State) (a : Nat) (o v : Byte) (n : Nat) : (keepDies s a o v n).mem = s.mem := by
  induction n with
  | zero => rfl
  | succ n ih => exact ih

@[simp] theorem mem_keepCores (s : State) (d a : Nat) (o v : Byte) (n : Nat) : (keepCores s d a o v n).mem = s.mem := by
  induction n with
  | zero => rfl
  | succ n ih => exact ih

@[simp] theorem mem_writeDieByte (s : State) (d a : Nat) (v : Byte) : (writeDieByte s d a v).mem = s.mem := by
  unfold writeDieByte
  dsimp only
  split
  · rfl
  · simp

@[simp] theorem mem_writeCoreByte (s : State) (c a : Nat) (v : Byte) : (writeCoreByte s c a v).mem = s.mem := rfl

theorem mem_overBytes {f : State → Nat → Byte → State} (hf : ∀ s a v, (f s a v).mem = s.mem) (s : State) (a : Nat) (bs : List Byte) :
    (overBytes f s a bs).mem = s.mem := by
  induction bs generalizing s a with
  | nil => rfl
  | cons b t ih => exact (ih _ _).trans (hf _ _ _)

@[simp] theorem mem_writeDie (s : State) (d a : Nat) (bs : List Byte) : (writeDie s d a bs).mem = s.mem := by
  unfold writeDie
  rw [mem_joinCores]
  exact mem_overBytes (fun _ _ _ => mem_writeDieByte _ _ _ _) s a bs

@[simp] theorem mem_writeCore (s : State) (c a : Nat) (bs : List Byte) : (writeCore s c a bs).mem = s.mem :=
  mem_overBytes (fun s a v => mem_writeCoreByte s c a v) s a bs

/-- What a fold leaves alone, if each of its steps does. -/
theorem mem_foldl {α : Type} {f : State → α → State} (hf : ∀ s x, (f s x).mem = s.mem) (l : List α) (s : State) :
    (l.foldl f s).mem = s.mem := by
  induction l generalizing s with
  | nil => rfl
  | cons x t ih => exact (ih _).trans (hf _ _)

@[simp] theorem mem_enterCore (s : State) (c : Nat) (x : Store) : (enterCore s c x).mem = s.mem := by
  unfold enterCore
  simp

@[simp] theorem mem_refreshCoreByte (s : State) (c a : Nat) : (refreshCoreByte s c a).mem = s.mem := by
  unfold refreshCoreByte
  split <;> simp

@[simp] theorem mem_refreshDieByte (s : State) (d a : Nat) : (refreshDieByte s d a).mem = s.mem := by
  unfold refreshDieByte
  split
  · rfl
  · dsimp only
    split <;> simp

@[simp] theorem mem_refreshCore (s : State) (c : Nat) : (refreshCore s c).mem = s.mem := rfl

@[simp] theorem mem_refreshDieBytes (s : State) (d : Nat) (l : List Nat) : (refreshDieBytes s d l).mem = s.mem := by
  unfold refreshDieBytes
  dsimp only
  rw [mem_joinCores, State.mem_modDie, mem_foldl (fun _ _ => mem_refreshDieByte _ _ _)]

@[simp] theorem mem_refreshCoreBytes (s : State) (c : Nat) (l : List Nat) : (refreshCoreBytes s c l).mem = s.mem := by
  unfold refreshCoreBytes
  rw [State.mem_modCore, mem_foldl (fun _ _ => mem_refreshCoreByte _ _ _)]

@[simp] theorem mem_refreshDie (s : State) (d : Nat) : (refreshDie s d).mem = s.mem := mem_refreshDieBytes _ _ _

@[simp] theorem mem_refreshPath (s : State) (c : Nat) (sc : Scope) : (refreshPath s c sc).mem = s.mem := by
  cases sc <;> simp [refreshPath]

/-! ### Checks of the arrays leave the homes alone -/

@[simp] theorem mem_poisonLine (s : State) (line : Nat) : (poisonLine s line).mem = s.mem :=
  mem_foldl (f := fun s i => addPoison s (128 * line + 32 * i)) (fun _ _ => rfl) (List.range 4) s

theorem mem_refetch {f : State → Nat → State} (hf : ∀ s a, (f s a).mem = s.mem) (s : State) (line : Nat) :
    (refetch s f line).mem = s.mem := mem_foldl (fun _ _ => hf _ _) _ _

theorem mem_loseLine {put : State → List Store → State} {f : State → Nat → State} (hp : ∀ s w, (put s w).mem = s.mem)
    (hf : ∀ s a, (f s a).mem = s.mem) (s : State) (v : View) (line : Nat) : (loseLine s v put f line).mem = s.mem := by
  unfold loseLine
  dsimp only
  split
  · rw [mem_poisonLine, mem_refetch hf, hp]
  · exact mem_refetch hf s line

@[simp] theorem mem_loseWord (s : State) (e : ErrSite) : (loseWord s e).mem = s.mem := by
  unfold loseWord
  split
  · rename_i c line
    dsimp only
    have h := mem_loseLine (put := fun s w => s.modCore c (fun k => { k with view := { k.view with wait := w } }))
      (fun _ _ => rfl) (fun s a => mem_refreshCoreByte s c a) s (s.core c).view line
    split <;> simp only [mem_noteUncorr, mem_noteCorr, mem_mend] <;> exact h
  · rename_i d line
    exact mem_loseLine (put := fun s w => s.modDie d (fun k => { k with view := { k.view with wait := w } }))
      (fun _ _ => rfl) (fun s a => mem_refreshDieByte s d a) s (s.die d).view line
  · simp
  · simp

@[simp] theorem mem_settleErr (s : State) (e : ErrSite) : (settleErr s e).mem = s.mem := by
  unfold settleErr
  split
  · rfl
  · split
    · rfl
    · split
      · split
        · rfl
        · rw [mem_mend, mem_logError]
      · dsimp only
        split
        · rw [mem_loseWord, mem_logError]
        · rw [mem_noteCorr, mem_mend, mem_logError]

@[simp] theorem mem_settleErrs (s : State) (p : ErrSite → Bool) : (settleErrs s p).mem = s.mem :=
  mem_foldl (fun _ _ => mem_settleErr _ _) _ _

@[simp] theorem mem_checkCore (s : State) (c : Nat) (go : List Store) : (checkCore s c go).mem = s.mem := by
  unfold checkCore; split <;> simp
@[simp] theorem mem_checkDie (s : State) (d : Nat) (go : List Store) : (checkDie s d go).mem = s.mem := by
  unfold checkDie; split <;> simp

/-! ### Writes at the homes -/

theorem homeByte_writeHomeByte (s : State) (a b : Nat) (v : Byte) :
    homeByte (writeHomeByte s a v) b = if b = a then v else homeByte s b := by
  unfold writeHomeByte
  dsimp only
  split
  · rename_i h
    by_cases hb : b = a
    · subst hb; simp [h]
    · simp [hb]
  · exact readByte_writeByte _ _ _ _

/-- A write at the homes changes those bytes alone. -/
theorem homeByte_overBytes (s : State) (a b : Nat) (bs : List Byte) :
    homeByte (overBytes writeHomeByte s a bs) b = if a ≤ b ∧ b < a + bs.length then bs.getD (b - a) 0 else homeByte s b := by
  induction bs generalizing s a with
  | nil =>
    have : ¬ (a ≤ b ∧ b < a + ([] : List Byte).length) := by simp
    rw [if_neg this]
    rfl
  | cons v t ih =>
    simp only [overBytes, ih, homeByte_writeHomeByte, List.length_cons]
    by_cases h1 : b = a
    · subst h1
      have h : ¬ (b + 1 ≤ b ∧ b < b + 1 + t.length) := by omega
      have h' : b ≤ b ∧ b < b + (t.length + 1) := by omega
      rw [if_neg h, if_pos rfl, if_pos h']
      simp
    · by_cases h2 : a + 1 ≤ b ∧ b < a + 1 + t.length
      · have h : a ≤ b ∧ b < a + (t.length + 1) := by omega
        rw [if_pos h2, if_pos h]
        have : b - a = (b - (a + 1)) + 1 := by omega
        rw [this]
        simp
      · have h : ¬ (a ≤ b ∧ b < a + (t.length + 1)) := by omega
        rw [if_neg h2, if_neg h, if_neg h1]

theorem homeByte_writeHome (s : State) (a b : Nat) (bs : List Byte) :
    homeByte (writeHome s a bs) b = if a ≤ b ∧ b < a + bs.length then bs.getD (b - a) 0 else homeByte s b := by
  unfold writeHome homeByte
  rw [mem_joinDies, mem_coverPoison]
  exact homeByte_overBytes s a b bs

theorem length_leBytes (n v : Nat) : (leBytes n v).length = n := by
  induction n generalizing v with
  | zero => rfl
  | succ n ih => simp [leBytes, ih]

/-! ### The canonical form -/

theorem Safe.of_mem {s t : State} (h : Safe s) (ht : t.mem = s.mem) : Safe t := by
  unfold Safe at *
  rw [ht]
  exact h

theorem Safe.writeHomeByte {s : State} (h : Safe s) (a : Nat) (v : Byte) : Safe (writeHomeByte s a v) := by
  unfold Machine.writeHomeByte
  dsimp only
  split
  · exact h
  · exact memWf_writeByte h a v

theorem Safe.writeHome {s : State} (h : Safe s) (a : Nat) (bs : List Byte) : Safe (writeHome s a bs) := by
  have key : ∀ (bs : List Byte) (s : State) (a : Nat), Safe s → Safe (overBytes Machine.writeHomeByte s a bs) := by
    intro bs
    induction bs with
    | nil => exact fun _ _ h => h
    | cons b t ih => exact fun s a h => ih _ _ (h.writeHomeByte a b)
  exact (key bs s a h).of_mem (by simp [Machine.writeHome])

theorem Safe.foldl {α : Type} {f : State → α → State} (hf : ∀ s x, Safe s → Safe (f s x)) (l : List α) {s : State} (h : Safe s) :
    Safe (l.foldl f s) := by
  induction l generalizing s with
  | nil => exact h
  | cons x t ih => exact ih (hf _ _ h)

theorem Safe.storeHome {s : State} (h : Safe s) (x : Store) : Safe (storeHome s x) := by
  unfold Machine.storeHome
  split
  · exact h.writeHome _ _
  · dsimp only
    split
    · split
      · exact Safe.writeHome (s := noteRemote s _ _ _ _ _ _ _) h _ _
      · exact h
    · exact h

theorem Safe.pushDie {s : State} (h : Safe s) (p : Store → Bool) (d : Nat) : Safe (pushDie p s d) :=
  Safe.foldl (fun _ x hs => hs.storeHome x) _ (h.of_mem (by rw [State.mem_modDie, mem_checkDie]))

theorem Safe.passOut {settle : State → Nat → Nat → Nat → State} (hs : ∀ s d a n, Safe s → Safe (settle s d a n)) {s : State}
    (h : Safe s) (p : Store → Bool) (c : Nat) : Safe (passOut settle p s c) :=
  Safe.foldl (fun s x h => (hs s (dieOf c) x.pa x.bytes.length h).of_mem (by simp)) _
    (h.of_mem (by rw [State.mem_modCore, mem_checkCore]))

theorem Safe.settleBy (fuel : Nat) : ∀ (s : State) (d a n : Nat), Safe s → Safe (settleBy fuel s d a n) := by
  induction fuel with
  | zero => exact fun _ _ _ _ h => h
  | succ fuel ih =>
    intro s d a n h
    unfold Machine.settleBy
    split
    · exact h
    · exact Safe.foldl (fun _ x hs => hs.pushDie _ x) _ (Safe.foldl (fun _ x hs => Safe.passOut ih hs _ x) _ h)

theorem Safe.settleLent {s : State} (h : Safe s) (d a n : Nat) : Safe (settleLent s d a n) := Safe.settleBy _ s d a n h

theorem Safe.enterDie {s : State} (h : Safe s) (d : Nat) (x : Store) : Safe (enterDie s d x) :=
  (h.settleLent d x.pa x.bytes.length).of_mem (by simp [Machine.enterDie])

theorem Safe.pushCore {s : State} (h : Safe s) (p : Store → Bool) (c : Nat) : Safe (pushCore p s c) :=
  Safe.passOut (fun _ _ _ _ h => h.settleLent _ _ _) h p c

theorem Safe.pushBytes {s : State} (h : Safe s) (c a n : Nat) : Safe (pushBytes s c a n) :=
  ((h.pushCore _ c).pushDie _ _).settleLent _ _ _

theorem Safe.writePath {s : State} (h : Safe s) (c a : Nat) (bs : List Byte) : Safe (writePath s c a bs) :=
  ((h.pushBytes c a bs.length).writeHome a bs).of_mem (by simp [Machine.writePath])

theorem Safe.pushPath {s : State} (h : Safe s) (c k : Nat) (sc : Scope) : Safe (pushPath s c k sc) := by
  cases sc <;> simp only [Machine.pushPath]
  case group => exact h
  case team => exact h
  case cluster => exact h.pushCore _ _
  case die => exact h.pushCore _ _
  case device => exact (h.pushCore _ _).pushDie _ _
  case system => exact (h.pushCore _ _).pushDie _ _

end Sys2Proof.Machine
end

