-- ==== Sys2Proof/Laws/PerInstr.lean ====
section
/-!
SUPPORT. Statements for all instructions, one lemma per constructor.  RoundTrip: the word of a well-formed instruction decodes to it.
-/

namespace Sys2Proof.Laws.RoundTrip

/-- The word of an instruction that is well-formed decodes to it. -/
def Statement (i : Instr) : Prop := ∀ w, encode i = some w → i.wf = true → decode w = .ok i

theorem of_raw {i : Instr} {w : BitVec 32} (he : encode i = some w) (hr : decodeRaw w = .ok i) : Statement i := by
  intro v hv hf
  rw [he] at hv
  cases hv
  exact decode_of_raw hr hf

theorem of_none {i : Instr} (he : encode i = none) : Statement i := by
  intro v hv
  rw [he] at hv
  cases hv

theorem add (d : BitVec 5) (a : BitVec 5) (b : BitVec 5) (l : Bool) (m : Bool) (e : Bool) (x : Bool) : Statement (.add d a b l m e x) := by
  refine of_raw rfl ((raw_01 (FmtA.op_pack _ _)).trans ?_)
  unfold dec01
  rw [FmtA.fn_pack, FmtA.unpack_pack]
  rfl

theorem sub (d : BitVec 5) (a : BitVec 5) (b : BitVec 5) (l : Bool) (m : Bool) (e : Bool) (x : Bool) : Statement (.sub d a b l m e x) := by
  refine of_raw rfl ((raw_01 (FmtA.op_pack _ _)).trans ?_)
  unfold dec01
  rw [FmtA.fn_pack, FmtA.unpack_pack]
  rfl

theorem and (d : BitVec 5) (a : BitVec 5) (b : BitVec 5) (l : Bool) (m : Bool) (e : Bool) (x : Bool) : Statement (.and d a b l m e x) := by
  refine of_raw rfl ((raw_01 (FmtA.op_pack _ _)).trans ?_)
  unfold dec01
  rw [FmtA.fn_pack, FmtA.unpack_pack]
  rfl

theorem or (d : BitVec 5) (a : BitVec 5) (b : BitVec 5) (l : Bool) (m : Bool) (e : Bool) (x : Bool) : Statement (.or d a b l m e x) := by
  refine of_raw rfl ((raw_01 (FmtA.op_pack _ _)).trans ?_)
  unfold dec01
  rw [FmtA.fn_pack, FmtA.unpack_pack]
  rfl

theorem xor (d : BitVec 5) (a : BitVec 5) (b : BitVec 5) (l : Bool) (m : Bool) (e : Bool) (x : Bool) : Statement (.xor d a b l m e x) := by
  refine of_raw rfl ((raw_01 (FmtA.op_pack _ _)).trans ?_)
  unfold dec01
  rw [FmtA.fn_pack, FmtA.unpack_pack]
  rfl

theorem andn (d : BitVec 5) (a : BitVec 5) (b : BitVec 5) (l : Bool) (m : Bool) (e : Bool) (x : Bool) : Statement (.andn d a b l m e x) := by
  refine of_raw rfl ((raw_01 (FmtA.op_pack _ _)).trans ?_)
  unfold dec01
  rw [FmtA.fn_pack, FmtA.unpack_pack]
  rfl

theorem shl (d : BitVec 5) (a : BitVec 5) (b : BitVec 5) (l : Bool) (m : Bool) (e : Bool) (x : Bool) : Statement (.shl d a b l m e x) := by
  refine of_raw rfl ((raw_01 (FmtA.op_pack _ _)).trans ?_)
  unfold dec01
  rw [FmtA.fn_pack, FmtA.unpack_pack]
  rfl

theorem shrI (d : BitVec 5) (a : BitVec 5) (b : BitVec 5) (l : Bool) (m : Bool) (e : Bool) (x : Bool) : Statement (.shrI d a b l m e x) := by
  refine of_raw rfl ((raw_01 (FmtA.op_pack _ _)).trans ?_)
  unfold dec01
  rw [FmtA.fn_pack, FmtA.unpack_pack]
  rfl

theorem shrN (d : BitVec 5) (a : BitVec 5) (b : BitVec 5) (l : Bool) (m : Bool) (e : Bool) (x : Bool) : Statement (.shrN d a b l m e x) := by
  refine of_raw rfl ((raw_01 (FmtA.op_pack _ _)).trans ?_)
  unfold dec01
  rw [FmtA.fn_pack, FmtA.unpack_pack]
  rfl

theorem rotl (d : BitVec 5) (a : BitVec 5) (b : BitVec 5) (l : Bool) (m : Bool) (e : Bool) (x : Bool) : Statement (.rotl d a b l m e x) := by
  refine of_raw rfl ((raw_01 (FmtA.op_pack _ _)).trans ?_)
  unfold dec01
  rw [FmtA.fn_pack, FmtA.unpack_pack]
  rfl

theorem rotr (d : BitVec 5) (a : BitVec 5) (b : BitVec 5) (l : Bool) (m : Bool) (e : Bool) (x : Bool) : Statement (.rotr d a b l m e x) := by
  refine of_raw rfl ((raw_01 (FmtA.op_pack _ _)).trans ?_)
  unfold dec01
  rw [FmtA.fn_pack, FmtA.unpack_pack]
  rfl

theorem mul (d : BitVec 5) (a : BitVec 5) (b : BitVec 5) (l : Bool) (m : Bool) (e : Bool) (x : Bool) : Statement (.mul d a b l m e x) := by
  refine of_raw rfl ((raw_01 (FmtA.op_pack _ _)).trans ?_)
  unfold dec01
  rw [FmtA.fn_pack, FmtA.unpack_pack]
  rfl

theorem mulhI (d : BitVec 5) (a : BitVec 5) (b : BitVec 5) (l : Bool) (m : Bool) (e : Bool) (x : Bool) : Statement (.mulhI d a b l m e x) := by
  refine of_raw rfl ((raw_01 (FmtA.op_pack _ _)).trans ?_)
  unfold dec01
  rw [FmtA.fn_pack, FmtA.unpack_pack]
  rfl

theorem mulhN (d : BitVec 5) (a : BitVec 5) (b : BitVec 5) (l : Bool) (m : Bool) (e : Bool) (x : Bool) : Statement (.mulhN d a b l m e x) := by
  refine of_raw rfl ((raw_01 (FmtA.op_pack _ _)).trans ?_)
  unfold dec01
  rw [FmtA.fn_pack, FmtA.unpack_pack]
  rfl

theorem minI (d : BitVec 5) (a : BitVec 5) (b : BitVec 5) (l : Bool) (m : Bool) (e : Bool) (x : Bool) : Statement (.minI d a b l m e x) := by
  refine of_raw rfl ((raw_01 (FmtA.op_pack _ _)).trans ?_)
  unfold dec01
  rw [FmtA.fn_pack, FmtA.unpack_pack]
  rfl

theorem minN (d : BitVec 5) (a : BitVec 5) (b : BitVec 5) (l : Bool) (m : Bool) (e : Bool) (x : Bool) : Statement (.minN d a b l m e x) := by
  refine of_raw rfl ((raw_01 (FmtA.op_pack _ _)).trans ?_)
  unfold dec01
  rw [FmtA.fn_pack, FmtA.unpack_pack]
  rfl

theorem maxI (d : BitVec 5) (a : BitVec 5) (b : BitVec 5) (l : Bool) (m : Bool) (e : Bool) (x : Bool) : Statement (.maxI d a b l m e x) := by
  refine of_raw rfl ((raw_02 (FmtA.op_pack _ _)).trans ?_)
  unfold dec02
  rw [FmtA.fn_pack, FmtA.unpack_pack]
  rfl

theorem maxN (d : BitVec 5) (a : BitVec 5) (b : BitVec 5) (l : Bool) (m : Bool) (e : Bool) (x : Bool) : Statement (.maxN d a b l m e x) := by
  refine of_raw rfl ((raw_02 (FmtA.op_pack _ _)).trans ?_)
  unfold dec02
  rw [FmtA.fn_pack, FmtA.unpack_pack]
  rfl

theorem divI (d : BitVec 5) (a : BitVec 5) (b : BitVec 5) (l : Bool) (m : Bool) (e : Bool) (x : Bool) : Statement (.divI d a b l m e x) := by
  refine of_raw rfl ((raw_02 (FmtA.op_pack _ _)).trans ?_)
  unfold dec02
  rw [FmtA.fn_pack, FmtA.unpack_pack]
  rfl

theorem divN (d : BitVec 5) (a : BitVec 5) (b : BitVec 5) (l : Bool) (m : Bool) (e : Bool) (x : Bool) : Statement (.divN d a b l m e x) := by
  refine of_raw rfl ((raw_02 (FmtA.op_pack _ _)).trans ?_)
  unfold dec02
  rw [FmtA.fn_pack, FmtA.unpack_pack]
  rfl

theorem remI (d : BitVec 5) (a : BitVec 5) (b : BitVec 5) (l : Bool) (m : Bool) (e : Bool) (x : Bool) : Statement (.remI d a b l m e x) := by
  refine of_raw rfl ((raw_02 (FmtA.op_pack _ _)).trans ?_)
  unfold dec02
  rw [FmtA.fn_pack, FmtA.unpack_pack]
  rfl

theorem remN (d : BitVec 5) (a : BitVec 5) (b : BitVec 5) (l : Bool) (m : Bool) (e : Bool) (x : Bool) : Statement (.remN d a b l m e x) := by
  refine of_raw rfl ((raw_02 (FmtA.op_pack _ _)).trans ?_)
  unfold dec02
  rw [FmtA.fn_pack, FmtA.unpack_pack]
  rfl

theorem clz (d : BitVec 5) (a : BitVec 5) (l : Bool) (e : Bool) (x : Bool) : Statement (.clz d a l e x) := by
  refine of_raw rfl ((raw_02 (FmtA.op_pack _ _)).trans ?_)
  unfold dec02
  rw [FmtA.fn_pack, FmtA.unpack_pack]
  rfl

theorem ctz (d : BitVec 5) (a : BitVec 5) (l : Bool) (e : Bool) (x : Bool) : Statement (.ctz d a l e x) := by
  refine of_raw rfl ((raw_02 (FmtA.op_pack _ _)).trans ?_)
  unfold dec02
  rw [FmtA.fn_pack, FmtA.unpack_pack]
  rfl

theorem popc (d : BitVec 5) (a : BitVec 5) (l : Bool) (e : Bool) (x : Bool) : Statement (.popc d a l e x) := by
  refine of_raw rfl ((raw_02 (FmtA.op_pack _ _)).trans ?_)
  unfold dec02
  rw [FmtA.fn_pack, FmtA.unpack_pack]
  rfl

theorem brev (d : BitVec 5) (a : BitVec 5) (l : Bool) (e : Bool) (x : Bool) : Statement (.brev d a l e x) := by
  refine of_raw rfl ((raw_02 (FmtA.op_pack _ _)).trans ?_)
  unfold dec02
  rw [FmtA.fn_pack, FmtA.unpack_pack]
  rfl

theorem bswap (d : BitVec 5) (a : BitVec 5) (l : Bool) (e : Bool) (x : Bool) : Statement (.bswap d a l e x) := by
  refine of_raw rfl ((raw_02 (FmtA.op_pack _ _)).trans ?_)
  unfold dec02
  rw [FmtA.fn_pack, FmtA.unpack_pack]
  rfl

theorem abs (d : BitVec 5) (a : BitVec 5) (l : Bool) (e : Bool) (x : Bool) : Statement (.abs d a l e x) := by
  refine of_raw rfl ((raw_02 (FmtA.op_pack _ _)).trans ?_)
  unfold dec02
  rw [FmtA.fn_pack, FmtA.unpack_pack]
  rfl

theorem addsI (d : BitVec 5) (a : BitVec 5) (b : BitVec 5) (l : Bool) (m : Bool) (e : Bool) (x : Bool) : Statement (.addsI d a b l m e x) := by
  refine of_raw rfl ((raw_02 (FmtA.op_pack _ _)).trans ?_)
  unfold dec02
  rw [FmtA.fn_pack, FmtA.unpack_pack]
  rfl

theorem subsI (d : BitVec 5) (a : BitVec 5) (b : BitVec 5) (l : Bool) (m : Bool) (e : Bool) (x : Bool) : Statement (.subsI d a b l m e x) := by
  refine of_raw rfl ((raw_02 (FmtA.op_pack _ _)).trans ?_)
  unfold dec02
  rw [FmtA.fn_pack, FmtA.unpack_pack]
  rfl

theorem seq (d : BitVec 5) (a : BitVec 5) (b : BitVec 5) (l : Bool) (m : Bool) (e : Bool) (x : Bool) : Statement (.seq d a b l m e x) := by
  refine of_raw rfl ((raw_03 (FmtA.op_pack _ _)).trans ?_)
  unfold dec03
  rw [FmtA.fn_pack, FmtA.unpack_pack]
  rfl

theorem sne (d : BitVec 5) (a : BitVec 5) (b : BitVec 5) (l : Bool) (m : Bool) (e : Bool) (x : Bool) : Statement (.sne d a b l m e x) := by
  refine of_raw rfl ((raw_03 (FmtA.op_pack _ _)).trans ?_)
  unfold dec03
  rw [FmtA.fn_pack, FmtA.unpack_pack]
  rfl

theorem sltI (d : BitVec 5) (a : BitVec 5) (b : BitVec 5) (l : Bool) (m : Bool) (e : Bool) (x : Bool) : Statement (.sltI d a b l m e x) := by
  refine of_raw rfl ((raw_03 (FmtA.op_pack _ _)).trans ?_)
  unfold dec03
  rw [FmtA.fn_pack, FmtA.unpack_pack]
  rfl

theorem sltN (d : BitVec 5) (a : BitVec 5) (b : BitVec 5) (l : Bool) (m : Bool) (e : Bool) (x : Bool) : Statement (.sltN d a b l m e x) := by
  refine of_raw rfl ((raw_03 (FmtA.op_pack _ _)).trans ?_)
  unfold dec03
  rw [FmtA.fn_pack, FmtA.unpack_pack]
  rfl

theorem sleI (d : BitVec 5) (a : BitVec 5) (b : BitVec 5) (l : Bool) (m : Bool) (e : Bool) (x : Bool) : Statement (.sleI d a b l m e x) := by
  refine of_raw rfl ((raw_03 (FmtA.op_pack _ _)).trans ?_)
  unfold dec03
  rw [FmtA.fn_pack, FmtA.unpack_pack]
  rfl

theorem sleN (d : BitVec 5) (a : BitVec 5) (b : BitVec 5) (l : Bool) (m : Bool) (e : Bool) (x : Bool) : Statement (.sleN d a b l m e x) := by
  refine of_raw rfl ((raw_03 (FmtA.op_pack _ _)).trans ?_)
  unfold dec03
  rw [FmtA.fn_pack, FmtA.unpack_pack]
  rfl

theorem cmovnz (d : BitVec 5) (a : BitVec 5) (b : BitVec 5) (l : Bool) (m : Bool) (e : Bool) (x : Bool) : Statement (.cmovnz d a b l m e x) := by
  refine of_raw rfl ((raw_03 (FmtA.op_pack _ _)).trans ?_)
  unfold dec03
  rw [FmtA.fn_pack, FmtA.unpack_pack]
  rfl

theorem cmovz (d : BitVec 5) (a : BitVec 5) (b : BitVec 5) (l : Bool) (m : Bool) (e : Bool) (x : Bool) : Statement (.cmovz d a b l m e x) := by
  refine of_raw rfl ((raw_03 (FmtA.op_pack _ _)).trans ?_)
  unfold dec03
  rw [FmtA.fn_pack, FmtA.unpack_pack]
  rfl

theorem addi (d : BitVec 5) (a : BitVec 5) (l : Bool) (i : BitVec 11) : Statement (.addi d a l i) := by
  refine of_raw rfl ((raw_04 (FmtIS.op_pack _ _)).trans ?_)
  unfold dec04
  rw [FmtIS.fn_pack, FmtIS.unpack_pack]
  rfl

theorem andi (d : BitVec 5) (a : BitVec 5) (l : Bool) (i : BitVec 11) : Statement (.andi d a l i) := by
  refine of_raw rfl ((raw_04 (FmtIS.op_pack _ _)).trans ?_)
  unfold dec04
  rw [FmtIS.fn_pack, FmtIS.unpack_pack]
  rfl

theorem ori (d : BitVec 5) (a : BitVec 5) (l : Bool) (i : BitVec 11) : Statement (.ori d a l i) := by
  refine of_raw rfl ((raw_04 (FmtIS.op_pack _ _)).trans ?_)
  unfold dec04
  rw [FmtIS.fn_pack, FmtIS.unpack_pack]
  rfl

theorem xori (d : BitVec 5) (a : BitVec 5) (l : Bool) (i : BitVec 11) : Statement (.xori d a l i) := by
  refine of_raw rfl ((raw_04 (FmtIS.op_pack _ _)).trans ?_)
  unfold dec04
  rw [FmtIS.fn_pack, FmtIS.unpack_pack]
  rfl

theorem shli (d : BitVec 5) (a : BitVec 5) (l : Bool) (i : BitVec 11) : Statement (.shli d a l i) := by
  refine of_raw rfl ((raw_04 (FmtIS.op_pack _ _)).trans ?_)
  unfold dec04
  rw [FmtIS.fn_pack, FmtIS.unpack_pack]
  rfl

theorem shriI (d : BitVec 5) (a : BitVec 5) (l : Bool) (i : BitVec 11) : Statement (.shriI d a l i) := by
  refine of_raw rfl ((raw_04 (FmtIS.op_pack _ _)).trans ?_)
  unfold dec04
  rw [FmtIS.fn_pack, FmtIS.unpack_pack]
  rfl

theorem shriN (d : BitVec 5) (a : BitVec 5) (l : Bool) (i : BitVec 11) : Statement (.shriN d a l i) := by
  refine of_raw rfl ((raw_04 (FmtIS.op_pack _ _)).trans ?_)
  unfold dec04
  rw [FmtIS.fn_pack, FmtIS.unpack_pack]
  rfl

theorem sltiI (d : BitVec 5) (a : BitVec 5) (l : Bool) (i : BitVec 11) : Statement (.sltiI d a l i) := by
  refine of_raw rfl ((raw_04 (FmtIS.op_pack _ _)).trans ?_)
  unfold dec04
  rw [FmtIS.fn_pack, FmtIS.unpack_pack]
  rfl

theorem sltiN (d : BitVec 5) (a : BitVec 5) (l : Bool) (i : BitVec 11) : Statement (.sltiN d a l i) := by
  refine of_raw rfl ((raw_04 (FmtIS.op_pack _ _)).trans ?_)
  unfold dec04
  rw [FmtIS.fn_pack, FmtIS.unpack_pack]
  rfl

theorem seqi (d : BitVec 5) (a : BitVec 5) (l : Bool) (i : BitVec 11) : Statement (.seqi d a l i) := by
  refine of_raw rfl ((raw_04 (FmtIS.op_pack _ _)).trans ?_)
  unfold dec04
  rw [FmtIS.fn_pack, FmtIS.unpack_pack]
  rfl

theorem muli (d : BitVec 5) (a : BitVec 5) (l : Bool) (i : BitVec 11) : Statement (.muli d a l i) := by
  refine of_raw rfl ((raw_04 (FmtIS.op_pack _ _)).trans ?_)
  unfold dec04
  rw [FmtIS.fn_pack, FmtIS.unpack_pack]
  rfl

theorem rotli (d : BitVec 5) (a : BitVec 5) (l : Bool) (i : BitVec 11) : Statement (.rotli d a l i) := by
  refine of_raw rfl ((raw_04 (FmtIS.op_pack _ _)).trans ?_)
  unfold dec04
  rw [FmtIS.fn_pack, FmtIS.unpack_pack]
  rfl

theorem bfxI (d : BitVec 5) (a : BitVec 5) (l : Bool) (n : BitVec 5) (p : BitVec 6) : Statement (.bfxI d a l n p) := by
  refine of_raw rfl ((raw_05 (FmtIS.op_pack _ _)).trans ?_)
  simp only [dec05, FmtIS.fn_pack, FmtIS.unpack_pack, immHi5_bfImm, immLo6_bfImm]
  rfl

theorem bfxN (d : BitVec 5) (a : BitVec 5) (l : Bool) (n : BitVec 5) (p : BitVec 6) : Statement (.bfxN d a l n p) := by
  refine of_raw rfl ((raw_05 (FmtIS.op_pack _ _)).trans ?_)
  simp only [dec05, FmtIS.fn_pack, FmtIS.unpack_pack, immHi5_bfImm, immLo6_bfImm]
  rfl

theorem bfi (d : BitVec 5) (a : BitVec 5) (l : Bool) (n : BitVec 5) (p : BitVec 6) : Statement (.bfi d a l n p) := by
  refine of_raw rfl ((raw_05 (FmtIS.op_pack _ _)).trans ?_)
  simp only [dec05, FmtIS.fn_pack, FmtIS.unpack_pack, immHi5_bfImm, immLo6_bfImm]
  rfl

theorem lea2 (d : BitVec 5) (a : BitVec 5) (b : BitVec 5) (l : Bool) (m : Bool) (e : Bool) (x : Bool) : Statement (.lea2 d a b l m e x) := by
  refine of_raw rfl ((raw_05 (FmtA.op_pack _ _)).trans ?_)
  unfold dec05
  rw [FmtA.fn_pack, FmtA.unpack_pack]
  rfl

theorem lea4 (d : BitVec 5) (a : BitVec 5) (b : BitVec 5) (l : Bool) (m : Bool) (e : Bool) (x : Bool) : Statement (.lea4 d a b l m e x) := by
  refine of_raw rfl ((raw_05 (FmtA.op_pack _ _)).trans ?_)
  unfold dec05
  rw [FmtA.fn_pack, FmtA.unpack_pack]
  rfl

theorem lea8 (d : BitVec 5) (a : BitVec 5) (b : BitVec 5) (l : Bool) (m : Bool) (e : Bool) (x : Bool) : Statement (.lea8 d a b l m e x) := by
  refine of_raw rfl ((raw_05 (FmtA.op_pack _ _)).trans ?_)
  unfold dec05
  rw [FmtA.fn_pack, FmtA.unpack_pack]
  rfl

theorem lea16 (d : BitVec 5) (a : BitVec 5) (b : BitVec 5) (l : Bool) (m : Bool) (e : Bool) (x : Bool) : Statement (.lea16 d a b l m e x) := by
  refine of_raw rfl ((raw_05 (FmtA.op_pack _ _)).trans ?_)
  unfold dec05
  rw [FmtA.fn_pack, FmtA.unpack_pack]
  rfl

theorem mov (d : BitVec 5) (a : BitVec 5) (l : Bool) (e : Bool) : Statement (.mov d a l e) := by
  refine of_raw rfl ((raw_06 (FmtA.op_pack _ _)).trans ?_)
  unfold dec06
  rw [FmtA.fn_pack, FmtA.unpack_pack]
  rfl

theorem srd (d : BitVec 5) (i : BitVec 11) : Statement (.srd d i) := by
  refine of_raw rfl ((raw_06 (FmtIS.op_pack _ _)).trans ?_)
  unfold dec06
  rw [FmtIS.fn_pack, FmtIS.unpack_pack]
  rfl

theorem swr (a : BitVec 5) (l : Bool) (i : BitVec 11) : Statement (.swr a l i) := by
  refine of_raw rfl ((raw_06 (FmtIS.op_pack _ _)).trans ?_)
  unfold dec06
  rw [FmtIS.fn_pack, FmtIS.unpack_pack]
  rfl

theorem hrd (d : BitVec 5) (h : BitVec 4) : Statement (.hrd d h) := by
  refine of_raw rfl ((raw_06 (FmtIS.op_pack _ _)).trans ?_)
  simp only [dec06, FmtIS.fn_pack, FmtIS.unpack_pack, hiveImm_hi, immLo4_hiveImm]
  rfl

theorem hwr (a : BitVec 5) (l : Bool) (h : BitVec 4) : Statement (.hwr a l h) := by
  refine of_raw rfl ((raw_06 (FmtIS.op_pack _ _)).trans ?_)
  simp only [dec06, FmtIS.fn_pack, FmtIS.unpack_pack, hiveImm_hi, immLo4_hiveImm]
  rfl

theorem hadd (d : BitVec 5) (a : BitVec 5) (l : Bool) (h : BitVec 4) : Statement (.hadd d a l h) := by
  refine of_raw rfl ((raw_06 (FmtIS.op_pack _ _)).trans ?_)
  simp only [dec06, FmtIS.fn_pack, FmtIS.unpack_pack, hiveImm_hi, immLo4_hiveImm]
  rfl

theorem srdv (d : BitVec 5) : Statement (.srdv d) := by
  refine of_raw rfl ((raw_06 (FmtIS.op_pack _ _)).trans ?_)
  unfold dec06
  rw [FmtIS.fn_pack, FmtIS.unpack_pack]
  rfl

theorem fadd (r : Rm) (d : BitVec 5) (a : BitVec 5) (b : BitVec 5) (l : Bool) (m : Bool) (e : Bool) : Statement (.fadd r d a b l m e) := by
  refine of_raw rfl ((raw_07 (FmtA.op_pack _ _)).trans ?_)
  unfold dec07
  rw [FmtA.fn_pack, FmtA.unpack_pack]
  cases r <;> rfl

theorem fsub (r : Rm) (d : BitVec 5) (a : BitVec 5) (b : BitVec 5) (l : Bool) (m : Bool) (e : Bool) : Statement (.fsub r d a b l m e) := by
  refine of_raw rfl ((raw_07 (FmtA.op_pack _ _)).trans ?_)
  unfold dec07
  rw [FmtA.fn_pack, FmtA.unpack_pack]
  cases r <;> rfl

theorem fmul (r : Rm) (d : BitVec 5) (a : BitVec 5) (b : BitVec 5) (l : Bool) (m : Bool) (e : Bool) : Statement (.fmul r d a b l m e) := by
  refine of_raw rfl ((raw_07 (FmtA.op_pack _ _)).trans ?_)
  unfold dec07
  rw [FmtA.fn_pack, FmtA.unpack_pack]
  cases r <;> rfl

theorem fdiv (r : Rm) (d : BitVec 5) (a : BitVec 5) (b : BitVec 5) (l : Bool) (m : Bool) (e : Bool) : Statement (.fdiv r d a b l m e) := by
  refine of_raw rfl ((raw_07 (FmtA.op_pack _ _)).trans ?_)
  unfold dec07
  rw [FmtA.fn_pack, FmtA.unpack_pack]
  cases r <;> rfl

theorem ffma (r : Rm) (d : BitVec 5) (a : BitVec 5) (b : BitVec 5) (l : Bool) (m : Bool) (e : Bool) : Statement (.ffma r d a b l m e) := by
  refine of_raw rfl ((raw_07 (FmtA.op_pack _ _)).trans ?_)
  unfold dec07
  rw [FmtA.fn_pack, FmtA.unpack_pack]
  cases r <;> rfl

theorem fsqrt (r : Rm) (d : BitVec 5) (a : BitVec 5) (l : Bool) (e : Bool) : Statement (.fsqrt r d a l e) := by
  refine of_raw rfl ((raw_07 (FmtA.op_pack _ _)).trans ?_)
  unfold dec07
  rw [FmtA.fn_pack, FmtA.unpack_pack]
  cases r <;> rfl

theorem fcvtF32I64 (r : Rm) (d : BitVec 5) (a : BitVec 5) (l : Bool) (e : Bool) : Statement (.fcvtF32I64 r d a l e) := by
  refine of_raw rfl ((raw_07 (FmtA.op_pack _ _)).trans ?_)
  unfold dec07
  rw [FmtA.fn_pack, FmtA.unpack_pack]
  cases r <;> rfl

theorem fcvtI64F32 (r : Rm) (d : BitVec 5) (a : BitVec 5) (l : Bool) (e : Bool) : Statement (.fcvtI64F32 r d a l e) := by
  refine of_raw rfl ((raw_07 (FmtA.op_pack _ _)).trans ?_)
  unfold dec07
  rw [FmtA.fn_pack, FmtA.unpack_pack]
  cases r <;> rfl

theorem br (o : BitVec 17) : Statement (.br o) := by
  refine of_raw rfl ((raw_08 (FmtB.op_pack _ _)).trans ?_)
  unfold dec08
  rw [FmtB.fn_pack, FmtB.unpack_pack]
  rfl

theorem bz (r : BitVec 5) (o : BitVec 17) : Statement (.bz r o) := by
  refine of_raw rfl ((raw_08 (FmtB.op_pack _ _)).trans ?_)
  unfold dec08
  rw [FmtB.fn_pack, FmtB.unpack_pack]
  rfl

theorem bnz (r : BitVec 5) (o : BitVec 17) : Statement (.bnz r o) := by
  refine of_raw rfl ((raw_08 (FmtB.op_pack _ _)).trans ?_)
  unfold dec08
  rw [FmtB.fn_pack, FmtB.unpack_pack]
  rfl

theorem blt (r : BitVec 5) (o : BitVec 17) : Statement (.blt r o) := by
  refine of_raw rfl ((raw_08 (FmtB.op_pack _ _)).trans ?_)
  unfold dec08
  rw [FmtB.fn_pack, FmtB.unpack_pack]
  rfl

theorem bge (r : BitVec 5) (o : BitVec 17) : Statement (.bge r o) := by
  refine of_raw rfl ((raw_08 (FmtB.op_pack _ _)).trans ?_)
  unfold dec08
  rw [FmtB.fn_pack, FmtB.unpack_pack]
  rfl

theorem bany (r : PReg) (o : BitVec 17) : Statement (.bany r o) := by
  refine of_raw rfl ((raw_08 (FmtB.op_pack _ _)).trans ?_)
  simp only [dec08, FmtB.fn_pack, FmtB.unpack_pack, asPred_setWidth]
  rfl

theorem ball (r : PReg) (o : BitVec 17) : Statement (.ball r o) := by
  refine of_raw rfl ((raw_08 (FmtB.op_pack _ _)).trans ?_)
  simp only [dec08, FmtB.fn_pack, FmtB.unpack_pack, asPred_setWidth]
  rfl

theorem bnone (r : PReg) (o : BitVec 17) : Statement (.bnone r o) := by
  refine of_raw rfl ((raw_08 (FmtB.op_pack _ _)).trans ?_)
  simp only [dec08, FmtB.fn_pack, FmtB.unpack_pack, asPred_setWidth]
  rfl

theorem call (d : BitVec 5) (o : BitVec 17) : Statement (.call d o) := by
  refine of_raw rfl ((raw_09 (FmtB.op_pack _ _)).trans ?_)
  unfold dec09
  rw [FmtB.fn_pack, FmtB.unpack_pack]
  rfl

theorem callr (d : BitVec 5) (a : BitVec 5) (l : Bool) (e : Bool) : Statement (.callr d a l e) := by
  refine of_raw rfl ((raw_09 (FmtA.op_pack _ _)).trans ?_)
  unfold dec09
  rw [FmtA.fn_pack, FmtA.unpack_pack]
  rfl

theorem ret (a : BitVec 5) (l : Bool) (e : Bool) : Statement (.ret a l e) := by
  refine of_raw rfl ((raw_09 (FmtA.op_pack _ _)).trans ?_)
  unfold dec09
  rw [FmtA.fn_pack, FmtA.unpack_pack]
  rfl

theorem exit (q : BitVec 3) : Statement (.exit q) := by
  refine of_raw rfl ((raw_09 (FmtA.op_pack _ _)).trans ?_)
  unfold dec09
  rw [FmtA.fn_pack, FmtA.unpack_pack]
  rfl

theorem yield : Statement .yield := by
  refine of_raw rfl ((raw_09 (FmtA.op_pack _ _)).trans ?_)
  unfold dec09
  rw [FmtA.fn_pack, FmtA.unpack_pack]
  rfl

theorem enq (d : BitVec 5) (a : BitVec 5) (b : BitVec 5) (l : Bool) (m : Bool) (e : Bool) : Statement (.enq d a b l m e) := by
  refine of_raw rfl ((raw_09 (FmtA.op_pack _ _)).trans ?_)
  unfold dec09
  rw [FmtA.fn_pack, FmtA.unpack_pack]
  rfl

theorem trap (i : BitVec 11) : Statement (.trap i) := by
  refine of_raw rfl ((raw_09 (FmtIS.op_pack _ _)).trans ?_)
  unfold dec09
  rw [FmtIS.fn_pack, FmtIS.unpack_pack]
  rfl

theorem pand (d : PReg) (a : PReg) (b : PReg) (q : BitVec 3) : Statement (.pand d a b q) := by
  refine of_raw rfl ((raw_0a (FmtA.op_pack _ _)).trans ?_)
  simp only [dec0A, FmtA.fn_pack, FmtA.unpack_pack, asPred_setWidth]
  rfl

theorem por (d : PReg) (a : PReg) (b : PReg) (q : BitVec 3) : Statement (.por d a b q) := by
  refine of_raw rfl ((raw_0a (FmtA.op_pack _ _)).trans ?_)
  simp only [dec0A, FmtA.fn_pack, FmtA.unpack_pack, asPred_setWidth]
  rfl

theorem pxor (d : PReg) (a : PReg) (b : PReg) (q : BitVec 3) : Statement (.pxor d a b q) := by
  refine of_raw rfl ((raw_0a (FmtA.op_pack _ _)).trans ?_)
  simp only [dec0A, FmtA.fn_pack, FmtA.unpack_pack, asPred_setWidth]
  rfl

theorem pandn (d : PReg) (a : PReg) (b : PReg) (q : BitVec 3) : Statement (.pandn d a b q) := by
  refine of_raw rfl ((raw_0a (FmtA.op_pack _ _)).trans ?_)
  simp only [dec0A, FmtA.fn_pack, FmtA.unpack_pack, asPred_setWidth]
  rfl

theorem pnot (d : PReg) (a : PReg) (q : BitVec 3) : Statement (.pnot d a q) := by
  refine of_raw rfl ((raw_0a (FmtA.op_pack _ _)).trans ?_)
  simp only [dec0A, FmtA.fn_pack, FmtA.unpack_pack, asPred_setWidth]
  rfl

theorem pmov (d : PReg) (a : PReg) (q : BitVec 3) : Statement (.pmov d a q) := by
  refine of_raw rfl ((raw_0a (FmtA.op_pack _ _)).trans ?_)
  simp only [dec0A, FmtA.fn_pack, FmtA.unpack_pack, asPred_setWidth]
  rfl

theorem pset (d : PReg) (a : BitVec 5) (q : BitVec 3) (l : Bool) (e : Bool) : Statement (.pset d a q l e) := by
  refine of_raw rfl ((raw_0a (FmtA.op_pack _ _)).trans ?_)
  simp only [dec0A, FmtA.fn_pack, FmtA.unpack_pack, asPred_setWidth]
  rfl

theorem pfirst (d : PReg) (a : PReg) (q : BitVec 3) : Statement (.pfirst d a q) := by
  refine of_raw rfl ((raw_0a (FmtA.op_pack _ _)).trans ?_)
  simp only [dec0A, FmtA.fn_pack, FmtA.unpack_pack, asPred_setWidth]
  rfl

theorem vadd (w : Wid3) (d : BitVec 5) (a : BitVec 5) (b : BitVec 5) (q : BitVec 3) (l : Bool) (m : Bool) (e : Bool) (x : Bool) : Statement (.vadd w d a b q l m e x) := by
  cases w
  · refine of_raw rfl ((raw_10 (FmtA.op_pack _ _)).trans ?_)
    unfold dec10
    rw [FmtA.fn_pack, FmtA.unpack_pack]
    rfl
  · refine of_raw rfl ((raw_11 (FmtA.op_pack _ _)).trans ?_)
    unfold dec11
    rw [FmtA.fn_pack, FmtA.unpack_pack]
    rfl
  · refine of_raw rfl ((raw_12 (FmtA.op_pack _ _)).trans ?_)
    unfold dec12
    rw [FmtA.fn_pack, FmtA.unpack_pack]
    rfl

theorem vsub (w : Wid3) (d : BitVec 5) (a : BitVec 5) (b : BitVec 5) (q : BitVec 3) (l : Bool) (m : Bool) (e : Bool) (x : Bool) : Statement (.vsub w d a b q l m e x) := by
  cases w
  · refine of_raw rfl ((raw_10 (FmtA.op_pack _ _)).trans ?_)
    unfold dec10
    rw [FmtA.fn_pack, FmtA.unpack_pack]
    rfl
  · refine of_raw rfl ((raw_11 (FmtA.op_pack _ _)).trans ?_)
    unfold dec11
    rw [FmtA.fn_pack, FmtA.unpack_pack]
    rfl
  · refine of_raw rfl ((raw_12 (FmtA.op_pack _ _)).trans ?_)
    unfold dec12
    rw [FmtA.fn_pack, FmtA.unpack_pack]
    rfl

theorem vmul (w : Wid3) (d : BitVec 5) (a : BitVec 5) (b : BitVec 5) (q : BitVec 3) (l : Bool) (m : Bool) (e : Bool) (x : Bool) : Statement (.vmul w d a b q l m e x) := by
  cases w
  · refine of_raw rfl ((raw_10 (FmtA.op_pack _ _)).trans ?_)
    unfold dec10
    rw [FmtA.fn_pack, FmtA.unpack_pack]
    rfl
  · refine of_raw rfl ((raw_11 (FmtA.op_pack _ _)).trans ?_)
    unfold dec11
    rw [FmtA.fn_pack, FmtA.unpack_pack]
    rfl
  · refine of_raw rfl ((raw_12 (FmtA.op_pack _ _)).trans ?_)
    unfold dec12
    rw [FmtA.fn_pack, FmtA.unpack_pack]
    rfl

theorem vminI (w : Wid3) (d : BitVec 5) (a : BitVec 5) (b : BitVec 5) (q : BitVec 3) (l : Bool) (m : Bool) (e : Bool) : Statement (.vminI w d a b q l m e) := by
  cases w
  · refine of_raw rfl ((raw_10 (FmtA.op_pack _ _)).trans ?_)
    unfold dec10
    rw [FmtA.fn_pack, FmtA.unpack_pack]
    rfl
  · refine of_raw rfl ((raw_11 (FmtA.op_pack _ _)).trans ?_)
    unfold dec11
    rw [FmtA.fn_pack, FmtA.unpack_pack]
    rfl
  · refine of_raw rfl ((raw_12 (FmtA.op_pack _ _)).trans ?_)
    unfold dec12
    rw [FmtA.fn_pack, FmtA.unpack_pack]
    rfl

theorem vminN (w : Wid3) (d : BitVec 5) (a : BitVec 5) (b : BitVec 5) (q : BitVec 3) (l : Bool) (m : Bool) (e : Bool) : Statement (.vminN w d a b q l m e) := by
  cases w
  · refine of_raw rfl ((raw_10 (FmtA.op_pack _ _)).trans ?_)
    unfold dec10
    rw [FmtA.fn_pack, FmtA.unpack_pack]
    rfl
  · refine of_raw rfl ((raw_11 (FmtA.op_pack _ _)).trans ?_)
    unfold dec11
    rw [FmtA.fn_pack, FmtA.unpack_pack]
    rfl
  · refine of_raw rfl ((raw_12 (FmtA.op_pack _ _)).trans ?_)
    unfold dec12
    rw [FmtA.fn_pack, FmtA.unpack_pack]
    rfl

theorem vmaxI (w : Wid3) (d : BitVec 5) (a : BitVec 5) (b : BitVec 5) (q : BitVec 3) (l : Bool) (m : Bool) (e : Bool) : Statement (.vmaxI w d a b q l m e) := by
  cases w
  · refine of_raw rfl ((raw_10 (FmtA.op_pack _ _)).trans ?_)
    unfold dec10
    rw [FmtA.fn_pack, FmtA.unpack_pack]
    rfl
  · refine of_raw rfl ((raw_11 (FmtA.op_pack _ _)).trans ?_)
    unfold dec11
    rw [FmtA.fn_pack, FmtA.unpack_pack]
    rfl
  · refine of_raw rfl ((raw_12 (FmtA.op_pack _ _)).trans ?_)
    unfold dec12
    rw [FmtA.fn_pack, FmtA.unpack_pack]
    rfl

theorem vmaxN (w : Wid3) (d : BitVec 5) (a : BitVec 5) (b : BitVec 5) (q : BitVec 3) (l : Bool) (m : Bool) (e : Bool) : Statement (.vmaxN w d a b q l m e) := by
  cases w
  · refine of_raw rfl ((raw_10 (FmtA.op_pack _ _)).trans ?_)
    unfold dec10
    rw [FmtA.fn_pack, FmtA.unpack_pack]
    rfl
  · refine of_raw rfl ((raw_11 (FmtA.op_pack _ _)).trans ?_)
    unfold dec11
    rw [FmtA.fn_pack, FmtA.unpack_pack]
    rfl
  · refine of_raw rfl ((raw_12 (FmtA.op_pack _ _)).trans ?_)
    unfold dec12
    rw [FmtA.fn_pack, FmtA.unpack_pack]
    rfl

theorem vabsdI (w : Wid3) (d : BitVec 5) (a : BitVec 5) (b : BitVec 5) (q : BitVec 3) (l : Bool) (m : Bool) (e : Bool) : Statement (.vabsdI w d a b q l m e) := by
  cases w
  · refine of_raw rfl ((raw_10 (FmtA.op_pack _ _)).trans ?_)
    unfold dec10
    rw [FmtA.fn_pack, FmtA.unpack_pack]
    rfl
  · refine of_raw rfl ((raw_11 (FmtA.op_pack _ _)).trans ?_)
    unfold dec11
    rw [FmtA.fn_pack, FmtA.unpack_pack]
    rfl
  · refine of_raw rfl ((raw_12 (FmtA.op_pack _ _)).trans ?_)
    unfold dec12
    rw [FmtA.fn_pack, FmtA.unpack_pack]
    rfl

theorem vabsdN (w : Wid3) (d : BitVec 5) (a : BitVec 5) (b : BitVec 5) (q : BitVec 3) (l : Bool) (m : Bool) (e : Bool) : Statement (.vabsdN w d a b q l m e) := by
  cases w
  · refine of_raw rfl ((raw_10 (FmtA.op_pack _ _)).trans ?_)
    unfold dec10
    rw [FmtA.fn_pack, FmtA.unpack_pack]
    rfl
  · refine of_raw rfl ((raw_11 (FmtA.op_pack _ _)).trans ?_)
    unfold dec11
    rw [FmtA.fn_pack, FmtA.unpack_pack]
    rfl
  · refine of_raw rfl ((raw_12 (FmtA.op_pack _ _)).trans ?_)
    unfold dec12
    rw [FmtA.fn_pack, FmtA.unpack_pack]
    rfl

theorem vavgI (w : Wid3) (d : BitVec 5) (a : BitVec 5) (b : BitVec 5) (q : BitVec 3) (l : Bool) (m : Bool) (e : Bool) : Statement (.vavgI w d a b q l m e) := by
  cases w
  · refine of_raw rfl ((raw_10 (FmtA.op_pack _ _)).trans ?_)
    unfold dec10
    rw [FmtA.fn_pack, FmtA.unpack_pack]
    rfl
  · refine of_raw rfl ((raw_11 (FmtA.op_pack _ _)).trans ?_)
    unfold dec11
    rw [FmtA.fn_pack, FmtA.unpack_pack]
    rfl
  · refine of_raw rfl ((raw_12 (FmtA.op_pack _ _)).trans ?_)
    unfold dec12
    rw [FmtA.fn_pack, FmtA.unpack_pack]
    rfl

theorem vavgN (w : Wid3) (d : BitVec 5) (a : BitVec 5) (b : BitVec 5) (q : BitVec 3) (l : Bool) (m : Bool) (e : Bool) : Statement (.vavgN w d a b q l m e) := by
  cases w
  · refine of_raw rfl ((raw_10 (FmtA.op_pack _ _)).trans ?_)
    unfold dec10
    rw [FmtA.fn_pack, FmtA.unpack_pack]
    rfl
  · refine of_raw rfl ((raw_11 (FmtA.op_pack _ _)).trans ?_)
    unfold dec11
    rw [FmtA.fn_pack, FmtA.unpack_pack]
    rfl
  · refine of_raw rfl ((raw_12 (FmtA.op_pack _ _)).trans ?_)
    unfold dec12
    rw [FmtA.fn_pack, FmtA.unpack_pack]
    rfl

theorem vshl (w : Wid3) (d : BitVec 5) (a : BitVec 5) (b : BitVec 5) (q : BitVec 3) (l : Bool) (m : Bool) (e : Bool) (x : Bool) : Statement (.vshl w d a b q l m e x) := by
  cases w
  · refine of_raw rfl ((raw_10 (FmtA.op_pack _ _)).trans ?_)
    unfold dec10
    rw [FmtA.fn_pack, FmtA.unpack_pack]
    rfl
  · refine of_raw rfl ((raw_11 (FmtA.op_pack _ _)).trans ?_)
    unfold dec11
    rw [FmtA.fn_pack, FmtA.unpack_pack]
    rfl
  · refine of_raw rfl ((raw_12 (FmtA.op_pack _ _)).trans ?_)
    unfold dec12
    rw [FmtA.fn_pack, FmtA.unpack_pack]
    rfl

theorem vshrI (w : Wid3) (d : BitVec 5) (a : BitVec 5) (b : BitVec 5) (q : BitVec 3) (l : Bool) (m : Bool) (e : Bool) : Statement (.vshrI w d a b q l m e) := by
  cases w
  · refine of_raw rfl ((raw_10 (FmtA.op_pack _ _)).trans ?_)
    unfold dec10
    rw [FmtA.fn_pack, FmtA.unpack_pack]
    rfl
  · refine of_raw rfl ((raw_11 (FmtA.op_pack _ _)).trans ?_)
    unfold dec11
    rw [FmtA.fn_pack, FmtA.unpack_pack]
    rfl
  · refine of_raw rfl ((raw_12 (FmtA.op_pack _ _)).trans ?_)
    unfold dec12
    rw [FmtA.fn_pack, FmtA.unpack_pack]
    rfl

theorem vshrN (w : Wid3) (d : BitVec 5) (a : BitVec 5) (b : BitVec 5) (q : BitVec 3) (l : Bool) (m : Bool) (e : Bool) : Statement (.vshrN w d a b q l m e) := by
  cases w
  · refine of_raw rfl ((raw_10 (FmtA.op_pack _ _)).trans ?_)
    unfold dec10
    rw [FmtA.fn_pack, FmtA.unpack_pack]
    rfl
  · refine of_raw rfl ((raw_11 (FmtA.op_pack _ _)).trans ?_)
    unfold dec11
    rw [FmtA.fn_pack, FmtA.unpack_pack]
    rfl
  · refine of_raw rfl ((raw_12 (FmtA.op_pack _ _)).trans ?_)
    unfold dec12
    rw [FmtA.fn_pack, FmtA.unpack_pack]
    rfl

theorem vneg (w : Wid3) (d : BitVec 5) (a : BitVec 5) (q : BitVec 3) (l : Bool) (e : Bool) (x : Bool) : Statement (.vneg w d a q l e x) := by
  cases w
  · refine of_raw rfl ((raw_10 (FmtA.op_pack _ _)).trans ?_)
    unfold dec10
    rw [FmtA.fn_pack, FmtA.unpack_pack]
    rfl
  · refine of_raw rfl ((raw_11 (FmtA.op_pack _ _)).trans ?_)
    unfold dec11
    rw [FmtA.fn_pack, FmtA.unpack_pack]
    rfl
  · refine of_raw rfl ((raw_12 (FmtA.op_pack _ _)).trans ?_)
    unfold dec12
    rw [FmtA.fn_pack, FmtA.unpack_pack]
    rfl

theorem vabs (w : Wid3) (d : BitVec 5) (a : BitVec 5) (q : BitVec 3) (l : Bool) (e : Bool) (x : Bool) : Statement (.vabs w d a q l e x) := by
  cases w
  · refine of_raw rfl ((raw_10 (FmtA.op_pack _ _)).trans ?_)
    unfold dec10
    rw [FmtA.fn_pack, FmtA.unpack_pack]
    rfl
  · refine of_raw rfl ((raw_11 (FmtA.op_pack _ _)).trans ?_)
    unfold dec11
    rw [FmtA.fn_pack, FmtA.unpack_pack]
    rfl
  · refine of_raw rfl ((raw_12 (FmtA.op_pack _ _)).trans ?_)
    unfold dec12
    rw [FmtA.fn_pack, FmtA.unpack_pack]
    rfl

theorem vaddI64 (d : BitVec 5) (a : BitVec 5) (b : BitVec 5) (q : BitVec 3) (l : Bool) (m : Bool) (e : Bool) (x : Bool) : Statement (.vaddI64 d a b q l m e x) := by
  refine of_raw rfl ((raw_13 (FmtA.op_pack _ _)).trans ?_)
  unfold dec13
  rw [FmtA.fn_pack, FmtA.unpack_pack]
  rfl

theorem vsubI64 (d : BitVec 5) (a : BitVec 5) (b : BitVec 5) (q : BitVec 3) (l : Bool) (m : Bool) (e : Bool) (x : Bool) : Statement (.vsubI64 d a b q l m e x) := by
  refine of_raw rfl ((raw_13 (FmtA.op_pack _ _)).trans ?_)
  unfold dec13
  rw [FmtA.fn_pack, FmtA.unpack_pack]
  rfl

theorem vmulI64 (d : BitVec 5) (a : BitVec 5) (b : BitVec 5) (q : BitVec 3) (l : Bool) (m : Bool) (e : Bool) (x : Bool) : Statement (.vmulI64 d a b q l m e x) := by
  refine of_raw rfl ((raw_13 (FmtA.op_pack _ _)).trans ?_)
  unfold dec13
  rw [FmtA.fn_pack, FmtA.unpack_pack]
  rfl

theorem vminI64 (d : BitVec 5) (a : BitVec 5) (b : BitVec 5) (q : BitVec 3) (l : Bool) (m : Bool) (e : Bool) : Statement (.vminI64 d a b q l m e) := by
  refine of_raw rfl ((raw_13 (FmtA.op_pack _ _)).trans ?_)
  unfold dec13
  rw [FmtA.fn_pack, FmtA.unpack_pack]
  rfl

theorem vminN64 (d : BitVec 5) (a : BitVec 5) (b : BitVec 5) (q : BitVec 3) (l : Bool) (m : Bool) (e : Bool) : Statement (.vminN64 d a b q l m e) := by
  refine of_raw rfl ((raw_13 (FmtA.op_pack _ _)).trans ?_)
  unfold dec13
  rw [FmtA.fn_pack, FmtA.unpack_pack]
  rfl

theorem vmaxI64 (d : BitVec 5) (a : BitVec 5) (b : BitVec 5) (q : BitVec 3) (l : Bool) (m : Bool) (e : Bool) : Statement (.vmaxI64 d a b q l m e) := by
  refine of_raw rfl ((raw_13 (FmtA.op_pack _ _)).trans ?_)
  unfold dec13
  rw [FmtA.fn_pack, FmtA.unpack_pack]
  rfl

theorem vmaxN64 (d : BitVec 5) (a : BitVec 5) (b : BitVec 5) (q : BitVec 3) (l : Bool) (m : Bool) (e : Bool) : Statement (.vmaxN64 d a b q l m e) := by
  refine of_raw rfl ((raw_13 (FmtA.op_pack _ _)).trans ?_)
  unfold dec13
  rw [FmtA.fn_pack, FmtA.unpack_pack]
  rfl

theorem vshlI64 (d : BitVec 5) (a : BitVec 5) (b : BitVec 5) (q : BitVec 3) (l : Bool) (m : Bool) (e : Bool) (x : Bool) : Statement (.vshlI64 d a b q l m e x) := by
  refine of_raw rfl ((raw_13 (FmtA.op_pack _ _)).trans ?_)
  unfold dec13
  rw [FmtA.fn_pack, FmtA.unpack_pack]
  rfl

theorem vshrI64 (d : BitVec 5) (a : BitVec 5) (b : BitVec 5) (q : BitVec 3) (l : Bool) (m : Bool) (e : Bool) : Statement (.vshrI64 d a b q l m e) := by
  refine of_raw rfl ((raw_13 (FmtA.op_pack _ _)).trans ?_)
  unfold dec13
  rw [FmtA.fn_pack, FmtA.unpack_pack]
  rfl

theorem vshrN64 (d : BitVec 5) (a : BitVec 5) (b : BitVec 5) (q : BitVec 3) (l : Bool) (m : Bool) (e : Bool) : Statement (.vshrN64 d a b q l m e) := by
  refine of_raw rfl ((raw_13 (FmtA.op_pack _ _)).trans ?_)
  unfold dec13
  rw [FmtA.fn_pack, FmtA.unpack_pack]
  rfl

theorem vand (d : BitVec 5) (a : BitVec 5) (b : BitVec 5) (q : BitVec 3) (l : Bool) (m : Bool) (e : Bool) : Statement (.vand d a b q l m e) := by
  refine of_raw rfl ((raw_13 (FmtA.op_pack _ _)).trans ?_)
  unfold dec13
  rw [FmtA.fn_pack, FmtA.unpack_pack]
  rfl

theorem vor (d : BitVec 5) (a : BitVec 5) (b : BitVec 5) (q : BitVec 3) (l : Bool) (m : Bool) (e : Bool) : Statement (.vor d a b q l m e) := by
  refine of_raw rfl ((raw_13 (FmtA.op_pack _ _)).trans ?_)
  unfold dec13
  rw [FmtA.fn_pack, FmtA.unpack_pack]
  rfl

theorem vxor (d : BitVec 5) (a : BitVec 5) (b : BitVec 5) (q : BitVec 3) (l : Bool) (m : Bool) (e : Bool) : Statement (.vxor d a b q l m e) := by
  refine of_raw rfl ((raw_13 (FmtA.op_pack _ _)).trans ?_)
  unfold dec13
  rw [FmtA.fn_pack, FmtA.unpack_pack]
  rfl

theorem vandn (d : BitVec 5) (a : BitVec 5) (b : BitVec 5) (q : BitVec 3) (l : Bool) (m : Bool) (e : Bool) : Statement (.vandn d a b q l m e) := by
  refine of_raw rfl ((raw_13 (FmtA.op_pack _ _)).trans ?_)
  unfold dec13
  rw [FmtA.fn_pack, FmtA.unpack_pack]
  rfl

theorem vnot (d : BitVec 5) (a : BitVec 5) (q : BitVec 3) (l : Bool) (e : Bool) : Statement (.vnot d a q l e) := by
  refine of_raw rfl ((raw_13 (FmtA.op_pack _ _)).trans ?_)
  unfold dec13
  rw [FmtA.fn_pack, FmtA.unpack_pack]
  rfl

theorem vpopc (d : BitVec 5) (a : BitVec 5) (q : BitVec 3) (l : Bool) (e : Bool) : Statement (.vpopc d a q l e) := by
  refine of_raw rfl ((raw_13 (FmtA.op_pack _ _)).trans ?_)
  unfold dec13
  rw [FmtA.fn_pack, FmtA.unpack_pack]
  rfl

theorem vaddi (w : Wid4) (d : BitVec 5) (a : BitVec 5) (q : BitVec 3) (l : Bool) (i : BitVec 8) : Statement (.vaddi w d a q l i) := by
  refine of_raw rfl ((raw_14 (FmtIV.op_pack _ _)).trans ?_)
  unfold dec14
  rw [FmtIV.fn_pack, FmtIV.unpack_pack]
  cases w <;> rfl

theorem vshli (w : Wid4) (d : BitVec 5) (a : BitVec 5) (q : BitVec 3) (l : Bool) (i : BitVec 8) : Statement (.vshli w d a q l i) := by
  refine of_raw rfl ((raw_14 (FmtIV.op_pack _ _)).trans ?_)
  unfold dec14
  rw [FmtIV.fn_pack, FmtIV.unpack_pack]
  cases w <;> rfl

theorem vshriI (w : Wid4) (d : BitVec 5) (a : BitVec 5) (q : BitVec 3) (l : Bool) (i : BitVec 8) : Statement (.vshriI w d a q l i) := by
  refine of_raw rfl ((raw_14 (FmtIV.op_pack _ _)).trans ?_)
  unfold dec14
  rw [FmtIV.fn_pack, FmtIV.unpack_pack]
  cases w <;> rfl

theorem vshriN (w : Wid4) (d : BitVec 5) (a : BitVec 5) (q : BitVec 3) (l : Bool) (i : BitVec 8) : Statement (.vshriN w d a q l i) := by
  refine of_raw rfl ((raw_14 (FmtIV.op_pack _ _)).trans ?_)
  unfold dec14
  rw [FmtIV.fn_pack, FmtIV.unpack_pack]
  cases w <;> rfl

theorem vceq (w : Wid4) (d : PReg) (a : BitVec 5) (b : BitVec 5) (q : BitVec 3) (l : Bool) (m : Bool) (e : Bool) (x : Bool) : Statement (.vceq w d a b q l m e x) := by
  refine of_raw rfl ((raw_15 (FmtA.op_pack _ _)).trans ?_)
  unfold dec15
  rw [FmtA.fn_pack, FmtA.unpack_pack]
  cases w <;> exact congrArg (fun v => pick v (fun d => Dec.ok (.vceq _ d a b q l m e x))) (asPred_setWidth d)

theorem vcne (w : Wid4) (d : PReg) (a : BitVec 5) (b : BitVec 5) (q : BitVec 3) (l : Bool) (m : Bool) (e : Bool) (x : Bool) : Statement (.vcne w d a b q l m e x) := by
  refine of_raw rfl ((raw_15 (FmtA.op_pack _ _)).trans ?_)
  unfold dec15
  rw [FmtA.fn_pack, FmtA.unpack_pack]
  cases w <;> exact congrArg (fun v => pick v (fun d => Dec.ok (.vcne _ d a b q l m e x))) (asPred_setWidth d)

theorem vclt (w : Wid4) (d : PReg) (a : BitVec 5) (b : BitVec 5) (q : BitVec 3) (l : Bool) (m : Bool) (e : Bool) (x : Bool) : Statement (.vclt w d a b q l m e x) := by
  refine of_raw rfl ((raw_15 (FmtA.op_pack _ _)).trans ?_)
  unfold dec15
  rw [FmtA.fn_pack, FmtA.unpack_pack]
  cases w <;> exact congrArg (fun v => pick v (fun d => Dec.ok (.vclt _ d a b q l m e x))) (asPred_setWidth d)

theorem vcle (w : Wid4) (d : PReg) (a : BitVec 5) (b : BitVec 5) (q : BitVec 3) (l : Bool) (m : Bool) (e : Bool) (x : Bool) : Statement (.vcle w d a b q l m e x) := by
  refine of_raw rfl ((raw_15 (FmtA.op_pack _ _)).trans ?_)
  unfold dec15
  rw [FmtA.fn_pack, FmtA.unpack_pack]
  cases w <;> exact congrArg (fun v => pick v (fun d => Dec.ok (.vcle _ d a b q l m e x))) (asPred_setWidth d)

theorem vdot4I8 (d : BitVec 5) (a : BitVec 5) (b : BitVec 5) (q : BitVec 3) (l : Bool) (m : Bool) (e : Bool) (x : Bool) : Statement (.vdot4I8 d a b q l m e x) := by
  refine of_raw rfl ((raw_16 (FmtA.op_pack _ _)).trans ?_)
  unfold dec16
  rw [FmtA.fn_pack, FmtA.unpack_pack]
  rfl

theorem vdot4N8 (d : BitVec 5) (a : BitVec 5) (b : BitVec 5) (q : BitVec 3) (l : Bool) (m : Bool) (e : Bool) (x : Bool) : Statement (.vdot4N8 d a b q l m e x) := by
  refine of_raw rfl ((raw_16 (FmtA.op_pack _ _)).trans ?_)
  unfold dec16
  rw [FmtA.fn_pack, FmtA.unpack_pack]
  rfl

theorem vdot2I16 (d : BitVec 5) (a : BitVec 5) (b : BitVec 5) (q : BitVec 3) (l : Bool) (m : Bool) (e : Bool) (x : Bool) : Statement (.vdot2I16 d a b q l m e x) := by
  refine of_raw rfl ((raw_16 (FmtA.op_pack _ _)).trans ?_)
  unfold dec16
  rw [FmtA.fn_pack, FmtA.unpack_pack]
  rfl

theorem vdot2N16 (d : BitVec 5) (a : BitVec 5) (b : BitVec 5) (q : BitVec 3) (l : Bool) (m : Bool) (e : Bool) (x : Bool) : Statement (.vdot2N16 d a b q l m e x) := by
  refine of_raw rfl ((raw_16 (FmtA.op_pack _ _)).trans ?_)
  unfold dec16
  rw [FmtA.fn_pack, FmtA.unpack_pack]
  rfl

theorem vmadI16 (d : BitVec 5) (a : BitVec 5) (b : BitVec 5) (q : BitVec 3) (l : Bool) (m : Bool) (e : Bool) (x : Bool) : Statement (.vmadI16 d a b q l m e x) := by
  refine of_raw rfl ((raw_16 (FmtA.op_pack _ _)).trans ?_)
  unfold dec16
  rw [FmtA.fn_pack, FmtA.unpack_pack]
  rfl

theorem vmadI32 (d : BitVec 5) (a : BitVec 5) (b : BitVec 5) (q : BitVec 3) (l : Bool) (m : Bool) (e : Bool) (x : Bool) : Statement (.vmadI32 d a b q l m e x) := by
  refine of_raw rfl ((raw_16 (FmtA.op_pack _ _)).trans ?_)
  unfold dec16
  rw [FmtA.fn_pack, FmtA.unpack_pack]
  rfl

theorem vmadI64 (d : BitVec 5) (a : BitVec 5) (b : BitVec 5) (q : BitVec 3) (l : Bool) (m : Bool) (e : Bool) (x : Bool) : Statement (.vmadI64 d a b q l m e x) := by
  refine of_raw rfl ((raw_16 (FmtA.op_pack _ _)).trans ?_)
  unfold dec16
  rw [FmtA.fn_pack, FmtA.unpack_pack]
  rfl

theorem vaddminI16 (d : BitVec 5) (a : BitVec 5) (b : BitVec 5) (q : BitVec 3) (l : Bool) (m : Bool) (e : Bool) (x : Bool) : Statement (.vaddminI16 d a b q l m e x) := by
  refine of_raw rfl ((raw_17 (FmtA.op_pack _ _)).trans ?_)
  unfold dec17
  rw [FmtA.fn_pack, FmtA.unpack_pack]
  rfl

theorem vaddmaxI16 (d : BitVec 5) (a : BitVec 5) (b : BitVec 5) (q : BitVec 3) (l : Bool) (m : Bool) (e : Bool) (x : Bool) : Statement (.vaddmaxI16 d a b q l m e x) := by
  refine of_raw rfl ((raw_17 (FmtA.op_pack _ _)).trans ?_)
  unfold dec17
  rw [FmtA.fn_pack, FmtA.unpack_pack]
  rfl

theorem vaddminI32 (d : BitVec 5) (a : BitVec 5) (b : BitVec 5) (q : BitVec 3) (l : Bool) (m : Bool) (e : Bool) (x : Bool) : Statement (.vaddminI32 d a b q l m e x) := by
  refine of_raw rfl ((raw_17 (FmtA.op_pack _ _)).trans ?_)
  unfold dec17
  rw [FmtA.fn_pack, FmtA.unpack_pack]
  rfl

theorem vaddmaxI32 (d : BitVec 5) (a : BitVec 5) (b : BitVec 5) (q : BitVec 3) (l : Bool) (m : Bool) (e : Bool) (x : Bool) : Statement (.vaddmaxI32 d a b q l m e x) := by
  refine of_raw rfl ((raw_17 (FmtA.op_pack _ _)).trans ?_)
  unfold dec17
  rw [FmtA.fn_pack, FmtA.unpack_pack]
  rfl

theorem vaddminF32 (d : BitVec 5) (a : BitVec 5) (b : BitVec 5) (q : BitVec 3) (l : Bool) (m : Bool) (e : Bool) : Statement (.vaddminF32 d a b q l m e) := by
  refine of_raw rfl ((raw_17 (FmtA.op_pack _ _)).trans ?_)
  unfold dec17
  rw [FmtA.fn_pack, FmtA.unpack_pack]
  rfl

theorem vaddmaxF32 (d : BitVec 5) (a : BitVec 5) (b : BitVec 5) (q : BitVec 3) (l : Bool) (m : Bool) (e : Bool) : Statement (.vaddmaxF32 d a b q l m e) := by
  refine of_raw rfl ((raw_17 (FmtA.op_pack _ _)).trans ?_)
  unfold dec17
  rw [FmtA.fn_pack, FmtA.unpack_pack]
  rfl

theorem vsel (d : BitVec 5) (a : BitVec 5) (b : BitVec 5) (q : BitVec 3) (l : Bool) (m : Bool) (e : Bool) : Statement (.vsel d a b q l m e) := by
  refine of_raw rfl ((raw_17 (FmtA.op_pack _ _)).trans ?_)
  unfold dec17
  rw [FmtA.fn_pack, FmtA.unpack_pack]
  rfl

theorem vaddF32 (r : Rm) (d : BitVec 5) (a : BitVec 5) (b : BitVec 5) (q : BitVec 3) (l : Bool) (m : Bool) (e : Bool) : Statement (.vaddF32 r d a b q l m e) := by
  refine of_raw rfl ((raw_18 (FmtA.op_pack _ _)).trans ?_)
  unfold dec18
  rw [FmtA.fn_pack, FmtA.unpack_pack]
  cases r <;> rfl

theorem vsubF32 (r : Rm) (d : BitVec 5) (a : BitVec 5) (b : BitVec 5) (q : BitVec 3) (l : Bool) (m : Bool) (e : Bool) : Statement (.vsubF32 r d a b q l m e) := by
  refine of_raw rfl ((raw_18 (FmtA.op_pack _ _)).trans ?_)
  unfold dec18
  rw [FmtA.fn_pack, FmtA.unpack_pack]
  cases r <;> rfl

theorem vmulF32 (r : Rm) (d : BitVec 5) (a : BitVec 5) (b : BitVec 5) (q : BitVec 3) (l : Bool) (m : Bool) (e : Bool) : Statement (.vmulF32 r d a b q l m e) := by
  refine of_raw rfl ((raw_18 (FmtA.op_pack _ _)).trans ?_)
  unfold dec18
  rw [FmtA.fn_pack, FmtA.unpack_pack]
  cases r <;> rfl

theorem vdivF32 (r : Rm) (d : BitVec 5) (a : BitVec 5) (b : BitVec 5) (q : BitVec 3) (l : Bool) (m : Bool) (e : Bool) : Statement (.vdivF32 r d a b q l m e) := by
  refine of_raw rfl ((raw_18 (FmtA.op_pack _ _)).trans ?_)
  unfold dec18
  rw [FmtA.fn_pack, FmtA.unpack_pack]
  cases r <;> rfl

theorem vsqrtF32 (r : Rm) (d : BitVec 5) (a : BitVec 5) (q : BitVec 3) (l : Bool) (e : Bool) : Statement (.vsqrtF32 r d a q l e) := by
  refine of_raw rfl ((raw_18 (FmtA.op_pack _ _)).trans ?_)
  unfold dec18
  rw [FmtA.fn_pack, FmtA.unpack_pack]
  cases r <;> rfl

theorem vminF32 (d : BitVec 5) (a : BitVec 5) (b : BitVec 5) (q : BitVec 3) (l : Bool) (m : Bool) (e : Bool) : Statement (.vminF32 d a b q l m e) := by
  refine of_raw rfl ((raw_18 (FmtA.op_pack _ _)).trans ?_)
  unfold dec18
  rw [FmtA.fn_pack, FmtA.unpack_pack]
  rfl

theorem vmaxF32 (d : BitVec 5) (a : BitVec 5) (b : BitVec 5) (q : BitVec 3) (l : Bool) (m : Bool) (e : Bool) : Statement (.vmaxF32 d a b q l m e) := by
  refine of_raw rfl ((raw_18 (FmtA.op_pack _ _)).trans ?_)
  unfold dec18
  rw [FmtA.fn_pack, FmtA.unpack_pack]
  rfl

theorem vfcltF32 (d : PReg) (a : BitVec 5) (b : BitVec 5) (q : BitVec 3) (l : Bool) (m : Bool) (e : Bool) : Statement (.vfcltF32 d a b q l m e) := by
  refine of_raw rfl ((raw_18 (FmtA.op_pack _ _)).trans ?_)
  simp only [dec18, FmtA.fn_pack, FmtA.unpack_pack, asPred_setWidth]
  rfl

theorem vfcleF32 (d : PReg) (a : BitVec 5) (b : BitVec 5) (q : BitVec 3) (l : Bool) (m : Bool) (e : Bool) : Statement (.vfcleF32 d a b q l m e) := by
  refine of_raw rfl ((raw_18 (FmtA.op_pack _ _)).trans ?_)
  simp only [dec18, FmtA.fn_pack, FmtA.unpack_pack, asPred_setWidth]
  rfl

theorem vfceqF32 (d : PReg) (a : BitVec 5) (b : BitVec 5) (q : BitVec 3) (l : Bool) (m : Bool) (e : Bool) : Statement (.vfceqF32 d a b q l m e) := by
  refine of_raw rfl ((raw_18 (FmtA.op_pack _ _)).trans ?_)
  simp only [dec18, FmtA.fn_pack, FmtA.unpack_pack, asPred_setWidth]
  rfl

theorem vfmaF32 (r : Rm) (d : BitVec 5) (a : BitVec 5) (b : BitVec 5) (q : BitVec 3) (l : Bool) (m : Bool) (e : Bool) (x : Bool) : Statement (.vfmaF32 r d a b q l m e x) := by
  refine of_raw rfl ((raw_19 (FmtA.op_pack _ _)).trans ?_)
  unfold dec19
  rw [FmtA.fn_pack, FmtA.unpack_pack]
  cases r <;> rfl

theorem vfmsF32 (r : Rm) (d : BitVec 5) (a : BitVec 5) (b : BitVec 5) (q : BitVec 3) (l : Bool) (m : Bool) (e : Bool) (x : Bool) : Statement (.vfmsF32 r d a b q l m e x) := by
  refine of_raw rfl ((raw_19 (FmtA.op_pack _ _)).trans ?_)
  unfold dec19
  rw [FmtA.fn_pack, FmtA.unpack_pack]
  cases r <;> rfl

theorem vfmaw (r : Rm) (d : BitVec 5) (a : BitVec 5) (b : BitVec 5) (q : BitVec 3) (l : Bool) (m : Bool) (e : Bool) (x : Bool) : Statement (.vfmaw r d a b q l m e x) := by
  refine of_raw rfl ((raw_19 (FmtA.op_pack _ _)).trans ?_)
  unfold dec19
  rw [FmtA.fn_pack, FmtA.unpack_pack]
  cases r <;> rfl

theorem vaddHalf (t : Half) (r : Rm) (d : BitVec 5) (a : BitVec 5) (b : BitVec 5) (q : BitVec 3) (l : Bool) (m : Bool) (e : Bool) : Statement (.vaddHalf t r d a b q l m e) := by
  cases t
  · refine of_raw rfl ((raw_1a (FmtA.op_pack _ _)).trans ?_)
    unfold dec1A
    rw [FmtA.fn_pack, FmtA.unpack_pack]
    cases r <;> rfl
  · refine of_raw rfl ((raw_1b (FmtA.op_pack _ _)).trans ?_)
    unfold dec1B
    rw [FmtA.fn_pack, FmtA.unpack_pack]
    cases r <;> rfl

theorem vsubHalf (t : Half) (r : Rm) (d : BitVec 5) (a : BitVec 5) (b : BitVec 5) (q : BitVec 3) (l : Bool) (m : Bool) (e : Bool) : Statement (.vsubHalf t r d a b q l m e) := by
  cases t
  · refine of_raw rfl ((raw_1a (FmtA.op_pack _ _)).trans ?_)
    unfold dec1A
    rw [FmtA.fn_pack, FmtA.unpack_pack]
    cases r <;> rfl
  · refine of_raw rfl ((raw_1b (FmtA.op_pack _ _)).trans ?_)
    unfold dec1B
    rw [FmtA.fn_pack, FmtA.unpack_pack]
    cases r <;> rfl

theorem vmulHalf (t : Half) (r : Rm) (d : BitVec 5) (a : BitVec 5) (b : BitVec 5) (q : BitVec 3) (l : Bool) (m : Bool) (e : Bool) : Statement (.vmulHalf t r d a b q l m e) := by
  cases t
  · refine of_raw rfl ((raw_1a (FmtA.op_pack _ _)).trans ?_)
    unfold dec1A
    rw [FmtA.fn_pack, FmtA.unpack_pack]
    cases r <;> rfl
  · refine of_raw rfl ((raw_1b (FmtA.op_pack _ _)).trans ?_)
    unfold dec1B
    rw [FmtA.fn_pack, FmtA.unpack_pack]
    cases r <;> rfl

theorem vfmaHalf (t : Half) (r : Rm) (d : BitVec 5) (a : BitVec 5) (b : BitVec 5) (q : BitVec 3) (l : Bool) (m : Bool) (e : Bool) : Statement (.vfmaHalf t r d a b q l m e) := by
  cases t
  · refine of_raw rfl ((raw_1a (FmtA.op_pack _ _)).trans ?_)
    unfold dec1A
    rw [FmtA.fn_pack, FmtA.unpack_pack]
    cases r <;> rfl
  · refine of_raw rfl ((raw_1b (FmtA.op_pack _ _)).trans ?_)
    unfold dec1B
    rw [FmtA.fn_pack, FmtA.unpack_pack]
    cases r <;> rfl

theorem vfnmaHalf (t : Half) (r : Rm) (d : BitVec 5) (a : BitVec 5) (b : BitVec 5) (q : BitVec 3) (l : Bool) (m : Bool) (e : Bool) : Statement (.vfnmaHalf t r d a b q l m e) := by
  cases t
  · refine of_raw rfl ((raw_1a (FmtA.op_pack _ _)).trans ?_)
    unfold dec1A
    rw [FmtA.fn_pack, FmtA.unpack_pack]
    cases r <;> rfl
  · refine of_raw rfl ((raw_1b (FmtA.op_pack _ _)).trans ?_)
    unfold dec1B
    rw [FmtA.fn_pack, FmtA.unpack_pack]
    cases r <;> rfl

theorem vminHalf (t : Half) (d : BitVec 5) (a : BitVec 5) (b : BitVec 5) (q : BitVec 3) (l : Bool) (m : Bool) (e : Bool) : Statement (.vminHalf t d a b q l m e) := by
  cases t
  · refine of_raw rfl ((raw_1a (FmtA.op_pack _ _)).trans ?_)
    unfold dec1A
    rw [FmtA.fn_pack, FmtA.unpack_pack]
    rfl
  · refine of_raw rfl ((raw_1b (FmtA.op_pack _ _)).trans ?_)
    unfold dec1B
    rw [FmtA.fn_pack, FmtA.unpack_pack]
    rfl

theorem vmaxHalf (t : Half) (d : BitVec 5) (a : BitVec 5) (b : BitVec 5) (q : BitVec 3) (l : Bool) (m : Bool) (e : Bool) : Statement (.vmaxHalf t d a b q l m e) := by
  cases t
  · refine of_raw rfl ((raw_1a (FmtA.op_pack _ _)).trans ?_)
    unfold dec1A
    rw [FmtA.fn_pack, FmtA.unpack_pack]
    rfl
  · refine of_raw rfl ((raw_1b (FmtA.op_pack _ _)).trans ?_)
    unfold dec1B
    rw [FmtA.fn_pack, FmtA.unpack_pack]
    rfl

theorem vfcltHalf (t : Half) (d : PReg) (a : BitVec 5) (b : BitVec 5) (q : BitVec 3) (l : Bool) (m : Bool) (e : Bool) : Statement (.vfcltHalf t d a b q l m e) := by
  cases t
  · refine of_raw rfl ((raw_1a (FmtA.op_pack _ _)).trans ?_)
    simp only [dec1A, FmtA.fn_pack, FmtA.unpack_pack, asPred_setWidth]
    rfl
  · refine of_raw rfl ((raw_1b (FmtA.op_pack _ _)).trans ?_)
    simp only [dec1B, FmtA.fn_pack, FmtA.unpack_pack, asPred_setWidth]
    rfl

theorem vfcleHalf (t : Half) (d : PReg) (a : BitVec 5) (b : BitVec 5) (q : BitVec 3) (l : Bool) (m : Bool) (e : Bool) : Statement (.vfcleHalf t d a b q l m e) := by
  cases t
  · refine of_raw rfl ((raw_1a (FmtA.op_pack _ _)).trans ?_)
    simp only [dec1A, FmtA.fn_pack, FmtA.unpack_pack, asPred_setWidth]
    rfl
  · refine of_raw rfl ((raw_1b (FmtA.op_pack _ _)).trans ?_)
    simp only [dec1B, FmtA.fn_pack, FmtA.unpack_pack, asPred_setWidth]
    rfl

theorem vfceqHalf (t : Half) (d : PReg) (a : BitVec 5) (b : BitVec 5) (q : BitVec 3) (l : Bool) (m : Bool) (e : Bool) : Statement (.vfceqHalf t d a b q l m e) := by
  cases t
  · refine of_raw rfl ((raw_1a (FmtA.op_pack _ _)).trans ?_)
    simp only [dec1A, FmtA.fn_pack, FmtA.unpack_pack, asPred_setWidth]
    rfl
  · refine of_raw rfl ((raw_1b (FmtA.op_pack _ _)).trans ?_)
    simp only [dec1B, FmtA.fn_pack, FmtA.unpack_pack, asPred_setWidth]
    rfl

theorem vcvt (t : NumTy) (d : BitVec 5) (a : BitVec 5) (s : NumTy) (q : BitVec 3) (l : Bool) (r : Rm) (x : Bool) : Statement (.vcvt t d a s q l r x) := by
  refine of_raw rfl ((raw_1c (FmtC.op_pack _ _)).trans ?_)
  simp only [dec1C, FmtC.fn_pack, FmtC.unpack_pack, NumTy.ofBits_toBits, Rm.ofBits_toBits]
  rfl

theorem vqpack (r : Rm) (d : BitVec 5) (a : BitVec 5) (p : PackForm) (q : BitVec 3) (l : Bool) (e : Bool) (x : Bool) : Statement (.vqpack r d a p q l e x) := by
  refine of_raw rfl ((raw_1d (FmtA.op_pack _ _)).trans ?_)
  unfold dec1D
  rw [FmtA.fn_pack, FmtA.unpack_pack]
  cases r <;> cases p <;> rfl

theorem vqunpack (r : Rm) (d : BitVec 5) (a : BitVec 5) (p : PackForm) (q : BitVec 3) (l : Bool) (e : Bool) (x : Bool) : Statement (.vqunpack r d a p q l e x) := by
  refine of_raw rfl ((raw_1d (FmtA.op_pack _ _)).trans ?_)
  unfold dec1D
  rw [FmtA.fn_pack, FmtA.unpack_pack]
  cases r <;> cases p <;> rfl

theorem vqscale (r : Rm) (d : BitVec 5) (a : BitVec 5) (b : BitVec 5) (q : BitVec 3) (l : Bool) (m : Bool) (e : Bool) : Statement (.vqscale r d a b q l m e) := by
  refine of_raw rfl ((raw_1d (FmtA.op_pack _ _)).trans ?_)
  unfold dec1D
  rw [FmtA.fn_pack, FmtA.unpack_pack]
  cases r <;> rfl

theorem vrcp (d : BitVec 5) (a : BitVec 5) (q : BitVec 3) (l : Bool) (e : Bool) : Statement (.vrcp d a q l e) := by
  refine of_raw rfl ((raw_1e (FmtA.op_pack _ _)).trans ?_)
  unfold dec1E
  rw [FmtA.fn_pack, FmtA.unpack_pack]
  rfl

theorem vrsqrt (d : BitVec 5) (a : BitVec 5) (q : BitVec 3) (l : Bool) (e : Bool) : Statement (.vrsqrt d a q l e) := by
  refine of_raw rfl ((raw_1e (FmtA.op_pack _ _)).trans ?_)
  unfold dec1E
  rw [FmtA.fn_pack, FmtA.unpack_pack]
  rfl

theorem vsqrtSfu (d : BitVec 5) (a : BitVec 5) (q : BitVec 3) (l : Bool) (e : Bool) : Statement (.vsqrtSfu d a q l e) := by
  refine of_raw rfl ((raw_1e (FmtA.op_pack _ _)).trans ?_)
  unfold dec1E
  rw [FmtA.fn_pack, FmtA.unpack_pack]
  rfl

theorem vexp2 (d : BitVec 5) (a : BitVec 5) (q : BitVec 3) (l : Bool) (e : Bool) : Statement (.vexp2 d a q l e) := by
  refine of_raw rfl ((raw_1e (FmtA.op_pack _ _)).trans ?_)
  unfold dec1E
  rw [FmtA.fn_pack, FmtA.unpack_pack]
  rfl

theorem vlog2 (d : BitVec 5) (a : BitVec 5) (q : BitVec 3) (l : Bool) (e : Bool) : Statement (.vlog2 d a q l e) := by
  refine of_raw rfl ((raw_1e (FmtA.op_pack _ _)).trans ?_)
  unfold dec1E
  rw [FmtA.fn_pack, FmtA.unpack_pack]
  rfl

theorem vsin (d : BitVec 5) (a : BitVec 5) (q : BitVec 3) (l : Bool) (e : Bool) : Statement (.vsin d a q l e) := by
  refine of_raw rfl ((raw_1e (FmtA.op_pack _ _)).trans ?_)
  unfold dec1E
  rw [FmtA.fn_pack, FmtA.unpack_pack]
  rfl

theorem vcos (d : BitVec 5) (a : BitVec 5) (q : BitVec 3) (l : Bool) (e : Bool) : Statement (.vcos d a q l e) := by
  refine of_raw rfl ((raw_1e (FmtA.op_pack _ _)).trans ?_)
  unfold dec1E
  rw [FmtA.fn_pack, FmtA.unpack_pack]
  rfl

theorem vtanh (d : BitVec 5) (a : BitVec 5) (q : BitVec 3) (l : Bool) (e : Bool) : Statement (.vtanh d a q l e) := by
  refine of_raw rfl ((raw_1e (FmtA.op_pack _ _)).trans ?_)
  unfold dec1E
  rw [FmtA.fn_pack, FmtA.unpack_pack]
  rfl

theorem vsigm (d : BitVec 5) (a : BitVec 5) (q : BitVec 3) (l : Bool) (e : Bool) : Statement (.vsigm d a q l e) := by
  refine of_raw rfl ((raw_1e (FmtA.op_pack _ _)).trans ?_)
  unfold dec1E
  rw [FmtA.fn_pack, FmtA.unpack_pack]
  rfl

theorem verf (d : BitVec 5) (a : BitVec 5) (q : BitVec 3) (l : Bool) (e : Bool) : Statement (.verf d a q l e) := by
  refine of_raw rfl ((raw_1e (FmtA.op_pack _ _)).trans ?_)
  unfold dec1E
  rw [FmtA.fn_pack, FmtA.unpack_pack]
  rfl

theorem vcmulF32 (d : BitVec 5) (a : BitVec 5) (b : BitVec 5) (q : BitVec 3) (l : Bool) (m : Bool) (e : Bool) : Statement (.vcmulF32 d a b q l m e) := by
  refine of_raw rfl ((raw_1f (FmtA.op_pack _ _)).trans ?_)
  unfold dec1F
  rw [FmtA.fn_pack, FmtA.unpack_pack]
  rfl

theorem vcmulcF32 (d : BitVec 5) (a : BitVec 5) (b : BitVec 5) (q : BitVec 3) (l : Bool) (m : Bool) (e : Bool) : Statement (.vcmulcF32 d a b q l m e) := by
  refine of_raw rfl ((raw_1f (FmtA.op_pack _ _)).trans ?_)
  unfold dec1F
  rw [FmtA.fn_pack, FmtA.unpack_pack]
  rfl

theorem vcmulBf16 (d : BitVec 5) (a : BitVec 5) (b : BitVec 5) (q : BitVec 3) (l : Bool) (m : Bool) (e : Bool) : Statement (.vcmulBf16 d a b q l m e) := by
  refine of_raw rfl ((raw_1f (FmtA.op_pack _ _)).trans ?_)
  unfold dec1F
  rw [FmtA.fn_pack, FmtA.unpack_pack]
  rfl

theorem vbflyF32 (d : BitVec 5) (a : BitVec 5) (b : BitVec 5) (q : BitVec 3) (l : Bool) (m : Bool) (e : Bool) : Statement (.vbflyF32 d a b q l m e) := by
  refine of_raw rfl ((raw_1f (FmtA.op_pack _ _)).trans ?_)
  unfold dec1F
  rw [FmtA.fn_pack, FmtA.unpack_pack]
  rfl

theorem vbflyBf16 (d : BitVec 5) (a : BitVec 5) (b : BitVec 5) (q : BitVec 3) (l : Bool) (m : Bool) (e : Bool) : Statement (.vbflyBf16 d a b q l m e) := by
  refine of_raw rfl ((raw_1f (FmtA.op_pack _ _)).trans ?_)
  unfold dec1F
  rw [FmtA.fn_pack, FmtA.unpack_pack]
  rfl

theorem vlread (d : BitVec 5) (a : BitVec 5) (b : BitVec 5) (q : BitVec 3) (l : Bool) (m : Bool) (e : Bool) : Statement (.vlread d a b q l m e) := by
  refine of_raw rfl ((raw_20 (FmtA.op_pack _ _)).trans ?_)
  unfold dec20
  rw [FmtA.fn_pack, FmtA.unpack_pack]
  rfl

theorem vshlx (d : BitVec 5) (a : BitVec 5) (b : BitVec 5) (q : BitVec 3) (l : Bool) (m : Bool) (e : Bool) : Statement (.vshlx d a b q l m e) := by
  refine of_raw rfl ((raw_20 (FmtA.op_pack _ _)).trans ?_)
  unfold dec20
  rw [FmtA.fn_pack, FmtA.unpack_pack]
  rfl

theorem vshrx (d : BitVec 5) (a : BitVec 5) (b : BitVec 5) (q : BitVec 3) (l : Bool) (m : Bool) (e : Bool) : Statement (.vshrx d a b q l m e) := by
  refine of_raw rfl ((raw_20 (FmtA.op_pack _ _)).trans ?_)
  unfold dec20
  rw [FmtA.fn_pack, FmtA.unpack_pack]
  rfl

theorem vshly (d : BitVec 5) (a : BitVec 5) (b : BitVec 5) (q : BitVec 3) (l : Bool) (m : Bool) (e : Bool) : Statement (.vshly d a b q l m e) := by
  refine of_raw rfl ((raw_20 (FmtA.op_pack _ _)).trans ?_)
  unfold dec20
  rw [FmtA.fn_pack, FmtA.unpack_pack]
  rfl

theorem vshry (d : BitVec 5) (a : BitVec 5) (b : BitVec 5) (q : BitVec 3) (l : Bool) (m : Bool) (e : Bool) : Statement (.vshry d a b q l m e) := by
  refine of_raw rfl ((raw_20 (FmtA.op_pack _ _)).trans ?_)
  unfold dec20
  rw [FmtA.fn_pack, FmtA.unpack_pack]
  rfl

theorem vsubsel (d : BitVec 5) (a : BitVec 5) (b : BitVec 5) (q : BitVec 3) (l : Bool) (m : Bool) (e : Bool) : Statement (.vsubsel d a b q l m e) := by
  refine of_raw rfl ((raw_20 (FmtA.op_pack _ _)).trans ?_)
  unfold dec20
  rw [FmtA.fn_pack, FmtA.unpack_pack]
  rfl

theorem vrotx (d : BitVec 5) (a : BitVec 5) (b : BitVec 5) (q : BitVec 3) (l : Bool) (m : Bool) (e : Bool) : Statement (.vrotx d a b q l m e) := by
  refine of_raw rfl ((raw_20 (FmtA.op_pack _ _)).trans ?_)
  unfold dec20
  rw [FmtA.fn_pack, FmtA.unpack_pack]
  rfl

theorem vmatch (d : BitVec 5) (a : BitVec 5) (k : KeyTy) (q : BitVec 3) (l : Bool) (e : Bool) : Statement (.vmatch d a k q l e) := by
  refine of_raw rfl ((raw_21 (FmtA.op_pack _ _)).trans ?_)
  simp only [dec21, FmtA.fn_pack, FmtA.unpack_pack, KeyTy.ofBits_toBits]
  rfl

theorem vballot (d : BitVec 5) (a : PReg) (q : BitVec 3) : Statement (.vballot d a q) := by
  refine of_raw rfl ((raw_21 (FmtA.op_pack _ _)).trans ?_)
  simp only [dec21, FmtA.fn_pack, FmtA.unpack_pack, asPred_setWidth]
  rfl

theorem vredaddI64 (d : BitVec 5) (a : BitVec 5) (q : BitVec 3) (l : Bool) (e : Bool) : Statement (.vredaddI64 d a q l e) := by
  refine of_raw rfl ((raw_21 (FmtA.op_pack _ _)).trans ?_)
  unfold dec21
  rw [FmtA.fn_pack, FmtA.unpack_pack]
  rfl

theorem vredaddF32 (d : BitVec 5) (a : BitVec 5) (q : BitVec 3) (l : Bool) (e : Bool) : Statement (.vredaddF32 d a q l e) := by
  refine of_raw rfl ((raw_21 (FmtA.op_pack _ _)).trans ?_)
  unfold dec21
  rw [FmtA.fn_pack, FmtA.unpack_pack]
  rfl

theorem vredminI64 (d : BitVec 5) (a : BitVec 5) (q : BitVec 3) (l : Bool) (e : Bool) : Statement (.vredminI64 d a q l e) := by
  refine of_raw rfl ((raw_21 (FmtA.op_pack _ _)).trans ?_)
  unfold dec21
  rw [FmtA.fn_pack, FmtA.unpack_pack]
  rfl

theorem vredmaxI64 (d : BitVec 5) (a : BitVec 5) (q : BitVec 3) (l : Bool) (e : Bool) : Statement (.vredmaxI64 d a q l e) := by
  refine of_raw rfl ((raw_21 (FmtA.op_pack _ _)).trans ?_)
  unfold dec21
  rw [FmtA.fn_pack, FmtA.unpack_pack]
  rfl

theorem vredminF32 (d : BitVec 5) (a : BitVec 5) (q : BitVec 3) (l : Bool) (e : Bool) : Statement (.vredminF32 d a q l e) := by
  refine of_raw rfl ((raw_21 (FmtA.op_pack _ _)).trans ?_)
  unfold dec21
  rw [FmtA.fn_pack, FmtA.unpack_pack]
  rfl

theorem vredmaxF32 (d : BitVec 5) (a : BitVec 5) (q : BitVec 3) (l : Bool) (e : Bool) : Statement (.vredmaxF32 d a q l e) := by
  refine of_raw rfl ((raw_21 (FmtA.op_pack _ _)).trans ?_)
  unfold dec21
  rw [FmtA.fn_pack, FmtA.unpack_pack]
  rfl

theorem vscanaddI64 (d : BitVec 5) (a : BitVec 5) (q : BitVec 3) (l : Bool) (e : Bool) : Statement (.vscanaddI64 d a q l e) := by
  refine of_raw rfl ((raw_21 (FmtA.op_pack _ _)).trans ?_)
  unfold dec21
  rw [FmtA.fn_pack, FmtA.unpack_pack]
  rfl

theorem vscanaddF32 (d : BitVec 5) (a : BitVec 5) (q : BitVec 3) (l : Bool) (e : Bool) : Statement (.vscanaddF32 d a q l e) := by
  refine of_raw rfl ((raw_21 (FmtA.op_pack _ _)).trans ?_)
  unfold dec21
  rw [FmtA.fn_pack, FmtA.unpack_pack]
  rfl

theorem vscanmaxI64 (d : BitVec 5) (a : BitVec 5) (q : BitVec 3) (l : Bool) (e : Bool) : Statement (.vscanmaxI64 d a q l e) := by
  refine of_raw rfl ((raw_21 (FmtA.op_pack _ _)).trans ?_)
  unfold dec21
  rw [FmtA.fn_pack, FmtA.unpack_pack]
  rfl

theorem vpcount (d : BitVec 5) (a : PReg) (q : BitVec 3) : Statement (.vpcount d a q) := by
  refine of_raw rfl ((raw_21 (FmtA.op_pack _ _)).trans ?_)
  simp only [dec21, FmtA.fn_pack, FmtA.unpack_pack, asPred_setWidth]
  rfl

theorem vmov (d : BitVec 5) (a : BitVec 5) (q : BitVec 3) (l : Bool) (e : Bool) : Statement (.vmov d a q l e) := by
  refine of_raw rfl ((raw_22 (FmtA.op_pack _ _)).trans ?_)
  unfold dec22
  rw [FmtA.fn_pack, FmtA.unpack_pack]
  rfl

theorem vbcast (d : BitVec 5) (a : BitVec 5) (q : BitVec 3) (l : Bool) (e : Bool) : Statement (.vbcast d a q l e) := by
  refine of_raw rfl ((raw_22 (FmtA.op_pack _ _)).trans ?_)
  unfold dec22
  rw [FmtA.fn_pack, FmtA.unpack_pack]
  rfl

theorem vextr (d : BitVec 5) (a : BitVec 5) (b : BitVec 5) (l : Bool) (m : Bool) (e : Bool) : Statement (.vextr d a b l m e) := by
  refine of_raw rfl ((raw_22 (FmtA.op_pack _ _)).trans ?_)
  unfold dec22
  rw [FmtA.fn_pack, FmtA.unpack_pack]
  rfl

theorem vmovi (d : BitVec 5) (q : BitVec 3) (i : BitVec 8) : Statement (.vmovi d q i) := by
  refine of_raw rfl ((raw_22 (FmtIV.op_pack _ _)).trans ?_)
  unfold dec22
  rw [FmtIV.fn_pack, FmtIV.unpack_pack]
  rfl

theorem pld (d : BitVec 5) (h : BitVec 3) (j : BitVec 3) (z : BitVec 7) (q : BitVec 3) (l : Bool) : Statement (.pld d h j z q l) := by
  refine of_raw rfl ((raw_24 (FmtWin.op_pack _ _)).trans ?_)
  unfold dec24
  rw [FmtWin.fn_pack, FmtWin.unpack_pack]
  rfl

theorem pst (d : BitVec 5) (z : BitVec 7) (q : BitVec 3) (l : Bool) : Statement (.pst d z q l) := by
  refine of_raw rfl ((raw_24 (FmtWin.op_pack _ _)).trans ?_)
  unfold dec24
  rw [FmtWin.fn_pack, FmtWin.unpack_pack]
  rfl

theorem pwinSumI32 (d : BitVec 5) (k : BitVec 3) (z : BitVec 7) (q : BitVec 3) (l : Bool) : Statement (.pwinSumI32 d k z q l) := by
  refine of_raw rfl ((raw_24 (FmtWin.op_pack _ _)).trans ?_)
  unfold dec24
  rw [FmtWin.fn_pack, FmtWin.unpack_pack]
  rfl

theorem pwinSumF32 (d : BitVec 5) (k : BitVec 3) (z : BitVec 7) (q : BitVec 3) (l : Bool) : Statement (.pwinSumF32 d k z q l) := by
  refine of_raw rfl ((raw_24 (FmtWin.op_pack _ _)).trans ?_)
  unfold dec24
  rw [FmtWin.fn_pack, FmtWin.unpack_pack]
  rfl

theorem pwinMaxI32 (d : BitVec 5) (k : BitVec 3) (z : BitVec 7) (q : BitVec 3) (l : Bool) : Statement (.pwinMaxI32 d k z q l) := by
  refine of_raw rfl ((raw_24 (FmtWin.op_pack _ _)).trans ?_)
  unfold dec24
  rw [FmtWin.fn_pack, FmtWin.unpack_pack]
  rfl

theorem pwinMaxF32 (d : BitVec 5) (k : BitVec 3) (z : BitVec 7) (q : BitVec 3) (l : Bool) : Statement (.pwinMaxF32 d k z q l) := by
  refine of_raw rfl ((raw_24 (FmtWin.op_pack _ _)).trans ?_)
  unfold dec24
  rw [FmtWin.fn_pack, FmtWin.unpack_pack]
  rfl

theorem pwinMinI32 (d : BitVec 5) (k : BitVec 3) (z : BitVec 7) (q : BitVec 3) (l : Bool) : Statement (.pwinMinI32 d k z q l) := by
  refine of_raw rfl ((raw_24 (FmtWin.op_pack _ _)).trans ?_)
  unfold dec24
  rw [FmtWin.fn_pack, FmtWin.unpack_pack]
  rfl

theorem pwinMinF32 (d : BitVec 5) (k : BitVec 3) (z : BitVec 7) (q : BitVec 3) (l : Bool) : Statement (.pwinMinF32 d k z q l) := by
  refine of_raw rfl ((raw_24 (FmtWin.op_pack _ _)).trans ?_)
  unfold dec24
  rw [FmtWin.fn_pack, FmtWin.unpack_pack]
  rfl

theorem scroll (h : BitVec 5) (d : BitVec 4) (r : Dir) (e : Edge) (s : BitVec 5) : Statement (.scroll h d r e s) := by
  refine of_raw rfl ((raw_25 (FmtScr.op_pack _ _)).trans ?_)
  simp only [dec25, FmtScr.fn_pack, FmtScr.unpack_pack, Dir.ofBits_toBits, Edge.ofBits_toBits]
  rfl

theorem scrollResume (h : BitVec 5) (d : BitVec 4) (r : Dir) (e : Edge) (s : BitVec 5) : Statement (.scrollResume h d r e s) := by
  refine of_raw rfl ((raw_25 (FmtScr.op_pack _ _)).trans ?_)
  simp only [dec25, FmtScr.fn_pack, FmtScr.unpack_pack, Dir.ofBits_toBits, Edge.ofBits_toBits]
  rfl

theorem pzero (a : BitVec 5) (l : Bool) (e : Bool) : Statement (.pzero a l e) := by
  refine of_raw rfl ((raw_26 (FmtA.op_pack _ _)).trans ?_)
  unfold dec26
  rw [FmtA.fn_pack, FmtA.unpack_pack]
  rfl

theorem pfill (a : BitVec 5) (b : BitVec 5) (l : Bool) (m : Bool) (e : Bool) : Statement (.pfill a b l m e) := by
  refine of_raw rfl ((raw_26 (FmtA.op_pack _ _)).trans ?_)
  unfold dec26
  rw [FmtA.fn_pack, FmtA.unpack_pack]
  rfl

theorem pcopy (a : BitVec 5) (b : BitVec 5) (l : Bool) (m : Bool) (e : Bool) : Statement (.pcopy a b l m e) := by
  refine of_raw rfl ((raw_26 (FmtA.op_pack _ _)).trans ?_)
  unfold dec26
  rw [FmtA.fn_pack, FmtA.unpack_pack]
  rfl

theorem phnd (d : BitVec 5) (a : BitVec 5) (b : BitVec 5) (l : Bool) (m : Bool) (e : Bool) : Statement (.phnd d a b l m e) := by
  refine of_raw rfl ((raw_26 (FmtA.op_pack _ _)).trans ?_)
  unfold dec26
  rw [FmtA.fn_pack, FmtA.unpack_pack]
  rfl

theorem pclip (d : BitVec 5) (a : BitVec 5) (b : BitVec 5) (l : Bool) (m : Bool) (e : Bool) : Statement (.pclip d a b l m e) := by
  refine of_raw rfl ((raw_26 (FmtA.op_pack _ _)).trans ?_)
  unfold dec26
  rw [FmtA.fn_pack, FmtA.unpack_pack]
  rfl

theorem vgather (k : Bool) (w : Wid4) (d : BitVec 5) (b : BitVec 5) (i : BitVec 5) (q : BitVec 3) (l : Bool) (v : Bool) (s : Sc) : Statement (.vgather k w d b i q l v s) := by
  refine of_raw rfl ((raw_28 (FmtM.op_pack _ _)).trans ?_)
  unfold dec28
  rw [FmtM.fn_pack, FmtM.unpack_pack]
  cases k <;> cases w <;> cases s <;> rfl

theorem vscatter (k : Bool) (w : Wid4) (d : BitVec 5) (b : BitVec 5) (i : BitVec 5) (q : BitVec 3) (l : Bool) (v : Bool) (s : Sc) : Statement (.vscatter k w d b i q l v s) := by
  refine of_raw rfl ((raw_29 (FmtM.op_pack _ _)).trans ?_)
  unfold dec29
  rw [FmtM.fn_pack, FmtM.unpack_pack]
  cases k <;> cases w <;> cases s <;> rfl

theorem ld (k : Bool) (w : Wid4) (d : BitVec 5) (b : BitVec 5) (i : BitVec 5) (l : Bool) (v : Bool) (s : Sc) : Statement (.ld k w d b i l v s) := by
  refine of_raw rfl ((raw_2a (FmtM.op_pack _ _)).trans ?_)
  unfold dec2A
  rw [FmtM.fn_pack, FmtM.unpack_pack]
  cases k <;> cases w <;> cases s <;> rfl

theorem st (k : Bool) (w : Wid4) (d : BitVec 5) (b : BitVec 5) (i : BitVec 5) (l : Bool) (v : Bool) (s : Sc) : Statement (.st k w d b i l v s) := by
  refine of_raw rfl ((raw_2a (FmtM.op_pack _ _)).trans ?_)
  unfold dec2A
  rw [FmtM.fn_pack, FmtM.unpack_pack]
  cases k <;> cases w <;> cases s <;> rfl

theorem tld (d : BitVec 5) (b : BitVec 5) (i : BitVec 5) (v : Bool) (s : Sc) : Statement (.tld d b i v s) := by
  refine of_raw rfl ((raw_2b (FmtM.op_pack _ _)).trans ?_)
  simp only [dec2B, FmtM.fn_pack, FmtM.unpack_pack, Sc.ofBits_toBits]
  rfl

theorem tst (d : BitVec 5) (b : BitVec 5) (i : BitVec 5) (l : Bool) (v : Bool) (s : Sc) : Statement (.tst d b i l v s) := by
  refine of_raw rfl ((raw_2b (FmtM.op_pack _ _)).trans ?_)
  simp only [dec2B, FmtM.fn_pack, FmtM.unpack_pack, Sc.ofBits_toBits]
  rfl

theorem lflush (b : BitVec 5) : Statement (.lflush b) := by
  refine of_raw rfl ((raw_2b (FmtM.op_pack _ _)).trans ?_)
  unfold dec2B
  rw [FmtM.fn_pack, FmtM.unpack_pack]
  rfl

theorem aadd (d : BitVec 5) (b : BitVec 5) (i : BitVec 5) (l : Bool) (v : Bool) (s : Sc) : Statement (.aadd d b i l v s) := by
  refine of_raw rfl ((raw_2c (FmtM.op_pack _ _)).trans ?_)
  simp only [dec2C, FmtM.fn_pack, FmtM.unpack_pack, Sc.ofBits_toBits]
  rfl

theorem aand (d : BitVec 5) (b : BitVec 5) (i : BitVec 5) (l : Bool) (v : Bool) (s : Sc) : Statement (.aand d b i l v s) := by
  refine of_raw rfl ((raw_2c (FmtM.op_pack _ _)).trans ?_)
  simp only [dec2C, FmtM.fn_pack, FmtM.unpack_pack, Sc.ofBits_toBits]
  rfl

theorem aor (d : BitVec 5) (b : BitVec 5) (i : BitVec 5) (l : Bool) (v : Bool) (s : Sc) : Statement (.aor d b i l v s) := by
  refine of_raw rfl ((raw_2c (FmtM.op_pack _ _)).trans ?_)
  simp only [dec2C, FmtM.fn_pack, FmtM.unpack_pack, Sc.ofBits_toBits]
  rfl

theorem axor (d : BitVec 5) (b : BitVec 5) (i : BitVec 5) (l : Bool) (v : Bool) (s : Sc) : Statement (.axor d b i l v s) := by
  refine of_raw rfl ((raw_2c (FmtM.op_pack _ _)).trans ?_)
  simp only [dec2C, FmtM.fn_pack, FmtM.unpack_pack, Sc.ofBits_toBits]
  rfl

theorem aminI (d : BitVec 5) (b : BitVec 5) (i : BitVec 5) (l : Bool) (v : Bool) (s : Sc) : Statement (.aminI d b i l v s) := by
  refine of_raw rfl ((raw_2c (FmtM.op_pack _ _)).trans ?_)
  simp only [dec2C, FmtM.fn_pack, FmtM.unpack_pack, Sc.ofBits_toBits]
  rfl

theorem aminN (d : BitVec 5) (b : BitVec 5) (i : BitVec 5) (l : Bool) (v : Bool) (s : Sc) : Statement (.aminN d b i l v s) := by
  refine of_raw rfl ((raw_2c (FmtM.op_pack _ _)).trans ?_)
  simp only [dec2C, FmtM.fn_pack, FmtM.unpack_pack, Sc.ofBits_toBits]
  rfl

theorem amaxI (d : BitVec 5) (b : BitVec 5) (i : BitVec 5) (l : Bool) (v : Bool) (s : Sc) : Statement (.amaxI d b i l v s) := by
  refine of_raw rfl ((raw_2c (FmtM.op_pack _ _)).trans ?_)
  simp only [dec2C, FmtM.fn_pack, FmtM.unpack_pack, Sc.ofBits_toBits]
  rfl

theorem amaxN (d : BitVec 5) (b : BitVec 5) (i : BitVec 5) (l : Bool) (v : Bool) (s : Sc) : Statement (.amaxN d b i l v s) := by
  refine of_raw rfl ((raw_2c (FmtM.op_pack _ _)).trans ?_)
  simp only [dec2C, FmtM.fn_pack, FmtM.unpack_pack, Sc.ofBits_toBits]
  rfl

theorem aswap (d : BitVec 5) (b : BitVec 5) (i : BitVec 5) (l : Bool) (v : Bool) (s : Sc) : Statement (.aswap d b i l v s) := by
  refine of_raw rfl ((raw_2c (FmtM.op_pack _ _)).trans ?_)
  simp only [dec2C, FmtM.fn_pack, FmtM.unpack_pack, Sc.ofBits_toBits]
  rfl

theorem acas (d : BitVec 5) (b : BitVec 5) (i : BitVec 5) (l : Bool) (v : Bool) (s : Sc) : Statement (.acas d b i l v s) := by
  refine of_raw rfl ((raw_2c (FmtM.op_pack _ _)).trans ?_)
  simp only [dec2C, FmtM.fn_pack, FmtM.unpack_pack, Sc.ofBits_toBits]
  rfl

theorem aaddf (d : BitVec 5) (b : BitVec 5) (i : BitVec 5) (v : Bool) (s : Sc) : Statement (.aaddf d b i v s) := by
  refine of_raw rfl ((raw_2c (FmtM.op_pack _ _)).trans ?_)
  simp only [dec2C, FmtM.fn_pack, FmtM.unpack_pack, Sc.ofBits_toBits]
  rfl

theorem lds (k : Bool) (w : Wid4) (d : BitVec 5) (b : BitVec 5) (i : BitVec 5) (q : BitVec 3) (l : Bool) : Statement (.lds k w d b i q l) := by
  refine of_raw rfl ((raw_2d (FmtM.op_pack _ _)).trans ?_)
  unfold dec2D
  rw [FmtM.fn_pack, FmtM.unpack_pack]
  cases k <;> cases w <;> rfl

theorem sts (k : Bool) (w : Wid4) (d : BitVec 5) (b : BitVec 5) (i : BitVec 5) (q : BitVec 3) (l : Bool) : Statement (.sts k w d b i q l) := by
  refine of_raw rfl ((raw_2d (FmtM.op_pack _ _)).trans ?_)
  unfold dec2D
  rw [FmtM.fn_pack, FmtM.unpack_pack]
  cases k <;> cases w <;> rfl

theorem pfc (b : BitVec 5) (i : BitVec 5) : Statement (.pfc b i) := by
  refine of_raw rfl ((raw_2e (FmtM.op_pack _ _)).trans ?_)
  unfold dec2E
  rw [FmtM.fn_pack, FmtM.unpack_pack]
  rfl

theorem pfd (b : BitVec 5) (i : BitVec 5) : Statement (.pfd b i) := by
  refine of_raw rfl ((raw_2e (FmtM.op_pack _ _)).trans ?_)
  unfold dec2E
  rw [FmtM.fn_pack, FmtM.unpack_pack]
  rfl

theorem cwb (b : BitVec 5) (i : BitVec 5) : Statement (.cwb b i) := by
  refine of_raw rfl ((raw_2e (FmtM.op_pack _ _)).trans ?_)
  unfold dec2E
  rw [FmtM.fn_pack, FmtM.unpack_pack]
  rfl

theorem cinv (b : BitVec 5) (i : BitVec 5) : Statement (.cinv b i) := by
  refine of_raw rfl ((raw_2e (FmtM.op_pack _ _)).trans ?_)
  unfold dec2E
  rw [FmtM.fn_pack, FmtM.unpack_pack]
  rfl

theorem cwbinv (b : BitVec 5) (i : BitVec 5) : Statement (.cwbinv b i) := by
  refine of_raw rfl ((raw_2e (FmtM.op_pack _ _)).trans ?_)
  unfold dec2E
  rw [FmtM.fn_pack, FmtM.unpack_pack]
  rfl

theorem cpyGp (a : BitVec 5) (t : BitVec 6) (c : BitVec 5) : Statement (.cpyGp a t c) := by
  refine of_raw rfl ((raw_30 (FmtCmd.op_pack _ _)).trans ?_)
  unfold dec30
  rw [FmtCmd.fn_pack, FmtCmd.unpack_pack]
  rfl

theorem cpyPg (a : BitVec 5) (t : BitVec 6) (c : BitVec 5) : Statement (.cpyPg a t c) := by
  refine of_raw rfl ((raw_30 (FmtCmd.op_pack _ _)).trans ?_)
  unfold dec30
  rw [FmtCmd.fn_pack, FmtCmd.unpack_pack]
  rfl

theorem cpyPp (a : BitVec 5) (t : BitVec 6) (c : BitVec 5) : Statement (.cpyPp a t c) := by
  refine of_raw rfl ((raw_30 (FmtCmd.op_pack _ _)).trans ?_)
  unfold dec30
  rw [FmtCmd.fn_pack, FmtCmd.unpack_pack]
  rfl

theorem cpyGg (a : BitVec 5) (t : BitVec 6) (c : BitVec 5) : Statement (.cpyGg a t c) := by
  refine of_raw rfl ((raw_30 (FmtCmd.op_pack _ _)).trans ?_)
  unfold dec30
  rw [FmtCmd.fn_pack, FmtCmd.unpack_pack]
  rfl

theorem waitAny (d : BitVec 5) (a : BitVec 5) : Statement (.waitAny d a) := by
  refine of_raw rfl ((raw_31 (FmtTag.op_pack _ _)).trans ?_)
  unfold dec31
  rw [FmtTag.fn_pack, FmtTag.unpack_pack]
  rfl

theorem waitAll (d : BitVec 5) (a : BitVec 5) : Statement (.waitAll d a) := by
  refine of_raw rfl ((raw_31 (FmtTag.op_pack _ _)).trans ?_)
  unfold dec31
  rw [FmtTag.fn_pack, FmtTag.unpack_pack]
  rfl

theorem tagfind (d : BitVec 5) (a : BitVec 5) : Statement (.tagfind d a) := by
  refine of_raw rfl ((raw_31 (FmtTag.op_pack _ _)).trans ?_)
  unfold dec31
  rw [FmtTag.fn_pack, FmtTag.unpack_pack]
  rfl

theorem tagclr (a : BitVec 5) : Statement (.tagclr a) := by
  refine of_raw rfl ((raw_31 (FmtTag.op_pack _ _)).trans ?_)
  unfold dec31
  rw [FmtTag.fn_pack, FmtTag.unpack_pack]
  rfl

theorem nmv (a : BitVec 5) (t : BitVec 6) (c : BitVec 5) : Statement (.nmv a t c) := by
  refine of_raw rfl ((raw_32 (FmtCmd.op_pack _ _)).trans ?_)
  unfold dec32
  rw [FmtCmd.fn_pack, FmtCmd.unpack_pack]
  rfl

theorem nmrd (a : BitVec 5) (t : BitVec 6) (c : BitVec 5) : Statement (.nmrd a t c) := by
  refine of_raw rfl ((raw_32 (FmtCmd.op_pack _ _)).trans ?_)
  unfold dec32
  rw [FmtCmd.fn_pack, FmtCmd.unpack_pack]
  rfl

theorem nmwr (a : BitVec 5) (t : BitVec 6) (c : BitVec 5) : Statement (.nmwr a t c) := by
  refine of_raw rfl ((raw_32 (FmtCmd.op_pack _ _)).trans ?_)
  unfold dec32
  rw [FmtCmd.fn_pack, FmtCmd.unpack_pack]
  rfl

theorem nmwrm (a : BitVec 5) (t : BitVec 6) (c : BitVec 5) : Statement (.nmwrm a t c) := by
  refine of_raw rfl ((raw_32 (FmtCmd.op_pack _ _)).trans ?_)
  unfold dec32
  rw [FmtCmd.fn_pack, FmtCmd.unpack_pack]
  rfl

theorem mma (a : BitVec 5) (s : BitVec 4) (m : MSel) (n : BitVec 6) (q : BitVec 3) (r : Bool) (c : Bool) : Statement (.mma a s m n q r c) := by
  refine of_raw rfl ((raw_34 (FmtMma.op_pack _ _)).trans ?_)
  simp only [dec34, FmtMma.fn_pack, FmtMma.unpack_pack, MSel.ofBits_toBits]
  rfl

theorem accz (s : BitVec 4) (n : BitVec 4) (q : BitVec 3) : Statement (.accz s n q) := by
  refine of_raw rfl ((raw_35 (FmtAcc.op_pack _ _)).trans ?_)
  unfold dec35
  rw [FmtAcc.fn_pack, FmtAcc.unpack_pack]
  rfl

theorem accld (h : BitVec 5) (s : BitVec 4) (n : BitVec 4) (c : BitVec 3) (r : Rm) (q : BitVec 3) : Statement (.accld h s n c r q) := by
  refine of_raw rfl ((raw_35 (FmtAcc.op_pack _ _)).trans ?_)
  simp only [dec35, FmtAcc.fn_pack, FmtAcc.unpack_pack, Rm.ofBits_toBits]
  rfl

theorem accrd (h : BitVec 5) (s : BitVec 4) (n : BitVec 4) (c : BitVec 3) (r : Rm) (q : BitVec 3) : Statement (.accrd h s n c r q) := by
  refine of_raw rfl ((raw_35 (FmtAcc.op_pack _ _)).trans ?_)
  simp only [dec35, FmtAcc.fn_pack, FmtAcc.unpack_pack, Rm.ofBits_toBits]
  rfl

theorem mfence : Statement .mfence := by
  refine of_raw rfl ((raw_36 (FmtMq.op_pack _ _)).trans ?_)
  unfold dec36
  rw [FmtMq.fn_pack, FmtMq.unpack_pack]
  rfl

theorem mwait (s : BitVec 4) : Statement (.mwait s) := by
  refine of_raw rfl ((raw_36 (FmtMq.op_pack _ _)).trans ?_)
  unfold dec36
  rw [FmtMq.fn_pack, FmtMq.unpack_pack]
  rfl

theorem bar (l : BitVec 3) : Statement (.bar l) := by
  refine of_raw rfl ((raw_38 (FmtBar.op_pack _ _)).trans ?_)
  unfold dec38
  rw [FmtBar.fn_pack, FmtBar.unpack_pack]
  rfl

theorem barArrive (l : BitVec 3) : Statement (.barArrive l) := by
  refine of_raw rfl ((raw_38 (FmtBar.op_pack _ _)).trans ?_)
  unfold dec38
  rw [FmtBar.fn_pack, FmtBar.unpack_pack]
  rfl

theorem barWait (l : BitVec 3) : Statement (.barWait l) := by
  refine of_raw rfl ((raw_38 (FmtBar.op_pack _ _)).trans ?_)
  unfold dec38
  rw [FmtBar.fn_pack, FmtBar.unpack_pack]
  rfl

theorem fence (s : Scope) (k : FenceKind) : Statement (.fence s k) := by
  refine of_raw rfl ((raw_39 (FmtFen.op_pack _ _)).trans ?_)
  simp only [dec39, FmtFen.fn_pack, FmtFen.unpack_pack, Scope.ofBits_toBits, FenceKind.ofBits_toBits]
  rfl

theorem ringWait (g : BitVec 4) (s : BitVec 3) (p : Bool) : Statement (.ringWait g s p) := by
  refine of_raw rfl ((raw_3a (FmtRng.op_pack _ _)).trans ?_)
  unfold dec3A
  rw [FmtRng.fn_pack, FmtRng.unpack_pack]
  rfl

theorem ringSig (g : BitVec 4) (s : BitVec 3) : Statement (.ringSig g s) := by
  refine of_raw rfl ((raw_3a (FmtRng.op_pack _ _)).trans ?_)
  unfold dec3A
  rw [FmtRng.fn_pack, FmtRng.unpack_pack]
  rfl

theorem ringTest (d : BitVec 5) (g : BitVec 4) (s : BitVec 3) (p : Bool) : Statement (.ringTest d g s p) := by
  refine of_raw rfl ((raw_3a (FmtRng.op_pack _ _)).trans ?_)
  unfold dec3A
  rw [FmtRng.fn_pack, FmtRng.unpack_pack]
  rfl

theorem send (a : BitVec 5) (e : BitVec 5) (l : Bool) : Statement (.send a e l) := by
  refine of_raw rfl ((raw_3b (FmtChn.op_pack _ _)).trans ?_)
  unfold dec3B
  rw [FmtChn.fn_pack, FmtChn.unpack_pack]
  rfl

theorem recv (d : BitVec 5) (e : BitVec 5) : Statement (.recv d e) := by
  refine of_raw rfl ((raw_3b (FmtChn.op_pack _ _)).trans ?_)
  unfold dec3B
  rw [FmtChn.fn_pack, FmtChn.unpack_pack]
  rfl

theorem trysend (d : BitVec 5) (a : BitVec 5) (e : BitVec 5) (l : Bool) : Statement (.trysend d a e l) := by
  refine of_raw rfl ((raw_3b (FmtChn.op_pack _ _)).trans ?_)
  unfold dec3B
  rw [FmtChn.fn_pack, FmtChn.unpack_pack]
  rfl

theorem chstat (d : BitVec 5) (e : BitVec 5) : Statement (.chstat d e) := by
  refine of_raw rfl ((raw_3b (FmtChn.op_pack _ _)).trans ?_)
  unfold dec3B
  rw [FmtChn.fn_pack, FmtChn.unpack_pack]
  rfl

theorem acqW (a : BitVec 5) (k : AcqKind) : Statement (.acqW a k) := by
  refine of_raw rfl ((raw_3c (FmtAcq.op_pack _ _)).trans ?_)
  simp only [dec3C, FmtAcq.fn_pack, FmtAcq.unpack_pack, AcqKind.ofBits_toBits]
  rfl

theorem acqF (d : BitVec 5) (a : BitVec 5) (k : AcqKind) : Statement (.acqF d a k) := by
  refine of_raw rfl ((raw_3c (FmtAcq.op_pack _ _)).trans ?_)
  simp only [dec3C, FmtAcq.fn_pack, FmtAcq.unpack_pack, AcqKind.ofBits_toBits]
  rfl

theorem rel (a : BitVec 5) (k : AcqKind) : Statement (.rel a k) := by
  refine of_raw rfl ((raw_3c (FmtAcq.op_pack _ _)).trans ?_)
  simp only [dec3C, FmtAcq.fn_pack, FmtAcq.unpack_pack, AcqKind.ofBits_toBits]
  rfl

theorem setperf (a : BitVec 5) : Statement (.setperf a) := by
  refine of_raw rfl ((raw_3c (FmtAcq.op_pack _ _)).trans ?_)
  unfold dec3C
  rw [FmtAcq.fn_pack, FmtAcq.unpack_pack]
  rfl

theorem setperfV (a : BitVec 5) : Statement (.setperfV a) := by
  refine of_raw rfl ((raw_3c (FmtAcq.op_pack _ _)).trans ?_)
  unfold dec3C
  rw [FmtAcq.fn_pack, FmtAcq.unpack_pack]
  rfl

theorem pdrop (a : BitVec 5) : Statement (.pdrop a) := by
  refine of_raw rfl ((raw_3c (FmtAcq.op_pack _ _)).trans ?_)
  unfold dec3C
  rw [FmtAcq.fn_pack, FmtAcq.unpack_pack]
  rfl

theorem ctxrd (d : BitVec 5) (a : BitVec 5) (b : BitVec 5) : Statement (.ctxrd d a b) := by
  refine of_raw rfl ((raw_3d (FmtCtx.op_pack _ _)).trans ?_)
  unfold dec3D
  rw [FmtCtx.fn_pack, FmtCtx.unpack_pack]
  rfl

theorem ctxwr (d : BitVec 5) (a : BitVec 5) (b : BitVec 5) : Statement (.ctxwr d a b) := by
  refine of_raw rfl ((raw_3d (FmtCtx.op_pack _ _)).trans ?_)
  unfold dec3D
  rw [FmtCtx.fn_pack, FmtCtx.unpack_pack]
  rfl

theorem idem : Statement .idem := by
  refine of_raw rfl ((raw_3d (FmtCtx.op_pack _ _)).trans ?_)
  unfold dec3D
  rw [FmtCtx.fn_pack, FmtCtx.unpack_pack]
  rfl

theorem idemEnd : Statement .idemEnd := by
  refine of_raw rfl ((raw_3d (FmtCtx.op_pack _ _)).trans ?_)
  unfold dec3D
  rw [FmtCtx.fn_pack, FmtCtx.unpack_pack]
  rfl

theorem tret (a : BitVec 5) (b : BitVec 5) : Statement (.tret a b) := by
  refine of_raw rfl ((raw_3d (FmtCtx.op_pack _ _)).trans ?_)
  unfold dec3D
  rw [FmtCtx.fn_pack, FmtCtx.unpack_pack]
  rfl

theorem vkill (d : BitVec 5) (a : BitVec 5) : Statement (.vkill d a) := by
  refine of_raw rfl ((raw_3d (FmtCtx.op_pack _ _)).trans ?_)
  unfold dec3D
  rw [FmtCtx.fn_pack, FmtCtx.unpack_pack]
  rfl

theorem skill (d : BitVec 5) (a : BitVec 5) : Statement (.skill d a) := by
  refine of_raw rfl ((raw_3d (FmtCtx.op_pack _ _)).trans ?_)
  unfold dec3D
  rw [FmtCtx.fn_pack, FmtCtx.unpack_pack]
  rfl

theorem sret (d : BitVec 5) (a : BitVec 5) (b : BitVec 5) : Statement (.sret d a b) := by
  refine of_raw rfl ((raw_3d (FmtCtx.op_pack _ _)).trans ?_)
  unfold dec3D
  rw [FmtCtx.fn_pack, FmtCtx.unpack_pack]
  rfl

theorem grpsusp (d : BitVec 5) (a : BitVec 5) : Statement (.grpsusp d a) := by
  refine of_raw rfl ((raw_3d (FmtCtx.op_pack _ _)).trans ?_)
  unfold dec3D
  rw [FmtCtx.fn_pack, FmtCtx.unpack_pack]
  rfl

theorem grpres (d : BitVec 5) (a : BitVec 5) : Statement (.grpres d a) := by
  refine of_raw rfl ((raw_3d (FmtCtx.op_pack _ _)).trans ?_)
  unfold dec3D
  rw [FmtCtx.fn_pack, FmtCtx.unpack_pack]
  rfl

theorem asgen (d : BitVec 5) (a : BitVec 5) (b : BitVec 5) : Statement (.asgen d a b) := by
  refine of_raw rfl ((raw_3d (FmtCtx.op_pack _ _)).trans ?_)
  unfold dec3D
  rw [FmtCtx.fn_pack, FmtCtx.unpack_pack]
  rfl

theorem rpt (n : BitVec 6) (d : Bool) (a : Bool) (b : Bool) (s : BitVec 2) : Statement (.rpt n d a b s) := by
  refine of_raw rfl ((raw_3e (FmtRpt.op_pack _ _)).trans ?_)
  unfold dec3E
  rw [FmtRpt.unpack_pack]
  rfl

theorem wide (p : BitVec 24) : Statement (.wide p) := by
  refine of_raw rfl ((raw_3f (FmtWide.op_pack _ _)).trans ?_)
  unfold dec3F
  rw [FmtWide.k_pack, FmtWide.unpack_pack]
  rfl

theorem mod (s : ModScope) (o : ModOrder) (c : ModCache) (t : Bool) : Statement (.mod s o c t) := by
  refine of_raw rfl ((raw_3f (FmtMod.op_pack _ _)).trans ?_)
  simp only [dec3F, FmtMod.k_pack, FmtMod.unpack_pack, ModScope.ofBits_toBits, ModOrder.ofBits_toBits, ModCache.ofBits_toBits]
  rfl

theorem sched (y : Bool) (p : BitVec 2) (s : BitVec 16) : Statement (.sched y p s) := by
  refine of_raw rfl ((raw_3f (FmtSch.op_pack _ _)).trans ?_)
  unfold dec3F
  rw [FmtSch.k_pack, FmtSch.unpack_pack]
  rfl

theorem doorbellWrite (q : Nat) (tail : BitVec 32) : Statement (.doorbellWrite q tail) := of_none rfl

theorem qerrClear (m : Nat) (bits : BitVec 64) : Statement (.qerrClear m bits) := of_none rfl

theorem nothingEntry (q : Nat) : Statement (.nothingEntry q) := of_none rfl

theorem launchEntry (q : Nat) : Statement (.launchEntry q) := of_none rfl

theorem waitEntry (q : Nat) : Statement (.waitEntry q) := of_none rfl

theorem waitEntryPoll (q : Nat) : Statement (.waitEntryPoll q) := of_none rfl

theorem signalEntry (q : Nat) : Statement (.signalEntry q) := of_none rfl

theorem endEntry (q : Nat) : Statement (.endEntry q) := of_none rfl

theorem cplheadPoll (q : Nat) : Statement (.cplheadPoll q) := of_none rfl

theorem priorityAging (q : Nat) : Statement (.priorityAging q) := of_none rfl

theorem unitAdmission (grid : Nat) : Statement (.unitAdmission grid) := of_none rfl

theorem unitReservation (grid : Nat) : Statement (.unitReservation grid) := of_none rfl

theorem teamStart (dist : Nat) : Statement (.teamStart dist) := of_none rfl

theorem groupStart (team : Nat) : Statement (.groupStart team) := of_none rfl

theorem arrivalLaunch (core : Nat) (ep : Nat) : Statement (.arrivalLaunch core ep) := of_none rfl

theorem groupActivation (core : Nat) : Statement (.groupActivation core) := of_none rfl

theorem demotion (core : Nat) : Statement (.demotion core) := of_none rfl

theorem schedulerSwap (core : Nat) : Statement (.schedulerSwap core) := of_none rfl

theorem registerFill (group : Nat) : Statement (.registerFill group) := of_none rfl

theorem loadReply (group : Nat) (idx : Nat) (part : Nat) (reply : Reply) : Statement (.loadReply group idx part reply) := of_none rfl

theorem sfuResult (core : Nat) (idx : Nat) : Statement (.sfuResult core idx) := of_none rfl

theorem bankWake (core : Nat) (plane : Bool) (bank : Nat) : Statement (.bankWake core plane bank) := of_none rfl

theorem bankRetention (core : Nat) (plane : Bool) (bank : Nat) : Statement (.bankRetention core plane bank) := of_none rfl

theorem storeDrain (group : Nat) (idx : Nat) : Statement (.storeDrain group idx) := of_none rfl

theorem storePush (view : ViewId) (idx : Nat) : Statement (.storePush view idx) := of_none rfl

theorem viewRefresh (view : ViewId) (addr : Nat) : Statement (.viewRefresh view addr) := of_none rfl

theorem syncSignal (idx : Nat) : Statement (.syncSignal idx) := of_none rfl

theorem barrierReleaseInjection (idx : Nat) : Statement (.barrierReleaseInjection idx) := of_none rfl

theorem channelOfferArrival (idx : Nat) : Statement (.channelOfferArrival idx) := of_none rfl

theorem scrollExecute (core : Nat) : Statement (.scrollExecute core) := of_none rfl

theorem copyCommandStart (core : Nat) (spot : Spot) : Statement (.copyCommandStart core spot) := of_none rfl

theorem copyCommandComplete (core : Nat) (spot : Spot) : Statement (.copyCommandComplete core spot) := of_none rfl

theorem rawPacketComplete (core : Nat) (spot : Spot) : Statement (.rawPacketComplete core spot) := of_none rfl

theorem matrixBegin (what : EngineStep) : Statement (.matrixBegin what) := of_none rfl

theorem matrixComplete (core : Nat) (spot : Spot) : Statement (.matrixComplete core spot) := of_none rfl

theorem slewWindowStart (core : Nat) : Statement (.slewWindowStart core) := of_none rfl

theorem granuleSlot (core : Nat) : Statement (.granuleSlot core) := of_none rfl

theorem perfMoveComplete (cluster : Nat) : Statement (.perfMoveComplete cluster) := of_none rfl

theorem dwellBoundary : Statement .dwellBoundary := of_none rfl

theorem mmcCapChange (cluster : Nat) (code : BitVec 4) : Statement (.mmcCapChange cluster code) := of_none rfl

theorem perfcapWrite (v : BitVec 64) : Statement (.perfcapWrite v) := of_none rfl

theorem slewctlWrite (v : BitVec 64) : Statement (.slewctlWrite v) := of_none rfl

theorem barstagWrite (v : BitVec 64) : Statement (.barstagWrite v) := of_none rfl

theorem seedWrite (group : Nat) (v : BitVec 64) : Statement (.seedWrite group v) := of_none rfl

theorem preemptPreempt (save : BitVec 64) : Statement (.preemptPreempt save) := of_none rfl

theorem preemptSaveComplete (team : Nat) : Statement (.preemptSaveComplete team) := of_none rfl

theorem preemptRestart (save : BitVec 64) : Statement (.preemptRestart save) := of_none rfl

theorem savedTeamReadmission (team : Nat) : Statement (.savedTeamReadmission team) := of_none rfl

theorem watchdogExpiry (group : Nat) : Statement (.watchdogExpiry group) := of_none rfl

theorem deferredTrap (group : Nat) : Statement (.deferredTrap group) := of_none rfl

theorem handlerStart (team : Nat) : Statement (.handlerStart team) := of_none rfl

theorem systemEventPost : Statement .systemEventPost := of_none rfl

theorem sysevptrWrite (v : BitVec 64) : Statement (.sysevptrWrite v) := of_none rfl

theorem groupRetire (group : Nat) : Statement (.groupRetire group) := of_none rfl

theorem gridEnd (grid : Nat) : Statement (.gridEnd grid) := of_none rfl

theorem rebuildComplete (die : Nat) : Statement (.rebuildComplete die) := of_none rfl

theorem classifierEntryExpiry (die : Nat) (idx : Nat) : Statement (.classifierEntryExpiry die idx) := of_none rfl

theorem arrayRepair (die : Nat) (idx : Nat) : Statement (.arrayRepair die idx) := of_none rfl

theorem scrubRead (idx : Nat) : Statement (.scrubRead idx) := of_none rfl

theorem rotatingRowCheck (core : Nat) (row : Nat) : Statement (.rotatingRowCheck core row) := of_none rfl

theorem hbmPatrolScrub (addr : Nat) : Statement (.hbmPatrolScrub addr) := of_none rfl

theorem timingReplay (at_ : CoreStage) : Statement (.timingReplay at_) := of_none rfl

theorem linkFlitReplay (link : Nat) : Statement (.linkFlitReplay link) := of_none rfl

theorem fabricWireRepair (link : Nat) : Statement (.fabricWireRepair link) := of_none rfl

theorem rasstatWrite (core : Nat) (v : BitVec 64) : Statement (.rasstatWrite core v) := of_none rfl

theorem portFailover (port : Nat) (lane : BitVec 3) : Statement (.portFailover port lane) := of_none rfl

theorem portFailoverComplete (port : Nat) : Statement (.portFailoverComplete port) := of_none rfl

theorem portRetrain (port : Nat) : Statement (.portRetrain port) := of_none rfl

theorem lossOfSignal (port : Nat) : Statement (.lossOfSignal port) := of_none rfl

theorem portstatWrite (v : BitVec 64) : Statement (.portstatWrite v) := of_none rfl

theorem remoteAccessTimeout (group : Nat) (idx : Nat) (part : Nat) : Statement (.remoteAccessTimeout group idx part) := of_none rfl

theorem hostRequestCompletion (group : Nat) (idx : Nat) (part : Nat) (reply : Reply) : Statement (.hostRequestCompletion group idx part reply) := of_none rfl

theorem inboundPeerAccess (port : Nat) (addr : BitVec 44) (req : PeerReq) : Statement (.inboundPeerAccess port addr req) := of_none rfl

theorem bar2HostAccess (spot : HostSpot) (req : HostReq) : Statement (.bar2HostAccess spot req) := of_none rfl

theorem bar2mapWrite (v : BitVec 64) : Statement (.bar2mapWrite v) := of_none rfl

theorem peerwinWrite (v : BitVec 64) : Statement (.peerwinWrite v) := of_none rfl

theorem functionLevelReset : Statement .functionLevelReset := of_none rfl

theorem moduleReset : Statement .moduleReset := of_none rfl

theorem attestationRequest (nonce : BitVec 512) : Statement (.attestationRequest nonce) := of_none rfl

theorem attestationReport : Statement .attestationReport := of_none rfl

theorem firmwareImageLoad (digest : BitVec 512) (version : BitVec 32) (image : Image) : Statement (.firmwareImageLoad digest version image) := of_none rfl

theorem registerWrite (core : Nat) (num : BitVec 11) (v : BitVec 64) : Statement (.registerWrite core num v) := of_none rfl

theorem clearingComplete (core : Nat) : Statement (.clearingComplete core) := of_none rfl

theorem softError (site : ErrSite) : Statement (.softError site) := of_none rfl

theorem dieReset (die : Nat) (uncore : Bool) (enter : Bool) : Statement (.dieReset die uncore enter) := of_none rfl

theorem portFlitReplay (port : Nat) : Statement (.portFlitReplay port) := of_none rfl

theorem powerStateChange (d3 : Bool) : Statement (.powerStateChange d3) := of_none rfl

end Sys2Proof.Laws.RoundTrip
end

