-- ==== Sys2Proof/Tests/Base.lean ====
section
/-!
SUPPORT. Small machines for the tests and witnesses: one grid of one team with one group, and a check that a word is ready
to issue there.
-/

namespace Sys2Proof.Machine.Test

/-- A launch of one unit of one team, with traps handled, every level, and rings of eight stages. -/
def launch0 : Launch :=
  { trapen := true, imgbase := 0x10000, imgwords := 4096, entryvec := 64, entrymat := 64, entrycpy := 64, entrytrap := 64
    entryarr := 64, ctxbase := 0x100000, ctxslots := 4, ctxstride := 2, nvec := 1
    levels := [⟨1, 1, 0⟩, ⟨1, 2, 0⟩, ⟨1, 3, 1⟩, ⟨1, 4, 0⟩], pinrows := 16, accslots := 12, tags := 64, rings := 16, area := 768
    depth := 128, ringstg := 0x8888888888888888 }

def grid0 : Grid :=
  { queue := 0, index := 0, token := 0x55, asid := 0, supv := true, launch := launch0, coresident := true, next := 1 }

/-- A team of core 0 that holds every slot, tag and ring. -/
def team1 : Team :=
  { grid := 0, index := 0, core := 0, slot := 0, started := true, begun := 1, nextNum := 1, key := 0
    accHeld := 0xFFF, accPhys := List.range 12, tagHeld := 0xFFFFFFFFFFFFFFFF, ringHeld := 0xFFFF }

/-- A group of one sector whose scalars hold `sv`, all registers live, v0 to v7 holding zeros, predicates 1 to 7 true in lane 0. -/
def tg (r : Role) (sv : List Word) : Group :=
  { id := ⟨0, 1, 0, r, 1, 0, 0x100000, 0, 0, true, false, false, none⟩
    gstate := .active, pc := 0x10100, alive := footMask 1
    regs := ⟨sv, [], List.replicate 7 1, 0xFFFFFFFF, 0xFFFFFFFF, 0, 0, 0⟩
    sys := { mode := 0, seed := 1, lfsr := 1, traprec := 0 } }

/-- A translation of the first GiB of address space 0 to itself, every access permitted. -/
def tlb0 : TlbEnt := ⟨0, 0, 0x40000000, 0x3F, 0⟩

/-- Core 0 with the registers of group 2 cached: its scalars, and v0 to v7. -/
def core0 : Core :=
  { active := some 2 :: List.replicate 7 none
    rows := (List.range 8).map (fun n => (n, { group := 2, reg := n, use := 0 }))
    sents := (List.range 31).map (fun n => (n, { group := 2, reg := n + 1, use := 0 }))
    lbank := [(0, .full)]
    tlb := [tlb0] }

/-- A state in which group 2, which is `g`, issues on core 0, which is `c`. -/
def ts (g : Group) (c : Core) : State :=
  { State.reset with
    grids := [(0, grid0)], teams := [(1, team1)], groups := [(2, g)], nextId := 3, cores := [(0, c), (noCore, { tlb := [tlb0] })]
    cur := some 2 }

/-- Whether nothing holds back the word of `i`, and no hive write or ring signal is on its way. -/
def readyB (i : Instr) (s : State) (k : Nat) (g : Group) (n : Need) : Bool :=
  match encode i with
  | none => false
  | some w =>
    s.slotFree k g w && (s.heldBack w g).isNone && (wordTrap w g).isNone && decide (n.lane ≠ some 0) &&
      decide (regHold s k g n = .go) && (s.core g.id.core).hiveW.isEmpty && (s.core g.id.core).ringT.isEmpty

theorem ready_of {i : Instr} {s : State} {k : Nat} {g : Group} {n : Need} (hk : s.cur = some k) (hg : s.group k = some g)
    (h : readyB i s k g n = true) : Ready i s k g n := by
  unfold readyB at h
  cases he : encode i with
  | none => rw [he] at h; exact absurd h (by simp)
  | some w =>
    rw [he] at h
    simp only [Bool.and_eq_true, decide_eq_true_eq, Option.isNone_iff_eq_none, List.isEmpty_iff] at h
    obtain ⟨⟨⟨⟨⟨⟨h1, h2⟩, h3⟩, h4⟩, h5⟩, h6⟩, h7⟩ := h
    refine ⟨fun v hv => ?_, by rw [he]; rfl, h6, h7⟩
    obtain rfl : w = v := by rw [he] at hv; exact Option.some.inj hv
    exact ⟨⟨hk, hg⟩, h1, h2, h3, h4, h5⟩

/-- Words that are ready, for every member of a list. -/
theorem all_ready {α : Type} {s : State} {k : Nat} {g : Group} {l : List α} {i : α → Instr} {n : α → Need} (hk : s.cur = some k)
    (hg : s.group k = some g) (h : l.all (fun x => readyB (i x) s k g (n x)) = true) : ∀ x ∈ l, Ready (i x) s k g (n x) :=
  fun x hx => ready_of hk hg (List.all_eq_true.mp h x hx)

def passes : Gate → Bool
  | .pass => true
  | _ => false

theorem pass_of {x : Gate} (h : passes x = true) : x = .pass := by
  cases x <;> first | rfl | exact absurd h (by simp [passes])

def okB {α β : Type} : Except α β → Bool
  | .ok _ => true
  | .error _ => false

theorem ok_of {α β : Type} {x : Except α β} (h : okB x = true) : ∃ v, x = .ok v := by
  cases x with
  | ok v => exact ⟨v, rfl⟩
  | error _ => exact absurd h (by simp [okB])

/-- A choice of answers for every member of a list. -/
theorem oks_of {α β : Type} [Inhabited β] {l : List Nat} {x : Nat → Except α β} (h : l.all (fun n => okB (x n)) = true) :
    ∃ f : Nat → β, ∀ n ∈ l, x n = .ok (f n) :=
  ⟨fun n => match x n with | .ok v => v | .error _ => default, fun n hn => by
    obtain ⟨v, hv⟩ := ok_of (List.all_eq_true.mp h n hn)
    simp only [hv]⟩

theorem all_and {α : Type} {l : List α} {p q : α → Prop} (hp : ∀ x ∈ l, p x) (hq : ∀ x ∈ l, q x) : ∀ x ∈ l, p x ∧ q x :=
  fun x hx => ⟨hp x hx, hq x hx⟩

/-- Scalars whose low registers hold small numbers of both signs. -/
def sv0 : List Word := [0, 1, 2, 3, 4, 5, 6, 7, 8, 9, 10, 11, 12, 0xFFFFFFFFFFFFFFFF, 0x20000, 0x20040, 0x20080]

def gv : Group := tg .vector sv0
def sv : State := ts gv core0

def settledB (s : State) (g : Group) : Bool :=
  g.accs.isEmpty && (s.lateOf g.id.core 2).isEmpty && (s.core g.id.core).view.wait.isEmpty && (s.die (dieOf g.id.core)).view.wait.isEmpty &&
    !(s.core g.id.core).scrollOf 2

theorem settled_of {s : State} {g : Group} (h : settledB s g = true) : Settled s 2 g := by
  simp only [settledB, Bool.and_eq_true, List.isEmpty_iff, Bool.not_eq_true'] at h
  exact ⟨h.1.1.1.1, h.1.1.1.2, ⟨h.1.1.2, h.1.2⟩, h.2⟩

/-- Whether no store of group `k` waits in a view. -/
def unwaitedB (s : State) (k : Nat) : Bool :=
  s.cores.all (fun e => e.2.view.wait.all (fun x => x.group != k)) && s.dies.all (fun e => e.2.view.wait.all (fun x => x.group != k))

theorem unwaited_of {s : State} {k : Nat} (h : unwaitedB s k = true) : Unwaited s k := by
  simpa [unwaitedB, Unwaited, Bool.and_eq_true, List.all_eq_true] using h

theorem handled : Handled sv gv := ⟨grid0, rfl, rfl, rfl⟩

end Sys2Proof.Machine.Test
end

