-- ==== Sys2Proof/Tests/Control.lean ====
section
/-!
SUPPORT. Witnesses of the statements about control flow, bundles, the software trap, hives and system registers.
-/

namespace Sys2Proof.Machine.Test

set_option Elab.async false
set_option maxRecDepth 8000

/-! ### Branches -/

/-- For `BranchResults`: each condition where it holds and where it does not. -/
theorem witness_branch :
    Ready (.br 0x10000) sv 2 gv (needS gv [] none false false) ∧
    (∀ f ∈ [Instr.bz, Instr.bnz, Instr.blt, Instr.bge],
      Ready (f 0 0xFFFF) sv 2 gv (needS gv [(sr 0, false)] none false false) ∧
      Ready (f 13 0x1FFFF) sv 2 gv (needS gv [(sr 13, false)] none false false)) ∧
    (∀ f ∈ [Instr.bany, Instr.ball, Instr.bnone],
      Ready (f 0 1) sv 2 gv (needS gv [] none false false) ∧ Ready (f 7 1) sv 2 gv (needS gv [] none false false)) ∧
    (gv.sreg 0 = 0 ∧ gv.sreg 13 ≠ 0 ∧ (gv.sreg 13).toInt < 0 ∧ gv.pbit 0 191 = true ∧ gv.pbit 7 0 = true ∧ gv.pbit 7 191 = false) :=
  ⟨ready_of rfl rfl (by decide +kernel), all_and (all_ready rfl rfl (by decide +kernel)) (all_ready rfl rfl (by decide +kernel)),
   all_and (all_ready rfl rfl (by decide +kernel)) (all_ready rfl rfl (by decide +kernel)), by decide +kernel⟩

theorem witness_call :
    Ready (.call 31 0x10000) sv 2 gv (needS gv [] (some (sr 31)) false false) ∧
    Ready (.call 0 0) sv 2 gv (needS gv [] (some (sr 0)) false false) ∧
    Ready (.callr 31 14 true true) sv 2 gv (needS gv [(sr 14, true)] (some (sr 31)) false true) ∧
    Ready (.ret 14 false false) sv 2 gv (needS gv [(sr 14, false)] none false false) ∧ (gv.sreg 14).toNat % 4 = 0 :=
  ⟨ready_of rfl rfl (by decide +kernel), ready_of rfl rfl (by decide +kernel), ready_of rfl rfl (by decide +kernel), ready_of rfl rfl (by decide +kernel), by decide +kernel⟩

/-- The same team with a second group that pends. -/
def gq : Group := { gv with id := { gv.id with num := 1, slot := 1, base := 0x120000 }, gstate := .pending }
def sv2 : State := { sv with groups := [(2, gv), (3, gq)], nextId := 4 }
/-- The second group waits. -/
def svWait : State := { sv with groups := [(2, gv), (3, { gq with blocked := some (.tagAny 1) })], nextId := 4 }

/-- For `ExitYieldKill`. -/
theorem witness_exit :
    Ready (.exit 0) sv 2 gv { lane := some (gv.eff 0), closes := true } ∧
    Ready (.exit 7) sv 2 gv { lane := some (gv.eff 7), closes := true } ∧
    Ready .yield sv 2 gv {} ∧ Ready .yield sv2 2 gv {} ∧ Ready .yield svWait 2 gv {} ∧ sv.readyIn 0 .pending = [] ∧ svWait.readyIn 0 .pending = [] ∧
    (gv.gstate = .active ∧ (∀ e ∈ sv2.groups, e.1 = 2 → e.2 = gv) ∧ (sv2.core 0).active.count (some 2) = 1 ∧ sv2.group 3 = some gq ∧
      gq.id.core = gv.id.core ∧ gq.gstate = .pending ∧ sv2.teamRuns gq = true ∧ gq.blocked = none ∧ gq.alive ≠ 0) :=
  ⟨ready_of rfl rfl (by decide +kernel), ready_of rfl rfl (by decide +kernel), ready_of rfl rfl (by decide +kernel), ready_of rfl rfl (by decide +kernel),
   ready_of rfl rfl (by decide +kernel), by decide +kernel, by decide +kernel, rfl, by decide +kernel, by decide +kernel, rfl, rfl, rfl, by decide +kernel, rfl,
   by decide +kernel⟩

theorem witness_kill :
    Ready (.vkill 0 31) sv 2 gv { frees := ((List.range 32).filter (fun n => (0 : BitVec 5).toNat ≤ n && n ≤ (31 : BitVec 5).toNat)).map Reg.v } ∧
    Ready (.vkill 7 7) sv 2 gv { frees := ((List.range 32).filter (fun n => (7 : BitVec 5).toNat ≤ n && n ≤ (7 : BitVec 5).toNat)).map Reg.v } ∧
    Ready (.skill 0 31) sv 2 gv
      { frees := ((List.range 32).filter (fun n => n ≠ 0 && (0 : BitVec 5).toNat ≤ n && n ≤ (31 : BitVec 5).toNat)).map Reg.s } :=
  ⟨ready_of rfl rfl (by decide +kernel), ready_of rfl rfl (by decide +kernel), ready_of rfl rfl (by decide +kernel)⟩

/-! ### Bundles -/

/-- A group whose bundle has a word of each kind. -/
def fullBundle : Bundle := ⟨0x10100, false, some 1, some {}, some (false, 0, 0), some ⟨2, false, false, false, 1⟩⟩
def gb : Group := { gv with pc := 0x10110, bundle := some fullBundle }

def slotsB (i : Instr) (s : State) (g : Group) : Bool :=
  match encode i with
  | some w => s.slotFree 2 g w
  | none => false

/-- For `BundleWords`: the first word of each kind, and a second. -/
theorem witness_bundle :
    (∀ i ∈ [Instr.rpt 0 true false true 3, .wide 0xFFFFFF, .mod (.at .system) .byKind .dflt true, .sched true 3 0xFFFF],
      slotsB i sv gv = true ∧ slotsB i (ts gb core0) gb = true) ∧
    Issuer sv 2 gv ∧ (sv.core 0).quiet ∧ Issuer (ts gb core0) 2 gb ∧ ((ts gb core0).core 0).quiet ∧ Handled (ts gb core0) gb ∧
    gv.bundle = none ∧ gb.bundle = some fullBundle :=
  ⟨all_and (by decide +kernel) (by decide +kernel), ⟨rfl, rfl⟩, ⟨rfl, rfl⟩, ⟨rfl, rfl⟩, ⟨rfl, rfl⟩, ⟨grid0, rfl, rfl, rfl⟩, rfl, rfl⟩

/-! ### Traps -/

/-- The same machine where TRAPEN is 0, and with a handler. -/
def svOff : State := { sv with grids := [(0, { grid0 with launch := { launch0 with trapen := false } })] }
def gh : Group := { gv with id := { gv.id with hndl := true } }

theorem only (g : Group) (c : Core) : Only (ts g c) 2 g := ⟨[], [], rfl, by simp, by simp⟩

/-- For `SoftwareTrap`. -/
theorem witness_trap :
    Ready (.trap 0x7FF) sv 2 gv {} ∧ Handled sv gv ∧
    (Ready (.trap 0) svOff 2 gv {} ∧ (svOff.grid 0).map (fun g => (g.ended, g.launch.trapen)) = some (none, false) ∧ Only svOff 2 gv) ∧
    (Ready (.trap 0) (ts gh core0) 2 gh {} ∧ gh.id.hndl = true ∧ Only (ts gh core0) 2 gh) :=
  ⟨ready_of rfl rfl (by decide +kernel), handled, ⟨ready_of rfl rfl (by decide +kernel), rfl, [], [], rfl, by simp, by simp⟩,
   ⟨ready_of rfl rfl (by decide +kernel), rfl, only gh core0⟩⟩

/-! ### Hives and system registers -/

/-- For `HiveResults`. -/
theorem witness_hive :
    Ready (.hrd 5 15) sv 2 gv (needS gv [] (some (sr 5)) false false) ∧
    Ready (.hrd 0 0) sv 2 gv (needS gv [] (some (sr 0)) false false) ∧
    Ready (.hwr 1 true 15) sv 2 gv { needS gv [(sr 1, true)] none false false with closes := true } ∧
    Ready (.hadd 5 1 false 0) sv 2 gv { needS gv [(sr 1, false)] (some (sr 5)) false false with closes := true } ∧
    sv.team gv.id.team = some team1 :=
  ⟨ready_of rfl rfl (by decide +kernel), ready_of rfl rfl (by decide +kernel), ready_of rfl rfl (by decide +kernel), ready_of rfl rfl (by decide +kernel), rfl⟩

/-- For `SystemRegisterReads`: every register of its table, and s0 as the destination. -/
theorem witness_srd :
    (∀ n ∈ sysValues.map (·.1), Ready (.srd 5 (BitVec.ofNat 11 n)) sv 2 gv (needS gv [] (some (sr 5)) false false)) ∧
    (∀ n ∈ sysValues.map (·.1), sv.stickyWait 2 gv n = none) ∧
    Ready (.srd 0 0) sv 2 gv (needS gv [] (some (sr 0)) false false) ∧
    Ready (.srdv 3) sv 2 gv { needV gv [] (vr 3) false false 0 with lane := some (gv.full &&& gv.alive) } :=
  ⟨all_ready rfl rfl (by decide +kernel), by decide +kernel, ready_of rfl rfl (by decide +kernel), ready_of rfl rfl (by decide +kernel)⟩

/-- Port 35 is selected, and about to take its spare lane. -/
def svFail : State := { sv with ports := [(35, { state := .failover })], sup := { sv.sup with portsel := 35 } }

/-- For `SystemRegisterWrites`: every register that it writes; writes of PORTSTAT that take no port out of its recovery, and one that does. -/
theorem witness_swr :
    (∀ n ∈ sysWrites.map (·.1) ++ supRegs,
      Ready (.swr 13 true (BitVec.ofNat 11 n)) sv 2 gv (needS gv [(sr 13, true)] none false false) ∧
      Ready (.swr 0 false (BitVec.ofNat 11 n)) sv 2 gv (needS gv [(sr 0, false)] none false false)) ∧
    (¬ PortDrops sv 1035 0 ∧ ¬ PortDrops svFail 1035 0x100 ∧ PortDrops svFail 1035 0) ∧
    (∀ n ∈ sysWrites.map (·.1), sv.stickyWait 2 gv n = none) ∧ sv.group 2 = some gv :=
  ⟨all_and (all_ready rfl rfl (by decide +kernel)) (all_ready rfl rfl (by decide +kernel)), by unfold PortDrops; decide +kernel, by decide +kernel, rfl⟩

end Sys2Proof.Machine.Test
end

