-- ==== Sys2Proof/Tests/Engines.lean ====
section
/-!
SUPPORT. Witnesses of the statements about the plane and the engines: windows, rectangles, scrolls, the linear view, copies, the
matrix engine.
-/

namespace Sys2Proof.Machine.Test

set_option Elab.async false
set_option maxRecDepth 8000

/-! ### The plane -/

/-- Core 0 where team 1 holds words (0, 0, 0) and (1, 0, 0), live, in a bank that is full. -/
def w0 : PWord := { val := 7, live := true, own := 1 }
def core1 : Core := { core0 with plane := [(0, w0), (128, { w0 with val := 9 })], pbank := [(0, .full)] }

/-- Handles: both words held; one that lies half outside them; the one word (0, 0, 0); 128 words; 768 words. -/
def handles : List Word := [0, 0x10000, 0x10001, 0, 0x031F0000, 0x3171F0000, 7]
def gp : Group := tg .vector handles
def sp : State := ts gp core1

/-- For `WindowResults`: offsets at both ends of their range, windows of 1, 9 and 64 words, with and without a last-use mark. -/
theorem witness_window :
    (∀ l ∈ [false, true],
      Ready (.pld 3 0b100 0b011 127 0 l) sp 2 gp (needV gp [] (vr 3) false false 0) ∧
      Ready (.pld 7 0 0 0 7 l) sp 2 gp (needV gp [] (vr 7) false false 7) ∧
      Ready (.pst 3 0 0 l) sp 2 gp { needL gp [(vr 3, l)] [] false 0 with closes := true }) ∧
    planeGate sp gp true (windowWords gp 0 [((0b100 : BitVec 3).toInt, (0b011 : BitVec 3).toInt)] 127) [] = .pass ∧
    planeGate sp gp true (windowWords gp 7 [((0 : BitVec 3).toInt, (0 : BitVec 3).toInt)] 0) [] = .pass ∧
    planeGate sp gp true [] ((windowWords gp 0 [(0, 0)] 0).map (·.2)) = .pass ∧
    (∀ f ∈ [Instr.pwinSumI32, Instr.pwinSumF32, Instr.pwinMaxI32, Instr.pwinMinI32, Instr.pwinMaxF32, Instr.pwinMinF32],
      Ready (f 3 2 0 0 false) sp 2 gp (needV gp [] (vr 3) false false 0) ∧
      Ready (f 3 0 0 7 true) sp 2 gp (needV gp [] (vr 3) false false 7) ∧
      Ready (f 3 7 0 7 false) sp 2 gp (needV gp [] (vr 3) false false 7)) ∧
    planeGate sp gp true (windowWords gp 0 (windowOffs ((2 : BitVec 3).toNat + 1)) 0) [] = .pass ∧
    planeGate sp gp true (windowWords gp 7 (windowOffs ((0 : BitVec 3).toNat + 1)) 0) [] = .pass ∧
    planeGate sp gp true (windowWords gp 7 (windowOffs ((7 : BitVec 3).toNat + 1)) 0) [] = .pass :=
  ⟨all_and (all_ready rfl rfl (by decide +kernel)) (all_and (all_ready rfl rfl (by decide +kernel)) fun l _ => by
      cases l <;> exact ready_of rfl rfl (by decide +kernel)),
   pass_of (by decide +kernel), pass_of (by decide +kernel), pass_of (by decide +kernel),
   all_and (all_ready rfl rfl (by decide +kernel)) (all_and (all_ready rfl rfl (by decide +kernel)) (all_ready rfl rfl (by decide +kernel))),
   pass_of (by decide +kernel), pass_of (by decide +kernel), pass_of (by decide +kernel)⟩

def rect12 : Rect := ⟨0, 0, 2, 1, 0, 1⟩
def rect23 : Rect := ⟨1, 0, 2, 1, 0, 1⟩

/-- For `RectangleResults`: a rectangle of held words, and one that lies half outside them. -/
theorem witness_rect :
    (∀ a ∈ [1, 2], Ready (.pzero a true true) sp 2 gp { needS gp [(sr a, true)] none false true with closes := true }) ∧
    (∀ a ∈ [1, 2], Ready (.pfill a 6 false true false) sp 2 gp { needS gp [(sr a, false), (sr 6, true)] none false false with closes := true }) ∧
    (∀ a ∈ [1, 2], Ready (.pdrop a) sp 2 gp { needS gp [(sr a, false)] none false false with closes := true }) ∧
    Ready (.pcopy 1 2 false false false) sp 2 gp { needS gp [(sr 1, false), (sr 2, false)] none false false with closes := true } ∧
    rectOf (gp.sreg 1) = some rect12 ∧ rectOf (gp.sreg 2) = some rect23 ∧
    planeGate sp gp false [] rect12.words = .pass ∧ planeGate sp gp false [] rect23.words = .pass ∧
    planeGate sp gp false (rect23.words.map (fun p => (0, p))) rect12.words = .pass ∧
    (sp.core 0).scrolled rect12.keys = false ∧ (sp.core 0).scrolled rect23.keys = false :=
  ⟨all_ready rfl rfl (by decide +kernel), all_ready rfl rfl (by decide +kernel), all_ready rfl rfl (by decide +kernel), ready_of rfl rfl (by decide +kernel), by decide +kernel,
   by decide +kernel, pass_of (by decide +kernel), pass_of (by decide +kernel), pass_of (by decide +kernel), by decide +kernel, by decide +kernel⟩

/-! ### Scrolls -/

/-- A group whose scroll was interrupted at depth 0. -/
def gr : Group := { gp with sys := { gp.sys with scrollpos := 0x80000000 } }

def oneScroll (e : Edge) : Scroll :=
  { group := 2, team := 1, handle := 0x10000, dist := 1, dir := .px, edge := e, fill := 5, z0 := 0, resume := false, pc := 0x10100, insn := 0 }

theorem get_mem {α : Type} {k : Nat} {v : α} : ∀ {t : Tab α}, Tab.get t k = some v → (k, v) ∈ t
  | (i, a) :: t, h => by
    unfold Tab.get at h
    split at h
    · rename_i e; cases h; exact e ▸ List.mem_cons_self
    · exact List.mem_cons_of_mem _ (get_mem h)

/-- No word of a core is being cleared. -/
theorem unclear {c : Core} (h : c.plane.all (fun e => !e.2.clr) = true) (t : Nat) (p : Pos) (w : PWord) (hw : c.word t p = some w) :
    w.clr = false := by
  unfold Core.word at hw
  split at hw
  · split at hw
    · rename_i v hv
      split at hw
      · cases hw; simpa using List.all_eq_true.mp h _ (get_mem hv)
      · cases hw
    · cases hw
  · cases hw

/-- For `ScrollResults`: distances 0 and 15, each edge, a resumed scroll, and a scroll at the head of its queue. -/
theorem witness_scroll :
    (∀ e ∈ [Edge.wrap, Edge.spill], Ready (.scroll 1 15 .mx e 0) sp 2 gp { needS gp [(sr 1, false)] none false false with closes := true }) ∧
    Ready (.scroll 1 0 .py .fill 6) sp 2 gp { needS gp [(sr 1, false), (sr 6, false)] none false false with closes := true } ∧
    scrollGate 1 false 2 gp sp = .pass ∧
    Ready (.scrollResume 1 1 .my .wrap 0) (ts gr core1) 2 gr { needS gr [(sr 1, false)] none false false with closes := true } ∧
    scrollGate 1 true 2 gr (ts gr core1) = .pass ∧
    (∀ e, (let s := ts gp { core1 with scrolls := [oneScroll e] }
      s.errs = [] ∧ (s.core 0).scrolls = oneScroll e :: [] ∧ rectOf (oneScroll e).handle = some rect12 ∧ rect12.z0 ≤ 0 ∧ 0 < rect12.z0 + rect12.dc ∧
      ∀ p w, rect12.Has p → (s.core 0).word 1 p = some w → w.clr = false)) :=
  ⟨all_ready rfl rfl (by decide +kernel), ready_of rfl rfl (by decide +kernel), pass_of (by decide +kernel), ready_of rfl rfl (by decide +kernel), pass_of (by decide +kernel),
   fun _ => ⟨rfl, rfl, show rectOf 0x10000 = some rect12 by decide +kernel, by decide +kernel, by decide +kernel, fun p w _ h =>
    unclear (show core1.plane.all (fun e => !e.2.clr) = true by decide +kernel) 1 p w h⟩⟩

/-! ### The linear view -/

/-- For `LinearViewResults`: every width, an offset inside the view and one beyond it, one lane and all. -/
theorem witness_linear :
    (∀ f ∈ [Wid4.w8, .w16, .w32, .w64].map (fun w => fun j => Instr.lds true w 3 1 j 0 true),
      Ready (f 1) sp 2 gp (needV gp [(sr 1, false)] (vr 3) false false 0) ∧ Ready (f 31) sp 2 gp (needV gp [(sr 1, false)] (vr 3) false false 0)) ∧
    Ready (.lds false .w64 3 1 1 0 false) sp 2 gp (needV gp [(sr 1, false), (vr 1, false)] (vr 3) false false 0) ∧
    linGate true .w8 1 1 0 false 2 gp sp = .pass ∧ linGate true .w64 1 31 0 false 2 gp sp = .pass ∧ linGate false .w64 1 1 0 false 2 gp sp = .pass ∧
    (∀ w ∈ [Wid4.w8, .w16, .w32, .w64],
      Ready (.sts true w 3 1 1 7 true) sp 2 gp { needL gp [(sr 1, false), (vr 3, true)] [] false 7 with closes := true } ∧
      Ready (.sts false w 3 1 1 0 false) sp 2 gp { needL gp [(sr 1, false), (vr 1, false), (vr 3, false)] [] false 0 with closes := true }) ∧
    (∀ w ∈ [Wid4.w8, .w16, .w32, .w64], linGate true w 1 1 7 true 2 gp sp = .pass) ∧ linGate false .w8 1 1 0 true 2 gp sp = .pass ∧
    offset true 8 1 0 < 8 * (rect12.w * rect12.h * rect12.dc) :=
  ⟨all_and (all_ready rfl rfl (by decide +kernel)) (all_ready rfl rfl (by decide +kernel)), ready_of rfl rfl (by decide +kernel), pass_of (by decide +kernel),
    pass_of (by decide +kernel), pass_of (by decide +kernel), all_and (all_ready rfl rfl (by decide +kernel)) (all_ready rfl rfl (by decide +kernel)),
    fun w hw => pass_of ((show ∀ w ∈ [Wid4.w8, .w16, .w32, .w64], passes (linGate true w 1 1 7 true 2 gp sp) = true by decide +kernel) w hw),
    pass_of (by decide +kernel), by decide +kernel⟩

/-- The delivery of an element of a linear-view load. -/
theorem witness_delivery :
    let a : Access := {
      op := .plane, ord := 1, dest := some (.v 3), bits := 32, sext := true, scope := none, acq := false, rel := false, vol := false
      parts := [{ lane := 0, off := 0, va := 0, pa := 0, n := 4, kind := .rc, val := 0x80000000 }], pc := 0x10100, insn := 0 }
    let g : Group := { gp with accs := [a], ord := 2 }
    (ts g core1).group 2 = some g ∧ g.accs[0]? = some a ∧ CanTake (ts g core1) 2 g 0 (.v 3) :=
  ⟨rfl, rfl, by decide +kernel, by decide +kernel, rfl, by simp [dropAt], by simp [gp, tg]⟩

/-! ### Copies -/

/-- A group of the copy role whose scalars hold handles. -/
def gc : Group := tg .copy handles

def cmd (near : Bool) (fn : Nat) (c : Word) : Cmd :=
  { group := 2, team := 1, near := near, fn := fn, tag := 63, cw := none, a := 0x10000, b := 0x10000, c := c, skew := false, sys := false
    pc := 0x10100, insn := 0 }

def sc (xs : List Cmd) : State := ts gc { core1 with copies := xs }

/-- For `CopyCommands`: an empty engine and one with fifteen commands, tags 0 and 63, with and without a completion word. -/
theorem witness_copy :
    let full := sc (List.replicate 15 (cmd false 2 0))
    (∀ f ∈ [Instr.cpyGp, Instr.cpyPg, Instr.cpyPp, Instr.cpyGg, Instr.nmv, Instr.nmrd, Instr.nmwr, Instr.nmwrm],
      Ready (f 0 63 0) full 2 gc
        { needS gc [(.s 0, false), (.s 1, false), (.s 2, false)] none false false with closes := true } ∧
      Ready (f 29 0 7) (sc []) 2 gc
        { needS gc [(.s 29, false), (.s 30, false), (.s 31, false), (sr 7, false)] none false false with closes := true }) ∧
    Settled full 2 gc ∧ (full.core 0).copies.length < 16 ∧ ((full.core 0).copies.filter (fun x => x.pa.isSome)).length < 8 ∧
    full.team 1 = some team1 ∧ team1.tagHeld.getLsbD 63 = true ∧ team1.tagHeld.getLsbD 0 = true :=
  ⟨all_and (all_ready rfl rfl (by decide +kernel)) (all_ready rfl rfl (by decide +kernel)), settled_of (by decide +kernel), by decide +kernel, by decide +kernel, rfl, by decide +kernel, by decide +kernel⟩

def team0 : Team := { team1 with tagHeld := 0, accHeld := 0, ringHeld := 0 }

theorem witness_tag_not_held :
    let s := { sc [] with teams := [(1, team0)] }
    (∀ i ∈ commandWords, Ready (i 1 63 0) s 2 gc { needS gc [(.s 1, false), (.s 2, false), (.s 3, false)] none false false with closes := true }) ∧
    (s.core 0).copies.length < 16 ∧ ((s.core 0).copies.filter (fun x => x.pa.isSome)).length < 8 ∧ s.team 1 = some team0 ∧
    team0.tagHeld.getLsbD 63 = false ∧ Handled s gc :=
  ⟨all_ready rfl rfl (by decide +kernel), by decide +kernel, by decide +kernel, rfl, by decide +kernel, grid0, rfl, rfl, rfl⟩

/-- For `TagWaits`: tags 0 and 63 ready, of tags 0 to 2, and none ready of tag 5. -/
theorem witness_tags :
    let y := { team1 with tagReady := 0x8000000000000001 }
    let g := tg .vector [0, 0x8000000000000001, 0x20]
    let s := { ts g core0 with teams := [(1, y)] }
    (∀ f ∈ [Instr.waitAny, Instr.waitAll, Instr.tagfind],
      Ready (f 5 1) s 2 g (needS g [(sr 1, false)] (some (sr 5)) false false) ∧
      Ready (f 0 2) s 2 g (needS g [(sr 2, false)] (some (sr 0)) false false)) ∧
    Ready (.tagclr 1) s 2 g (needS g [(sr 1, false)] none false false) ∧ s.team 1 = some y ∧
    (g.sreg 1 &&& (y.tagReady &&& y.tagHeld) ≠ 0 ∧ g.sreg 1 &&& (y.tagReady &&& y.tagHeld) = g.sreg 1) ∧
    (g.sreg 2 &&& (y.tagReady &&& y.tagHeld) = 0 ∧ g.sreg 2 &&& (y.tagReady &&& y.tagHeld) ≠ g.sreg 2) :=
  ⟨all_and (all_ready rfl rfl (by decide +kernel)) (all_ready rfl rfl (by decide +kernel)), ready_of rfl rfl (by decide +kernel), rfl, by decide +kernel, by decide +kernel⟩

/-- For `CopyCompletions`: the start of a plane copy behind three running commands; the read of its second word. -/
theorem witness_copy_start :
    let x := { cmd false 2 1 with a := 0, b := 0 }
    let r : Cmd := { cmd false 2 2 with a := 1, b := 1, running := true }
    let s := sc [r, r, r, x]
    let y := { cmd false 2 0 with running := true, buf := [some 7, none] }
    ((s.core 0).copies[3]? = some x ∧ s.group x.group = some gc ∧ x.running = false ∧
      (∀ y ∈ (s.core 0).copies.take 3, y.running = true ∧ x.follows y = false) ∧
      ((s.core 0).copies.filter (fun y => y.running)).length < 4) ∧
    ((sc [y]).errs = [] ∧ ((sc [y]).core 0).copies[0]? = some y ∧ (sc [y]).group y.group = some gc ∧ rectOf y.a = some rect12 ∧
      rect12.words[1]? = some ⟨1, 0, 0⟩ ∧ y.buf.length = rect12.size ∧ y.buf[1]? = some none ∧
      Cmd.notYet (sc [y]) 0 0 gc y false false (.word 0 (some ⟨1, 0, 0⟩) 0 64) = false) :=
  ⟨⟨rfl, rfl, rfl, by decide +kernel, by decide +kernel⟩, rfl, rfl, rfl, by decide +kernel, by decide +kernel, by decide +kernel, rfl, by decide +kernel⟩

/-- The write of the second word of a plane copy into a word that the team holds; and its end, as that of a raw packet. -/
theorem witness_copy_end :
    let x := { cmd false 2 0 with running := true, buf := [some 7, some 9], wrote := [(0, true)] }
    let y := { x with wrote := [(0, true), (1, true)] }
    let z := { cmd true 1 0 with running := true, pa := some 0x20000, buf := List.replicate 4 (some 0), wrote := [(0, true), (1, true), (2, true), (3, true)] }
    ((sc [x]).errs = [] ∧ ((sc [x]).core 0).copies[0]? = some x ∧ x.over (sc [x]) 0 = false ∧ rectOf x.b = some rect12 ∧
      rect12.words[1]? = some ⟨1, 0, 0⟩ ∧ x.buf[1]? = some (some 9) ∧ (∀ e ∈ x.wrote, e.1 ≠ 1) ∧
      Cmd.notYet (sc [x]) 0 0 gc x true true (.word (x.peerCore 0) (some ⟨1, 0, 0⟩) 0 64) = false ∧
      Tab.get ((sc [x]).core (x.peerCore 0)).plane (⟨1, 0, 0⟩ : Pos).key = some { w0 with val := 9 } ∧ (sc [x]).team 1 = some team1) ∧
    (((sc [y]).core 0).copies[0]? = some y ∧ y.over (sc [y]) 0 = true ∧ y.raw = false ∧ y.early = none ∧ y.status = 0 ∧ y.short = false ∧ y.cw = none) ∧
    (((sc [z]).core 0).copies[0]? = some z ∧ z.over (sc [z]) 0 = true ∧ z.raw = true) :=
  ⟨⟨rfl, rfl, by decide +kernel, by decide +kernel, by decide +kernel, rfl, by decide +kernel, by decide +kernel, by decide +kernel, rfl⟩,
   ⟨rfl, by decide +kernel, rfl, rfl, rfl, rfl, rfl⟩, rfl, by decide +kernel, rfl⟩

/-- A command that fails, with a completion word and without. -/
theorem witness_copy_fail :
    let x := { cmd false 2 0 with running := true, early := some 4, cw := some 0x20000 }
    let y := { cmd false 2 0 with running := true, early := some 1 }
    (((sc [x]).core 0).copies[0]? = some x ∧ x.raw = false ∧ x.short = false ∧ x.lost = false ∧
      xlat (sc [x]) 0 gc.id.asid 0x20000 .write (!gc.id.supv) = .ok ⟨0x20000, .rc, 0⟩ ∧ storePoison (sc [x]) 0x20000 8 = none ∧
      (sc [x]).refusedAt 0x20000 0x20000 = false ∧ x.held (sc [x]) 0 gc = false ∧ ((sc [x]).core 0).view.wait = [] ∧
      (sc [x]).lentTo 0 0x20000 8 = false) ∧
    ((sc [y]).core 0).copies[0]? = some y ∧ y.cw = none ∧ y.raw = false :=
  ⟨⟨rfl, rfl, rfl, rfl, rfl, by decide +kernel, by decide +kernel, by decide +kernel, rfl, rfl⟩, rfl, rfl, rfl⟩

/-- Raw packets that read 32 bytes, that write them, and that write the bytes of a mask. -/
theorem witness_packet :
    let p := { cmd true 1 0 with running := true, pa := some 0x20000, buf := List.replicate 4 none }
    let x := { cmd true 2 0 with running := true, pa := some 0x20000, buf := (List.range 4).map (fun i => some i) }
    let y := { cmd true 3 0x81 with running := true, pa := some 0x20000 }
    ((sc [p]).core 0).copies[0]? = some p ∧ ((sc [x]).core 0).copies[0]? = some x ∧ ((sc [y]).core 0).copies[0]? = some y ∧
    targetOf 0x20000 = .heap 0 ∧ ((sc [x]).die 0).uncoreReset = false ∧ (sc [x]).poison = [] ∧ y.c.getLsbD 7 = true ∧ y.buf = [] ∧
    x.early = none ∧ x.status = 0 ∧ x.wrote = [] ∧ x.so = false ∧
    (let z := { x with so := true }
     ((sc [z]).core 0).copies[0]? = some z ∧ ∀ write, Cmd.strongWait (sc [z]) 0 0 z write = false) :=
  ⟨rfl, rfl, rfl, by decide +kernel, rfl, rfl, by decide +kernel, rfl, rfl, rfl, rfl, rfl, rfl, by decide +kernel⟩

/-! ### The matrix engine -/

/-- A group of the matrix role: maps of 128 and of 4608 words, and formats I8. -/
def gm : Group := tg .matrix [0, 0x031F0000, 0x031F0000, 0, 0x500171F0000, 0x500171F0000, 0]
def sm (xs : List MEnt) : State := ts gm { core1 with mq := xs }

/-- An entry of the matrix queue on slot 11. -/
def ment (k : MKind) : MEnt := { kind := k, group := 2, team := 1, slot := 11, slots := 1, rows := 3 }

theorem slots_held (xs : List MEnt) (slot n : Nat) (hx : xs.length < 8) (hn : slot + n ≤ 12) : SlotsHeld (sm xs) gm slot n := by
  refine ⟨hx, team1, rfl, fun i hi => ?_⟩
  have h : ∀ m : Fin 12, team1.accHeld.getLsbD m.val = true := by decide +kernel
  exact h ⟨slot + i, by omega⟩

def seven : List MEnt := List.replicate 7 (ment .accz)

/-- For `MatrixQueueing`: the smallest tile and the largest, an empty queue and one with seven entries, slots 0 and 11. -/
theorem witness_matrix :
    Ready (.mma 1 11 .m32 1 0 false true) (sm seven) 2 gm
      { needS gm [(.s 1, false), (.s 2, false), (.s 3, false)] none false false with lane := some (tileMask gm 0 32), closes := true } ∧
    mmaFault (gm.sreg 1) (gm.sreg 2) (gm.sreg 3) 32 (tileCols 1) = none ∧
    tableGate (flag (gm.sreg 1) 49 || flag (gm.sreg 2) 49) 2 gm (sm seven) = .pass ∧
    Ready (.mma 4 0 .m128 0 7 true false) (sm []) 2 gm
      { needS gm [(.s 4, false), (.s 5, false), (.s 6, false)] none false false with lane := some (tileMask gm 7 128), closes := true } ∧
    mmaFault (gm.sreg 4) (gm.sreg 5) (gm.sreg 6) 128 (tileCols 0) = none ∧ tileCols 0 = 1024 ∧
    Ready (.accz 0 11 0) (sm []) 2 gm { needS gm [] none false false with lane := some (tileMask gm 0 128), closes := true } ∧
    (∀ f ∈ [Instr.accld, Instr.accrd], ∀ v ∈ [0, 4],
      Ready (f 1 11 0 v .rs 0) (sm seven) 2 gm { needS gm [(sr 1, false)] none false false with lane := some (tileMask gm 0 128), closes := true }) ∧
    (rectOf (gm.sreg 1)).isSome = true ∧ SlotsHeld (sm seven) gm 11 1 ∧ SlotsHeld (sm []) gm 0 12 ∧
    Ready .mfence (sm seven) 2 gm {} ∧ Ready (.mwait 11) (sm seven) 2 gm {} ∧ team1.accHeld.getLsbD 11 = true ∧
    ((sm []).core 0).mq = [] ∧ ment .accz ∈ ((sm seven).core 0).mq ∧ Ready (.mwait 12) (sm []) 2 gm {} ∧ team1.accHeld.getLsbD 12 = false ∧
    Handled (sm []) gm := by
  refine ⟨ready_of rfl rfl (by decide +kernel), by decide +kernel, pass_of (by decide +kernel), ready_of rfl rfl (by decide +kernel), by decide +kernel, by decide +kernel, ready_of rfl rfl (by decide +kernel),
    fun f hf v hv => ?_, by decide +kernel, slots_held _ _ _ (by decide +kernel) (by decide +kernel), slots_held _ _ _ (by decide +kernel) (by decide +kernel),
    ready_of rfl rfl (by decide +kernel), ready_of rfl rfl (by decide +kernel), by decide +kernel, rfl, by decide +kernel, ready_of rfl rfl (by decide +kernel), by decide +kernel, grid0, rfl, rfl, rfl⟩
  simp only [List.mem_cons, List.not_mem_nil, or_false] at hv
  obtain rfl | rfl := hv
  · revert f; exact all_ready rfl rfl (by decide +kernel)
  · revert f; exact all_ready rfl rfl (by decide +kernel)

/-- A core whose team holds no plane words, and the entries of its matrix queue. -/
def sn (xs : List MEnt) : State := ts gm { core0 with mq := xs }

/-- Operand words that nobody holds read as zero. -/
theorem none_held (xs : List MEnt) (e : MEnt) (r : Rect) (h : e.read = []) : operandWords (sn xs) 0 e r = (List.range r.size).map (fun _ => some 0) := by
  unfold operandWords
  rw [h]
  refine List.map_congr_left fun n _ => ?_
  have hw : ∀ p, ((sn xs).core 0).word e.team p = none := fun p => by
    simp [Core.word, sn, ts, State.core, Tab.getD, Tab.get, core0]
  simp [Tab.get, operandWord, hw]

/-- For `MatrixResults`: a word of a map that the engine has read, and one of the plane. -/
theorem witness_operand :
    let e := ment .mma
    (sm [e]).errs = [] ∧ ((sm [e]).die 0).rebuilds = [] ∧ 0 < rect12.size ∧ rect12.linear e.skew ((sm [e]).linKey e.team) 0 = ⟨0, 0, 0⟩ ∧
    ((sm [e]).core 0).word e.team ⟨0, 0, 0⟩ = some w0 ∧ Tab.get e.read 0 = none ∧ ((sm [e]).core 0).word e.team ⟨5, 0, 0⟩ = none ∧
    Tab.get { e with read := [(0, some 4)] }.read (⟨0, 0, 0⟩ : Pos).key = some (some 4) :=
  ⟨rfl, rfl, by decide +kernel, by decide +kernel, by decide +kernel, rfl, by decide +kernel, by decide +kernel⟩

/-- A tile of two rows and two columns of I8, and one of BF16. -/
def tile (f : Word) : MEnt :=
  { ment .mma with c := f, m := 2, n := 2, a := 0x031F0000, b := 0x031F0000, acc := true, begun := true }

/-- A tile that completes. -/
theorem witness_mma :
    (∀ f, ((sn [tile f]).core 0).mq[0]? = some (tile f) ∧
      (∀ o ∈ ((tile f).gather (sn [tile f]) 0).ops ++ ((tile f).gather (sn [tile f]) 0).opsB, o.isSome = true)) ∧
    (sn [tile 0]).team 1 = some team1 ∧ fmtOf 0 true ≤ 1 ∧ ¬ fmtOf 0x99 true ≤ 1 ∧ (tile 0).rows.getLsbD 1 = true ∧
    ((opInts ((tile 0).gather (sn [tile 0]) 0) true 2 32 1).isSome = true ∧ (opInts ((tile 0).gather (sn [tile 0]) 0) false 2 32 1).isSome = true) ∧
    ((opRow ((tile 0x99).gather (sn [tile 0x99]) 0) true 2 16 1).isSome = true ∧ (opRow ((tile 0x99).gather (sn [tile 0x99]) 0) false 2 16 1).isSome = true) := by
  refine ⟨fun f => ⟨rfl, ?_⟩, rfl, by decide +kernel, by decide +kernel, by decide +kernel, ⟨by decide +kernel, by decide +kernel⟩, by decide +kernel, by decide +kernel⟩
  have hm : mapRect 0x031F0000 = some ⟨0, 0, 32, 4, 0, 1⟩ := by decide +kernel
  intro o ho
  simp only [MEnt.gather, tile, ment, hm] at ho
  rw [none_held _ _ _ rfl, List.mem_append, or_self, List.mem_map] at ho
  obtain ⟨_, -, rfl⟩ := ho
  rfl

/-- An `accld` of 8192 words into slot 11, of which nobody holds one. -/
def loaded : MEnt := { ment .accld with begun := true, a := 0xF000F1F0000 }

/-- An `accrd` of two words. -/
def stored (w : Nat) : MEnt := { ment .accrd with begun := true, a := 0x10000, wrote := w }

/-- Entries of the other kinds that complete, write a word, and begin. -/
theorem witness_acc :
    let z := { ment .accz with begun := true }
    (((sm [z]).core 0).mq[0]? = some z ∧ (sm [z]).team 1 = some team1) ∧
    (((sn [loaded]).core 0).mq[0]? = some loaded ∧ (loaded.gather (sn [loaded]) 0).ops = (List.range 8192).map (fun _ => some 0)) ∧
    (((sm [stored 2]).core 0).mq[0]? = some (stored 2) ∧ (stored 2).writes 0 = true ∧ (stored 2).wrote.testBit 0 = false ∧
      ((sm [stored 2]).die 0).rebuilds = [] ∧
      ((sm [stored 2]).core 0).word 1 ((stored 2).rect.linear (stored 2).skew ((sm [stored 2]).linKey 1) 0) = some w0) ∧
    (((sm [stored 3]).core 0).mq[0]? = some (stored 3) ∧ (stored 3).written = true ∧ (sm [stored 3]).group 2 = some gm) ∧
    (((sm [ment .mfence]).core 0).mq[0]? = some (ment .mfence) ∧ (sm [ment .mfence]).mayBegin 0 0 (ment .mfence) = true) ∧
    (∀ k ∈ [MKind.accz, .accld, .accrd], (sm [ment k]).mayBegin 0 0 (ment k) = true ∧ ((sm [ment k]).core 0).nextM = 0) ∧
    Tab.get ((sm []).core 0).plane 128 = some { w0 with val := 9 } :=
  ⟨⟨rfl, rfl⟩, ⟨rfl, by
      have hr : loaded.rect = ⟨0, 0, 32, 16, 0, 16⟩ := by decide +kernel
      simp only [MEnt.gather, show loaded.kind = .accld from rfl, hr]
      exact none_held _ _ _ rfl⟩,
   ⟨rfl, by decide +kernel, by decide +kernel, rfl, by decide +kernel⟩, ⟨rfl, by decide +kernel, rfl⟩, ⟨rfl, by decide +kernel⟩, by decide +kernel, rfl⟩

end Sys2Proof.Machine.Test
end

