-- ==== Sys2Proof/Tests/Events.lean ====
section
/-!
SUPPORT. Witnesses of the statements about the scheduler, handlers, supervisors, pre-emption, traps and their events.
-/

namespace Sys2Proof.Machine.Test

set_option Elab.async false
set_option maxRecDepth 8000

/-! ### The scheduler -/

/-- Groups beside the issuing one, in one team. -/
def mate (n : Nat) (st : GState) : Group :=
  { gv with id := { gv.id with num := n, slot := n, base := 0x100000 + 0x20000 * n }, gstate := st }

def sPair (y : Group) : State := { sv with groups := [(2, gv), (3, y)], nextId := 4 }

/-- A core whose 64 table entries are taken, by groups that wait, and a dormant group; memory holds the context of the first. -/
def entryN (n : Nat) : Group := { mate n .pending with blocked := some (.tagAny 1), sched := { tab := some n } }
def header2 : List Host.Cell :=
  [(0x100000, 2), (0x100008, 255), (0x100009, 255), (0x10000A, 255), (0x10000B, 255), (0x10000C, 255), (0x10000D, 255), (0x10000E, 255),
   (0x10000F, 255), (0x100800, 1), (0x100860, 1), (0x1008C0, 1), (0x100920, 1), (0x100980, 1), (0x1009E0, 1), (0x100A40, 1), (0x101101, 1),
   (0x101102, 1), (0x101148, 1), (0x101150, 1), (0x101163, 64)]
def sFull : State := { sv with
  mem := header2, groups := (List.range 64).map (fun n => (n + 2, entryN n)) ++ [(66, mate 64 .dormant)], nextId := 67
  cores := [(0, { core0 with rows := [], sents := [] })] }

/-- What a context read gives: values, a refusal, or a page that cannot be read. -/
def readKind : Except (Nat × Bool) (Option State) → Nat
  | .ok (some _) => 0
  | .ok none => 1
  | .error _ => 2

/-- A dormant group whose context memory holds, one whose context memory does not, and one whose context has no page. -/
def sRead (y : Group) : State := { sPair y with mem := header2 }
def strange : Group := let g := mate 1 .dormant; { g with id := { g.id with base := 0x80000000 } }

/-- For `SchedulerResults`: activations. -/
theorem witness_activation : ∀ x ∈ [(mate 0 .dormant, (0 : Nat)), (mate 1 .dormant, 1), (strange, 2)],
    (sRead x.1).freeTab 0 = some 0 ∧ (sRead x.1).nextDormant 0 = some (3, x.1) ∧ (sRead x.1).group 3 = some x.1 ∧
      x.1.log.valid = false ∧ readKind (readContext (sRead x.1) 3 x.1) = x.2 := by
  decide +kernel

theorem witness_demotion : sFull.freeTab 0 = none ∧ sFull.nextDormant 0 ≠ none ∧ sFull.nextDemoted 0 = some (2, entryN 0) ∧
    sFull.group 2 = some (entryN 0) := by decide +kernel

theorem witness_demotion_saves : (writeBack ((closeRegion sFull 2).modGroup 2 Group.toBoundary) 2 (gstateCode .dormant)).2 = true := by
  decide +kernel

/-- A pending group that swaps have passed over 32 times, with a free position, and one that takes that of a stalled group. -/
def late : Group := let g := mate 1 .pending; { g with sched := { g.sched with passed := 32, prio := .low } }
def stalled7 : Group := { mate 2 .active with blocked := some (.tagAny 1) }
def sStalled : State := { sv with
  groups := [(2, gv), (3, mate 1 .pending), (4, stalled7)], cores := [(0, { core0 with active := List.replicate 7 (some 2) ++ [some 4] })] }

theorem witness_swap :
    ((sPair late).nextPending 0 = some (3, late) ∧ (sPair late).swapPlace 0 = some (1, none)) ∧
    (sStalled.nextPending 0 = some (3, mate 1 .pending) ∧ sStalled.swapPlace 0 = some (7, some 4) ∧ sStalled.group 4 = some stalled7) := by
  decide +kernel

/-- A fill of s31, a special-function result for v31, and banks that wake and rest. -/
theorem witness_fill :
    (let g := { gv with blocked := some (.fill [.s 30, .s 31] []) }
     let s := ts g { core0 with sents := core0.sents.dropLast }
     s.group 2 = some g ∧ s.writeHeld 2 0 1 (.s 31) = false ∧ [Reg.s 30, .s 31].find? (fun r => !(s.core 0).cached 2 1 r) = some (.s 31) ∧ (s.core 0).room 2 1 false (.s 31) = true ∧
       ∃ v, ctxLoad s g (g.id.base + scalarOff 31) = .ok v) ∧
    (let e : SfuEnt := { group := 2, dest := some 7, vals := [5], mask := 1, flags := 1, ord := 0 }
     let s := ts gv { core0 with sfu := [e] }
     (s.core 0).sfu[0]? = some e ∧ s.group 2 = some gv ∧ (s.core 0).cached 2 1 (.v 7) = true ∧ s.writeHeld 2 0 1 (.v 7) (bit e.mask) = false) ∧
    (((ts gv { core0 with lbank := [(0, .waking)] }).core 0).lstate 0 = .waking ∧
      ((ts gv { core0 with lbank := [(0, .rousing)] }).core 0).lstate 0 = .rousing ∧
      ((ts gv { core0 with pbank := [(31, .waking)] }).core 0).pstate 31 = .waking) ∧
    ((ts gv { core0 with pbank := [(31, .full)] }).mayRest 0 31 true = true ∧
      ({ ts { gv with gstate := .dormant } core0 with cur := none } : State).mayRest 0 0 false = true) :=
  ⟨⟨rfl, by decide +kernel, by decide +kernel, by decide +kernel, ok_of (by decide +kernel)⟩, ⟨rfl, rfl, by decide +kernel, by decide +kernel⟩, by decide +kernel, by decide +kernel⟩

/-! ### Handlers -/

/-- A handler, which serves group 3, whose scalars name its slot and elements of it: s31, s0, the last lane of v7, a dead register. -/
def gHand : Group :=
  let g := tg .vector [0, 0x120000, 0x10F8, 0x1000, 0x1400 + 0x600 * 7 + 8 * 191, 0x1008, 1]
  { g with id := { g.id with hndl := true, serves := some 3 } }
def served : Group := let g := mate 1 .handler; { g with regs := { g.regs with slive := 0xFFFFFFFD } }
def sHand : State := { ts gHand { core0 with
    rows := core0.rows ++ [(8, { group := 3, reg := 7, use := 0 })]
    sents := core0.sents ++ [(31, { group := 3, reg := 31, use := 0 })]
    lbank := [(0, .full), (1, .full)] } with groups := [(2, gHand), (3, served)], nextId := 4 }

theorem serves3 : Serves sHand 2 gHand 1 3 served := ⟨rfl, rfl, by decide +kernel, rfl, by decide +kernel⟩

/-- For `HandlerResults`. -/
theorem witness_ctxrd :
    (∀ b ∈ [2, 3, 4, 5], Ready (.ctxrd 5 1 b) sHand 2 gHand (needS gHand [(sr 1, false), (sr b, false)] (some (sr 5)) false false)) ∧
    (CtxElem 1 (.s 31) 0 (gHand.sreg 2).toNat ∧ CtxElem 1 (.s 0) 0 (gHand.sreg 3).toNat ∧ CtxElem 1 (.v 7) 191 (gHand.sreg 4).toNat ∧
      CtxElem 1 (.s 1) 0 (gHand.sreg 5).toNat) ∧
    (served.live (.s 31) = true ∧ served.live (.v 7) = true ∧ served.live (.s 1) = false) ∧
    ((sHand.core 0).cached 3 1 (.s 31) = true ∧ (sHand.core 0).cached 3 1 (.s 0) = true ∧ (sHand.core 0).cached 3 1 (.v 7) = true) ∧
    (∀ b ∈ [2, 4], Ready (.ctxwr 5 1 b) sHand 2 gHand (needS gHand [(sr 1, false), (sr b, false), (sr 5, false)] none false false)) ∧
    (∀ b ∈ [2, 3, 4, 5], sHand.ctxErrs 3 served (gHand.sreg b).toNat = []) ∧
    (sHand.writeHeld 3 0 1 (.s 31) (· == 0) = false ∧ sHand.writeHeld 3 0 1 (.v 7) (· == 191) = false) :=
  ⟨all_ready rfl rfl (by decide +kernel), by simp only [CtxElem]; decide, by decide +kernel, by decide +kernel, all_ready rfl rfl (by decide +kernel),
   by decide +kernel, by decide +kernel⟩

theorem witness_ctxrd_none :
    Ready (.ctxrd 5 1 2) sv 2 gv (needS gv [(sr 1, false), (sr 2, false)] (some (sr 5)) false false) ∧ gv.id.serves = none ∧
    sv.grid 0 = some grid0 ∧ grid0.ended = none := ⟨ready_of rfl rfl (by decide +kernel), rfl, rfl, rfl⟩

theorem witness_tret :
    (∀ b ∈ [0, 6], Ready (.tret 1 b) sHand 2 gHand (needS gHand [(sr 1, false), (sr b, false)] none false false)) ∧
    gHand.sreg 0 = 0 ∧ gHand.sreg 6 = 1 ∧ served.log.valid = false ∧
    Ready .idem sv 2 gv { closes := true } ∧ (sv.core 0).scrollOf 2 = false ∧ Ready .idemEnd sv 2 gv { closes := true } :=
  ⟨all_ready rfl rfl (by decide +kernel), rfl, by decide +kernel, rfl, ready_of rfl rfl (by decide +kernel), by decide +kernel, ready_of rfl rfl (by decide +kernel)⟩

/-! ### Supervisors -/

/-- A group whose scalars hold: the slot of group 3, a slot nobody has; and for `sret` a reserved bit, action 0, action 1, action 2; for
`asgen` an address space beyond 65535, actions 0 and 3, and a reserved bit. -/
def gSup : Group := tg .vector [0, 0x120000, 0x40000, 0x400, 0, 0x10000, 0x20000, 0x10000, 3, 4]
def sSup (y : Group) : State := { ts gSup core0 with groups := [(2, gSup), (3, y)], nextId := 4 }

def sretNeed (a b : BitVec 5) : Need := needS gSup [(sr a, false), (sr b, false)] (some (sr 7)) false false
/-- A group whose trap record or whose handler's access met a context fault. -/
def faulted (h : List Held) : Group := { mate 1 .ctxFault with before := .active, held := h, cfaddr := 0x120000 }

/-- For `SupervisorResults`: each status of `sret`, and an end of the grid. -/
theorem witness_sret :
    (∀ x ∈ [((1 : Nat), (3 : Nat)), (1, 6), (2, 4), (1, 5), (1, 4)],
      readyB (.sret 7 (BitVec.ofNat 5 x.1) (BitVec.ofNat 5 x.2)) (sSup (mate 1 .pending)) 2 gSup
        (sretNeed (BitVec.ofNat 5 x.1) (BitVec.ofNat 5 x.2)) = true) ∧
    (gSup.sreg 3 &&& 0xFFFF0000FFFCFC00 ≠ 0 ∧ 1 < bits (gSup.sreg 6) 17 16 ∧ bits (gSup.sreg 5) 17 16 = 1 ∧ bits (gSup.sreg 4) 17 16 = 0) ∧
    (∀ e ∈ (sSup (mate 1 .pending)).groups, ¬ (e.2.id.core = 0 ∧ e.2.id.base = 0x40000 ∧ e.2.id.asid = 0)) ∧
    (sSup (mate 1 .pending)).inSlot 0 0x120000 (fun y => y.id.asid == 0) = some (3, mate 1 .pending) ∧
    (∀ h ∈ [[], [Held.served]], readyB (.sret 7 1 4) (sSup (faulted h)) 2 gSup (sretNeed 1 4) = true ∧
      (sSup (faulted h)).inSlot 0 0x120000 (fun y => y.id.asid == 0) = some (3, faulted h)) ∧
    ctxLoad (sSup (faulted [.served])) (faulted [.served]) (faulted [.served]).cfaddr = .ok 0 ∧
    (sSup (faulted [.served])).ctxErrs 3 (faulted [.served]) ((faulted [.served]).cfaddr - (faulted [.served]).id.base) = [] ∧
    ((sSup (faulted [])).core 0).acqWaits = [] :=
  ⟨by decide +kernel, by decide +kernel, by decide +kernel, by decide +kernel, by decide +kernel, rfl, rfl, rfl⟩

/-- No store of the issuing group waits in a view. -/
theorem witness_unwaited : Unwaited (sSup (mate 1 .pending)) 2 ∧ Unwaited (sSup { mate 1 .suspended with inMem := true }) 2 :=
  ⟨unwaited_of (by decide +kernel), unwaited_of (by decide +kernel)⟩

def suspNeed (a : BitVec 5) : Need := { needS gSup [(sr a, false)] (some (sr 7)) false false with closes := true }

/-- Suspensions of a group, of the group itself, of nobody, of a group in its handler; resumptions of a suspended group and of nobody. -/
theorem witness_grpsusp :
    (∀ a ∈ [1, 2], Ready (.grpsusp 7 a) (sSup (mate 1 .pending)) 2 gSup (suspNeed a)) ∧
    ((sSup (mate 1 .pending)).suspTarget 2 gSup 1 = .ok (3, mate 1 .pending) ∧ (sSup (mate 1 .pending)).producing 3 (mate 1 .pending) = false) ∧
    ((sSup (mate 1 .pending)).suspTarget 2 gSup 2 = .error 1 ∧ ((sSup (mate 1 .pending)).core 0).gone = [] ∧
      ∀ e ∈ (sSup (mate 1 .pending)).groups, ¬ (e.2.id.core = 0 ∧ e.2.id.base = (gSup.sreg 2).toNat)) ∧
    (Ready (.grpsusp 7 1) (sSup (mate 1 .handler)) 2 gSup (suspNeed 1) ∧ (sSup (mate 1 .handler)).suspTarget 2 gSup 1 = .error 2) ∧
    (∀ a ∈ [1, 2], Ready (.grpres 7 a) (sSup { mate 1 .suspended with inMem := true }) 2 gSup (needS gSup [(sr a, false)] (some (sr 7)) false false)) ∧
    ((sSup { mate 1 .suspended with inMem := true }).inSlot 0 0x120000 (fun y => y.gstate == .suspended && y.inMem) =
      some (3, { mate 1 .suspended with inMem := true })) ∧
    (∀ e ∈ (sSup { mate 1 .suspended with inMem := true }).groups, ¬ (e.2.id.core = 0 ∧ e.2.id.base = (gSup.sreg 2).toNat ∧ e.2.gstate = .suspended)) :=
  ⟨all_ready rfl rfl (by decide +kernel), ⟨rfl, by decide +kernel⟩, ⟨rfl, rfl, by decide +kernel⟩, ⟨ready_of rfl rfl (by decide +kernel), rfl⟩, all_ready rfl rfl (by decide +kernel),
   by decide +kernel, by decide +kernel⟩

/-- A group whose parked access lies in page 0. -/
def gParked : Group := { mate 1 .pending with log := { valid := true, faddr := 0x1234, cause := 2 } }

theorem witness_asgen :
    (∀ x ∈ [((7 : Nat), (0 : Nat)), (0, 9), (0, 0), (0, 8)],
      let a := BitVec.ofNat 5 x.1
      let b := BitVec.ofNat 5 x.2
      readyB (.asgen 7 a b) (sSup gParked) 2 gSup { needS gSup [(sr a, false), (sr b, false)] (some (sr 7)) false false with closes := true } = true) ∧
    (bits (gSup.sreg 7) 63 16 ≠ 0 ∧ bits (gSup.sreg 9) 15 2 ≠ 0 ∧ gSup.sreg 0 = 0 ∧ bits (gSup.sreg 8) 1 0 = 3 ∧ bits (gSup.sreg 8) 15 2 = 0) ∧
    (raiseGen (sSup gParked) 0).olderOut 0 ((sSup gParked).gen 0 + 1) = false ∧ gSup.blocked = none ∧
    (sSup gParked).group 3 = some gParked ∧ gParked.log.failed = false ∧ gParked.log.faddr / 65536 = bits (gSup.sreg 8) 56 16 :=
  ⟨by decide +kernel, by decide +kernel, by decide +kernel, rfl, rfl, rfl, by decide +kernel⟩

/-! ### Pre-emption -/

/-- A group with an open region. -/
def gReg : Group := { gv with pc := 0x10108, region := some ⟨0x10104, gv.regs, gv.sys, 2, 0, 0⟩ }
def sTeam (g : Group) (st : TeamSt) : State := { ts g core0 with teams := [(1, { team1 with status := st })] }

/-- A pre-empt on its way to the team's core. -/
def sComing (g : Group) : State := { sTeam g .running with signals := [⟨0, 0, .preempt 1, 0⟩] }

/-- For `PreemptResults`: what a write of PREEMPT names, and the arrival of its packet, which flushes or saves. -/
theorem witness_preempt_packet : (∀ g ∈ [gReg, gv], bits (0 : Word) 1 0 = 0 ∧ (sComing g).signals[0]? = some ⟨0, 0, .preempt 1, 0⟩ ∧
      (sComing g).mayArrive 0 0 0 = true ∧ (sComing g).team 1 = some { team1 with status := .running }) ∧
    (sComing gReg).mayFlush 1 = true ∧ (sComing gv).mayFlush 1 = false ∧ Unwaited (sTeam gReg .running) 2 ∧
      (∀ e ∈ (sTeam gReg .running).groups, e.1 = 2 ∧ e.2.pend = []) ∧ (∀ e ∈ (sTeam gv .running).groups, e.2.pend = []) :=
  ⟨by decide +kernel, by decide +kernel, by decide +kernel, unwaited_of (by decide +kernel), by decide +kernel, by decide +kernel⟩

/-- For `PreemptResults`: a flush, a save, a name of nobody, restarts, a saved team that gives up its words, and its readmission. -/
theorem witness_preempt :
    ((sTeam gReg .running).teamNamed 0 = some 1 ∧ (sTeam gReg .running).mayFlush 1 = true ∧ (sTeam gReg .running).group 2 = some gReg) ∧
    ((sTeam gv .running).teamNamed 0 = some 1 ∧ (sTeam gv .running).mayFlush 1 = false) ∧ sv.teamNamed 0x10000 = none ∧
    ((sTeam gv .flushed).teamNamed 0 = some 1 ∧ (sTeam gv .saved).teamNamed 0 = some 1) ∧
    (let x := { team1 with status := .saving }
     let s := { sTeam gv .saving with groups := [] }
     s.team 1 = some x ∧ s.drained 1 x = true ∧ s.groupsOf 1 = [] ∧ (s.core 0).acqWaits = [] ∧ s.grid 0 = some grid0 ∧
       s.saveFault 0 (launch0.saveArea 0) launch0.saveBytes = none) ∧
    (let x := { team1 with status := .restarting, accHeld := 0, tagHeld := 0, ringHeld := 0 }
     let s := { sTeam gv .running with teams := [(1, x)] }
     s.team 1 = some x ∧ (s.homes 1 x).find? (s.takesBack 1 x) = some 0) := by
  decide +kernel

/-! ### Traps and events -/

/-- A group whose watchdog has just run out, and one with two pending causes. -/
def gDog : Group := { gv with sys := { gv.sys with wdlimit := 5, wdcount := 5 } }
def gPend : Group := { gv with pend := [⟨21, 0x10100, 0, 1, 0, none⟩, ⟨18, 0x10100, 0, 2, 0, none⟩] }

/-- For `PreemptResults`: a pre-empted team whose group has two causes due. -/
theorem witness_preempt_due :
    (sTeam gPend .running).teamNamed 0 = some 1 ∧ (sTeam gPend .running).groups = [(2, gPend)] ∧
    gPend.dueTrap = some ⟨18, 0x10100, 0, 2, 0, none⟩ ∧ gPend.alive ≠ 0 ∧ (sTeam gPend .running).atBoundary 2 gPend = true ∧
    Handled (sTeam gPend .running) gPend :=
  ⟨by decide +kernel, rfl, by decide +kernel, by decide +kernel, by decide +kernel, grid0, rfl, rfl, rfl⟩

/-- The word at 0x10100 is fetched. -/
theorem fetched : ∃ w s', fetch (ts gDog core0) 2 gDog = .word w s' := by
  have h : (match fetch (ts gDog core0) 2 gDog with | .word _ _ => true | _ => false) = true := by decide +kernel
  split at h
  · rename_i w s' e; exact ⟨w, s', e⟩
  · cases h

/-- For `TrapEvents`. -/
theorem witness_traps :
    ((ts gDog core0).group 2 = some gDog ∧ gDog.gstate = .active ∧ gDog.alive ≠ 0 ∧ gDog.sys.wdlimit ≠ 0 ∧
      gDog.sys.wdlimit.toNat ≤ gDog.sys.wdcount.toNat ∧ (ts gDog core0).atBoundary 2 gDog = true ∧ Handled (ts gDog core0) gDog) ∧
    ((ts gPend core0).group 2 = some gPend ∧ (ts gPend core0).atBoundary 2 gPend = true ∧ Handled (ts gPend core0) gPend ∧ (∃ e ∈ gPend.pend, gPend.ripe e = true) ∧
      ∀ e ∈ gPend.pend, e.code ≠ 26) :=
  ⟨⟨rfl, rfl, by decide +kernel, by decide +kernel, by decide +kernel, by decide +kernel, grid0, rfl, rfl, rfl⟩, rfl, by decide +kernel, ⟨grid0, rfl, rfl, rfl⟩, by decide +kernel, by decide +kernel⟩

theorem witness_handler_start :
    let x := { team1 with handlers := [3] }
    let s := { sPair (mate 1 .handler) with teams := [(1, x)] }
    s.team 1 = some x ∧ s.grid 0 = some grid0 ∧ s.group 3 = some (mate 1 .handler) ∧ s.freeSlots 0 grid0 ≠ [] := by decide +kernel

/-- Rings of 16 and of 4096 events, with room for one more. -/
theorem witness_event_post :
    ∀ l ∈ [4, 12], let q : Word := BitVec.ofNat 64 (0x200000 + l)
      4 ≤ bits q 4 0 ∧ bits q 4 0 ≤ 12 ∧ ahead 1 (2 ^ l) ≠ 2 ^ bits q 4 0 ∧ inHeap (bits q 51 12 * 4096 + 32 * (2 ^ l % 2 ^ bits q 4 0)) 32 = true ∧
      storePoison { sv with sup := { sv.sup with sysevq := q } } (bits q 51 12 * 4096 + 32 * (2 ^ l % 2 ^ bits q 4 0)) 32 = none := by
  decide +kernel

/-- A group that has exited. -/
def gDone : Group := { gv with alive := 0 }

/-- The last group of the last team retires. -/
theorem witness_retire :
    (ts gDone core0).groups = [(2, gDone)] ∧ (ts gDone core0).mayRetire 2 gDone = true ∧ gDone.id.serves = none ∧
    (ts gDone core0).teams = [(1, team1)] ∧ launch0.ordinary ≤ team1.begun ∧ launch0.resident = false ∧ ((ts gDone core0).core 0).acqPast 0 = false :=
  ⟨rfl, by decide +kernel, rfl, rfl, by decide +kernel, rfl, by decide +kernel⟩

/-- Whether such a group whose context lies at `b` may retire, and whether that context is given up, where memory holds already what
that writes. -/
def retires (b : Nat) : Bool × Bool :=
  let g := { gDone with id := { gv.id with base := b } }
  let s := { ts g core0 with mem := (0x100000, 2) :: (0x100008, 1) :: header2.drop 9 }
  (s.mayRetire 2 g, (spendContext (closeRegion s 2) 2 g).2)

/-- Its context can be written, and one in a page that nobody maps cannot. -/
theorem witness_retire_context : retires gv.id.base = (true, true) ∧ retires 0x80000000 = (true, false) :=
  ⟨by decide +kernel, by decide +kernel⟩

end Sys2Proof.Machine.Test
end

