-- ==== Sys2Proof/Tests/Front.lean ====
section
/-!
SUPPORT. Witnesses of the statements about queues, entries, and the start and end of grids, teams and groups.
-/

namespace Sys2Proof.Machine.Test

set_option Elab.async false
set_option maxRecDepth 8000

/-! ### Queues -/

/-- The descriptor of a queue whose ring lies at 0x40000 and whose completions go to 0x50000, of 2^`log` entries, with bits 23:16 of its
control dword, HEAD 0 and TAIL `tail`. -/
def descCells (at_ : Nat) (log fl tail : Byte) : List Host.Cell :=
  [(at_ + 0x02, 4), (at_ + 0x08, log), (at_ + 0x0A, fl), (at_ + 0x12, 5), (at_ + 0x20, tail)]

def desc (log fl tail : Nat) : Desc := ⟨0x40000, log + fl * 65536, 0x50000, 0, tail, 0, 0, 0⟩

/-- A group whose scalars name queues 0, 4095 and 4096, and a record at 0x60000. -/
def gEnq : Group := tg .vector [0, 0, 4095, 4096, 0x60000]

/-- A state with the descriptor table at 0x100000 and memory `m`. -/
def sq (m : List Host.Cell) : State := { ts gEnq core0 with mem := m, front := { qtable := 0x100000, queues := [(0, { tail := 1 })] } }

/-- A state whose descriptor table lies in no heap. -/
def sNoTable : State := { ts gEnq core0 with front := { qtable := 0x18000000000 } }

def enqNeed : Need := { needS gEnq [(sr 1, false), (sr 4, false)] (some (sr 5)) false false with closes := true }

/-- For `QueueResults`: no such queue; no table; a ring that is full; one not enabled, one without DEVENQ, one for supervisors; a
descriptor that is refused; and the last queue, whose entry is appended. -/
theorem witness_enq :
    (Ready (.enq 0 3 4 true true true) (sq []) 2 gEnq
      { needS gEnq [(sr 3, true), (sr 4, true)] (some (sr 0)) false true with closes := true } ∧ Settled (sq []) 2 gEnq ∧ 4095 < (gEnq.sreg 3).toNat) ∧
    (Ready (.enq 5 1 4 false false false) sNoTable 2 gEnq enqNeed ∧ Settled sNoTable 2 gEnq ∧ readDesc sNoTable 0 = none) ∧
    (∀ x ∈ [((4 : Nat), (3 : Nat), (16 : Nat)), (4, 2, 15), (4, 1, 15), (4, 7, 15), (3, 3, 7), (4, 3, 15)],
      let s := sq (descCells 0x100000 (BitVec.ofNat 8 x.1) (BitVec.ofNat 8 x.2.1) (BitVec.ofNat 8 x.2.2))
      readyB (.enq 5 1 4 false false false) s 2 gEnq enqNeed = true ∧ settledB s gEnq = true ∧ readDesc s 0 = some (desc x.1 x.2.1 x.2.2)) ∧
    ((desc 4 3 16).size ≤ ahead (desc 4 3 16).head (desc 4 3 16).tail ∧ ahead (desc 4 3 15).head (desc 4 3 15).tail < (desc 4 3 15).size) ∧
    ((desc 4 2 15).enable = false ∧ (desc 4 1 15).devenq = false ∧ (desc 4 7 15).supv = true ∧ (desc 4 3 15).supv = false) ∧
    ((desc 3 3 7).ok = false ∧ ahead (desc 3 3 7).head (desc 3 3 7).tail < (desc 3 3 7).size) ∧
    (let s := sq (descCells 0x13FFC0 4 3 15)
     Ready (.enq 5 2 4 false false false) s 2 gEnq { needS gEnq [(sr 2, false), (sr 4, false)] (some (sr 5)) false false with closes := true } ∧
     Settled s 2 gEnq ∧ readDesc s 4095 = some (desc 4 3 15) ∧ (desc 4 3 15).ok = true ∧
     xlat s noCore 0 (0x40000 + 64 * (15 % 16)) .write false = .ok ⟨0x403C0, .rc, 0⟩ ∧ storePoison s 0x403C0 64 = none) :=
  ⟨⟨ready_of rfl rfl (by decide +kernel), settled_of (by decide +kernel), by decide +kernel⟩, ⟨ready_of rfl rfl (by decide +kernel), settled_of (by decide +kernel), by decide +kernel⟩,
   by decide +kernel, by decide +kernel, by decide +kernel, by decide +kernel, ready_of rfl rfl (by decide +kernel), settled_of (by decide +kernel), by decide +kernel, by decide +kernel, rfl,
   by decide +kernel⟩

theorem witness_doorbell :
    let s := sq (descCells 0x13FFC0 4 3 15)
    readDesc s 4095 = some (desc 4 3 15) ∧ (desc 4 3 15).ok = true ∧ (∀ x ∈ s.front.queues, ∀ e ∈ x.2.taken, e.kind ≠ 2) ∧
    ahead (desc 4 3 15).head (16 : W32).toNat ≤ (desc 4 3 15).size ∧ (desc 4 3 15).size < ahead (desc 4 3 15).head (17 : W32).toNat ∧
    (∀ x ∈ s.front.queues, x.2.holdHead = false ∧ x.2.holdPost = false) :=
  ⟨by decide +kernel, by decide +kernel, by simp [sq], by decide +kernel, by decide +kernel, by simp [sq]⟩

/-! ### Entries -/

/-- The head entry of queue 0, of kind `k`, with address 0x20000 and value 5 where `full`, and token 0x55. -/
def entryCells (k : Byte) (full : Bool) : List Host.Cell :=
  (if k = 0 then [] else [(0x40000, k)]) ++ (if full then [(0x4000A, 2), (0x40010, 5)] else []) ++ [(0x40018, 0x55)]

def entryNum (k : Nat) (full : Bool) : Nat := k + (if full then 0x20000 * 2 ^ 64 + 5 * 2 ^ 128 else 0) + 0x55 * 2 ^ 192

/-- Memory with dword `v` at 0x20000, an entry, and the descriptor of queue 0. -/
def se (v : Byte) (k : Byte) (full : Bool) : State :=
  sq ((if v = 0 then [] else [(0x20000, v)]) ++ entryCells k full ++ descCells 0x100000 4 3 1)

def dq : Desc := desc 4 3 1

def takesB (s : State) (q : Nat) (d : Desc) (e : Nat) : Bool :=
  decide (s.takeable q = some (d, e)) && s.chosen q && (s.queue q).taken.isEmpty

theorem takes_of {s : State} {q : Nat} {d : Desc} {e : Nat} (h : takesB s q d e = true) : Takes s q d e := by
  simp only [takesB, Bool.and_eq_true, decide_eq_true_eq, List.isEmpty_iff] at h
  exact ⟨h.1.1, h.1.2, h.2⟩

def postsB (u : State) (q : Nat) (d : Desc) (pa : Nat) : Bool :=
  decide (readDesc u q = some d) && d.ok && (u.queue q).due.isEmpty && !(u.queue q).holdPost &&
    (match xlat u noCore d.asid (d.cplbase + 16 * (d.cplnext % d.size)) .write false with
    | .ok p => p.pa == pa
    | .error _ => false) && (storePoison u pa 16).isNone

theorem posts_of {u : State} {q : Nat} {d : Desc} {pa : Nat} (h : postsB u q d pa = true) : CanPost u q d pa := by
  simp only [postsB, Bool.and_eq_true, decide_eq_true_eq, List.isEmpty_iff, Bool.not_eq_true', Option.isNone_iff_eq_none] at h
  obtain ⟨⟨⟨⟨⟨h1, h2⟩, h3⟩, h4⟩, h5⟩, h6⟩ := h
  refine ⟨h1, h2, h3, h4, ?_, h6⟩
  split at h5
  · rename_i p hp; exact ⟨p, hp, by simpa using h5⟩
  · cases h5

/-- For `EntryResults`: entries of kinds 0 and 5; an end of its queue; waits that have not and that have what they wait for; a signal. -/
theorem witness_entries :
    (∀ x ∈ [((0 : Nat), (0 : Nat), false), (0, 5, true), (0, 4, false), (4, 2, true), (5, 2, true), (0, 3, true)],
      let s := se (BitVec.ofNat 8 x.1) (BitVec.ofNat 8 x.2.1) x.2.2
      takesB s 0 dq (entryNum x.2.1 x.2.2) = true ∧ postsB (takeHead s 0 dq (entryNum x.2.1 x.2.2)) 0 dq.taken 0x50000 = true) ∧
    (entryKind (entryNum 0 false) = 0 ∧ 4 < entryKind (entryNum 5 true) ∧ entryBad (entryNum 0 false) = false ∧ entryBad (entryNum 5 true) = true ∧
      entryBad (entryNum 4 false) = false ∧ entryBad (entryNum 2 true) = false ∧ entryBad (entryNum 3 true) = false) ∧
    ((takeHead (se 4 2 true) 0 dq (entryNum 2 true)).vread 0 0x20000 8 .read = some 4 ∧
      (takeHead (se 5 2 true) 0 dq (entryNum 2 true)).vread 0 0x20000 8 .read = some 5 ∧ entryDw (entryNum 2 true) 2 = 5 ∧
      readDesc (takeHead (se 4 2 true) 0 dq (entryNum 2 true)) 0 = some dq.taken) ∧
    ((takeHead (se 0 3 true) 0 dq (entryNum 3 true)).vread 0 0x20000 8 .both = some 0 ∧
      (match (takeHead (se 0 3 true) 0 dq (entryNum 3 true)).vwrite 0 0x20000 (leBytes 8 5) with
       | some u => postsB u 0 dq.taken 0x50000
       | none => false) = true) :=
  ⟨by decide +kernel, by decide +kernel, by decide +kernel, by decide +kernel⟩

/-- A wait that has been taken, and an end of queue 0 while a grid of an earlier entry runs. -/
theorem witness_taken :
    let x : Taken := { index := 15, kind := 2, token := 0x55, addr := 0x20000, value := 5 }
    let y : Taken := { x with kind := 1, grid := some 0 }
    let put := fun (s : State) (t : Taken) => { s with front := { s.front with queues := [(0, { tail := 1, taken := [t] })] } }
    let s := put { se 5 2 true with } x
    let u := { put (se 0 4 false) y with groups := [], teams := [] }
    (readDesc s 0 = some dq ∧ (s.queue 0).taken = [x] ∧ s.vread dq.asid 0x20000 8 .read = some 5 ∧ postsB s 0 dq 0x50000 = true ∧
      (put (se 4 2 true) x).vread dq.asid 0x20000 8 .read = some 4) ∧
    (u.takeable 0 = some (dq, entryNum 4 false) ∧ u.chosen 0 = true ∧ (u.queue 0).taken = [y] ∧ y.index ≠ dq.head ∧ u.grid 0 = some grid0 ∧
      grid0.ended = none) := by decide +kernel

/-- A wait that has been taken from a queue that is no longer enabled. -/
theorem witness_freed :
    let x : Taken := { index := 15, kind := 2, token := 0x55, addr := 0x20000, value := 5 }
    let s := { sq (descCells 0x100000 4 2 1) with front := { qtable := 0x100000, queues := [(0, { tail := 1, taken := [x] })] } }
    postsB s 0 (desc 4 2 1) 0x50000 = true ∧ (desc 4 2 1).enable = false ∧ (s.queue 0).taken = [x] := by decide +kernel

/-! ### Launches -/

/-- A launch record at 0x20000 of one vector group, and one whose magic number is wrong. -/
def recordCells (magic : Byte) : List Host.Cell :=
  [(0x20000, magic), (0x20001, 0x5A), (0x20002, 1), (0x2000A, 1), (0x20011, 0x10), (0x20018, 64), (0x2003A, 0x10), (0x20040, 1), (0x20044, 1),
   (0x2004A, 0x20), (0x20050, 1), (0x20062, 1), (0x20088, 1)]

def sl (magic : Byte) : State := sq (recordCells magic ++ entryCells 1 true ++ descCells 0x100000 4 3 1)

def refusedAs (magic : Byte) : Option (Option Nat) :=
  (((takeHead (sl magic) 0 dq (entryNum 1 true)).vread 0 0x20000 192 .read).map (fun r => refusal r 0x20000 (parseLaunch r) false))

theorem witness_launch :
    (takesB (sl 0x4C) 0 dq (entryNum 1 true) = true ∧ entryBad (entryNum 1 true) = false ∧ refusedAs 0x4C = some none) ∧
    (takesB (sl 0x4D) 0 dq (entryNum 1 true) = true ∧ refusedAs 0x4D = some (some 2) ∧
      postsB (takeHead (sl 0x4D) 0 dq (entryNum 1 true)) 0 dq.taken 0x50000 = true) := by decide +kernel

/-! ### Starts -/

/-- A launch of one team without levels, pinned to core 575, whose endpoint 31 is of kind 1. -/
def launchP : Launch := { launch0 with levels := [], pinen := true, pincore := 575, chkind := 0x4000000000000000 }
def gridP : Grid := { grid0 with launch := launchP, next := 0 }

/-- For `StartResults`: an admission to the last core and its reservation. -/
theorem witness_admission :
    let s := { sv with grids := [(0, gridP)] }
    s.grid 0 = some gridP ∧ gridP.waits = true ∧ launchP.unitTeams = 1 ∧ launchP.kindOf 31 ≠ 0 ∧
    placeUnits launchP 0 (if gridP.coresident then launchP.count7 - 0 else 1) (s.occ.without (s.heldAgainst 0 gridP)) = some [575] := by
  decide +kernel

/-- A launch of one copy, one matrix and one vector group, of whose team the first has begun. -/
def launchM : Launch := { launch0 with ncpy := 1, nmat := 1 }
def sM : State := { sv with grids := [(0, { grid0 with launch := launchM })] }

theorem witness_start :
    (let x := { team1 with started := false }
     let s := { sv with teams := [(1, x)], front := { admitted := [1] } }
     s.front.admitted = [] ++ 1 :: [] ∧ s.team 1 = some x ∧ dieOf x.core / 6 = 0 ∧ x.status = .running) ∧
    (sM.team 1 = some team1 ∧ sM.grid 0 = some { grid0 with launch := launchM } ∧ team1.begun < launchM.ordinary ∧
      sM.freeSlots 0 { grid0 with launch := launchM } ≠ [] ∧ 2 ≤ (sM.core 0).freeEntries.length ∧ launchM.ncpy ≤ team1.begun ∧
      team1.begun < launchM.ncpy + launchM.nmat) := by decide +kernel

/-- The end of the one grid. -/
theorem witness_grid_end :
    let x : Taken := { index := 0, kind := 1, token := 0x55, addr := 0, value := 0, grid := some 0 }
    let s := { sq (descCells 0x100000 4 3 1) with
      teams := [], groups := [], front := { qtable := 0x100000, queues := [(0, { tail := 1, taken := [x] })] } }
    s.grids = [(0, grid0)] ∧ grid0.ended = none ∧ grid0.next = grid0.launch.total ∧ grid0.past = [] ∧ (s.queue grid0.queue).taken = [x] ∧
    x.index = grid0.index ∧ postsB s grid0.queue dq 0x50000 = true := by decide +kernel

end Sys2Proof.Machine.Test
end

