-- ==== Sys2Proof/Tests/Memory.lean ====
section
/-!
SUPPORT. Witnesses of the statements about memory: accesses, tensor accesses, loads that take values, stores and views.
-/

namespace Sys2Proof.Machine.Test

set_option Elab.async false
set_option maxRecDepth 8000

/-! ### Memory instructions -/

def wids : List Wid4 := [.w8, .w16, .w32, .w64]

/-- For `MemoryAccesses`: every width, both ways to give the offset, s0 as a destination, and an access that crosses a page. -/
theorem witness_ld :
    (∀ f ∈ wids.flatMap (fun w => [fun j => Instr.ld false w 5 14 j true false .dev, fun j => Instr.ld false w 5 14 j false false .none]),
      Ready (f 1) sv 2 gv { needS gv [(sr 14, false), (sr 1, false)] (some (sr 5)) false false with closes := false }) ∧
    (∀ f ∈ wids.map (fun w => fun j => Instr.ld true w 0 14 j false true .sys),
      Ready (f 31) sv 2 gv { needS gv [(sr 14, false)] (some (sr 0)) false false with closes := true }) ∧
    (∀ f ∈ wids.map (fun w => fun j => Instr.st false w 5 14 j true false .none),
      Ready (f 13) sv 2 gv { needS gv [(sr 14, false), (sr 13, false), (sr 5, true)] none false false with closes := true }) ∧
    (∀ f ∈ wids.map (fun w => fun j => Instr.st true w 0 14 j false true .team),
      Ready (f 31) sv 2 gv { needS gv [(sr 14, false), (sr 0, false)] none false false with closes := true }) ∧
    (∃ f, xlatLane sv gv .read (((gv.sreg 14).toNat + offset true 8 31 0) % 2 ^ 64) 8 = .ok f) ∧
    (∃ f, xlatLane sv gv .write (((gv.sreg 14).toNat + offset false 8 0 (gv.sreg 13)) % 2 ^ 64) 8 = .ok f) :=
  ⟨all_ready rfl rfl (by decide +kernel), all_ready rfl rfl (by decide +kernel), all_ready rfl rfl (by decide +kernel), all_ready rfl rfl (by decide +kernel),
   ok_of (by decide +kernel), ok_of (by decide +kernel)⟩

theorem witness_gather :
    (∀ f ∈ wids.flatMap (fun w => [fun j => Instr.vgather false w 3 14 j 0 true false .none, fun j => Instr.vgather false w 3 14 j 0 false false .dev]),
      Ready (f 1) sv 2 gv { needV gv [(sr 14, false), (vr 1, false)] (vr 3) false false 0 with closes := false }) ∧
    (∀ f ∈ wids.map (fun w => fun j => Instr.vscatter true w 3 14 j 7 true true .sys),
      Ready (f 31) sv 2 gv { needL gv [(sr 14, false), (vr 3, true)] [] false 7 with closes := true }) ∧
    (∃ f : Nat → Nat → Phys, ∀ l ∈ lanesOf gv.lanes (gv.eff 0),
      xlatLane sv gv .read (((gv.sreg 14).toNat + offset false 8 1 (gv.vreg 1 l)) % 2 ^ 64) 8 = .ok (f l)) ∧
    (∃ f : Nat → Nat → Phys, ∀ l ∈ lanesOf gv.lanes (gv.eff 7),
      xlatLane sv gv .write (((gv.sreg 14).toNat + offset true 8 31 (gv.vreg 31 l)) % 2 ^ 64) 8 = .ok (f l)) :=
  haveI : Inhabited (Nat → Phys) := ⟨fun _ => ⟨0, .rc, 0⟩⟩
  ⟨all_ready rfl rfl (by decide +kernel), all_ready rfl rfl (by decide +kernel), oks_of (by decide +kernel), oks_of (by decide +kernel)⟩

noncomputable def atomics : List (BitVec 5 → BitVec 5 → BitVec 5 → Bool → Bool → Sc → Instr) :=
  [.aadd, .aand, .aor, .axor, .aminI, .aminN, .amaxI, .amaxN, .aswap]

theorem witness_atomic :
    (∀ f ∈ atomics,
      Ready (f 5 14 8 false false .dev) sv 2 gv
        { needS gv [(sr 14, false), (sr 8, false), (sr 5, false)] (some (sr 5)) false false with closes := true } ∧
      Ready (f 0 14 4 true true .none) sv 2 gv { needS gv [(sr 14, false), (sr 4, false), (sr 0, false)] none false false with closes := true }) ∧
    Ready (.acas 4 14 8 false false .sys) sv 2 gv
      { needS gv [(sr 14, false), (sr 8, false), (sr 4, false), (.s 5, false)] (some (sr 4)) false false with closes := true } ∧
    Ready (.aaddf 5 14 4 false .team) sv 2 gv
      { needS gv [(sr 14, false), (sr 4, false), (sr 5, false)] (some (sr 5)) false false with closes := true } ∧
    (((gv.sreg 14).toNat + (gv.sreg 8).toNat) % 2 ^ 64 % 8 = 0 ∧ ∃ f, xlatLane sv gv .both (((gv.sreg 14).toNat + (gv.sreg 8).toNat) % 2 ^ 64) 8 = .ok f) ∧
    (((gv.sreg 14).toNat + (gv.sreg 4).toNat) % 2 ^ 64 % 4 = 0 ∧ ∃ f, xlatLane sv gv .both (((gv.sreg 14).toNat + (gv.sreg 4).toNat) % 2 ^ 64) 4 = .ok f) :=
  ⟨all_and (all_ready rfl rfl (by decide +kernel)) (all_ready rfl rfl (by decide +kernel)), ready_of rfl rfl (by decide +kernel), ready_of rfl rfl (by decide +kernel),
   ⟨by decide +kernel, ok_of (by decide +kernel)⟩, ⟨by decide +kernel, ok_of (by decide +kernel)⟩⟩

/-- For `FaultedAccessParks`: an address beyond the virtual space, and one with no descriptor. -/
theorem witness_parks :
    (Ready (.ld false .w64 5 13 0 false false .none) sv 2 gv { needS gv [(sr 13, false), (sr 0, false)] (some (sr 5)) false false with closes := false } ∧
      xlatLane sv gv .read (((gv.sreg 13).toNat + offset false 8 0 (gv.sreg 0)) % 2 ^ 64) 8 = .error (0xFFFFFFFFFFFFFFFF, 1)) ∧
    Unwaited sv 2 ∧
    (let g := tg .vector [0, 0x40000000]
     Ready (.ld true .w8 0 1 0 false false .none) (ts g core0) 2 g { needS g [(sr 1, false)] (some (sr 0)) false false with closes := false } ∧
      xlatLane (ts g core0) g .read (((g.sreg 1).toNat + offset true 1 0 0) % 2 ^ 64) 1 = .error (0x40000000, 2)) :=
  ⟨⟨ready_of rfl rfl (by decide +kernel), rfl⟩, unwaited_of (by decide +kernel), ready_of rfl rfl (by decide +kernel), rfl⟩

/-! ### Tensor accesses and cache controls -/

/-- A record of rank 1 at 0x20040: eight elements of type I32 at 0x30000. -/
def st1 : State := { sv with mem := [(0x20042, 3), (0x20047, 0x42), (0x20050, 8), (0x20065, 8)] }

/-- The same elements as a record of rank 3, one by one by eight. -/
def st3 : State := { sv with mem := [(0x20042, 3), (0x20047, 0x46), (0x20050, 1), (0x20052, 1), (0x20054, 8), (0x20065, 1), (0x2006D, 1), (0x20075, 8)] }

def rec1 : Record := [0x4200000000030000, 0, 8, 0, 0x80000000000, 0, 0, 0]
def rec3 : Record := [0x4600000000030000, 0, 0x800010001, 0, 0x10000000000, 0x10000000000, 0x80000000000, 0]

def foundB (x : Found) (r : Record) : Bool :=
  match x with
  | .found v => v == r
  | _ => false

theorem found_of {x : Found} {r : Record} (h : foundB x r = true) : x = .found r := by
  unfold foundB at h
  split at h
  · rw [beq_iff_eq] at h; rw [h]
  · exact absurd h (by simp)

theorem record1 : RecordAt st1 2 gv 0x20040 rec1 :=
  ⟨rfl, by simp [st1, sv, ts, State.core, Tab.getD, Tab.get, gv, tg, core0], found_of (by decide +kernel), by decide +kernel, by decide +kernel⟩

theorem record3 : RecordAt st3 2 gv 0x20040 rec3 :=
  ⟨rfl, by simp [st3, sv, ts, State.core, Tab.getD, Tab.get, gv, tg, core0], found_of (by decide +kernel), by decide +kernel, by decide +kernel⟩

/-- For `TensorAccesses`: the last element inside the bounds, the first outside, no coordinate, and rank 3. -/
theorem witness_tensor :
    (∀ j ∈ [7, 8, 0], Ready (.tld 5 15 j false .none) st1 2 gv { needS gv (tensorRegs st1 gv 15 j) (some (sr 5)) false false with closes := false }) ∧
    (∀ j ∈ [7, 8, 0], Ready (.tst 5 15 j true true .dev) st1 2 gv { needS gv (tensorRegs st1 gv 15 j ++ [(sr 5, true)]) none false false with closes := true }) ∧
    (gv.sreg 15).toNat = 0x20040 ∧
    (rec1.inb (tensorCoords 7 rec1 (gv.sreg 7) 0) = true ∧ rec1.inb (tensorCoords 8 rec1 (gv.sreg 8) 0) = false ∧
      rec1.inb (tensorCoords 0 rec1 (gv.sreg 0) 0) = true) ∧
    (∃ f, xlatLane st1 gv .read (rec1.addr (tensorCoords 7 rec1 (gv.sreg 7) 0)) 4 = .ok f) ∧
    (∃ f, xlatLane st1 gv .write (rec1.addr (tensorCoords 7 rec1 (gv.sreg 7) 0)) 4 = .ok f) :=
  ⟨all_ready rfl rfl (by decide +kernel), all_ready rfl rfl (by decide +kernel), by decide +kernel, by decide +kernel, ok_of (by decide +kernel), ok_of (by decide +kernel)⟩

theorem witness_tensor3 :
    Ready (.tld 0 15 20 true .sys) st3 2 gv { needS gv (tensorRegs st3 gv 15 20) none false false with closes := true } ∧
    tensorNext st3 gv 15 20 = true ∧ rec3.inb (tensorCoords 20 rec3 (gv.sreg 20) (gv.sreg 21)) = true ∧
    (∃ f, xlatLane st3 gv .read (rec3.addr (tensorCoords 20 rec3 (gv.sreg 20) (gv.sreg 21))) 4 = .ok f) :=
  ⟨ready_of rfl rfl (by decide +kernel), by decide +kernel, by decide +kernel, ok_of (by decide +kernel)⟩

/-- For `CacheControls`. -/
theorem witness_cache :
    (∀ f ∈ [Instr.pfc, Instr.pfd, Instr.cwb, Instr.cinv, Instr.cwbinv],
      Ready (f 14 1) sv 2 gv (needS gv [(sr 14, false), (sr 1, false)] none false false)) ∧
    (∀ b ∈ [0, 15], Ready (.lflush b) sv 2 gv (needS gv [(sr b, false)] none false false)) :=
  ⟨all_ready rfl rfl (by decide +kernel), all_ready rfl rfl (by decide +kernel)⟩

/-! ### Loads that take their values -/

def part (pa : Nat) : Part := { lane := 0, off := 0, va := pa, pa := pa, n := 8, kind := .rc }

/-- An access of 8 bytes at `pa` to s5. -/
def acc (op : AccOp) (pa : Nat) (vol acq : Bool) : Access :=
  { op := op, ord := 1, dest := some (.s 5), bits := 64, sext := false, scope := if acq then some .device else none, acq := acq
    rel := false, vol := vol, parts := [part pa], pc := 0x10100, insn := 0 }

def ga (a : Access) : Group := { gv with accs := [a], ord := 2 }
def sa (a : Access) : State := ts (ga a) core0

theorem take5 (a : Access) : CanTake (sa a) 2 (ga a) 0 (.s 5) :=
  ⟨by decide +kernel, show (core0.cached 2 1 (.s 5)) = true by decide +kernel, rfl, by simp [ga, dropAt], by simp [ga, gv, tg]⟩

theorem perform (a : Access) (h : a = acc a.op 0x20000 a.vol a.acq) (hm : (sa a).mayPerform 2 (ga a) 0 0 a (part 0x20000) = true) :
    CanPerform (sa a) 2 (ga a) 0 a (part 0x20000) :=
  ⟨rfl, rfl, by rw [h]; rfl, ⟨rfl, rfl⟩, hm, rfl, show poisonAt sv 0x20000 8 = none by decide +kernel⟩

def host : Nat := 2 ^ 51

/-- For `LoadTakesValue`: a plain load, a volatile one, an acquire at device scope, and a load of the host. -/
theorem witness_load :
    (CanPerform (sa (acc .load 0x20000 false false)) 2 (ga (acc .load 0x20000 false false)) 0 (acc .load 0x20000 false false) (part 0x20000) ∧
      (acc .load 0x20000 false false).atHome (part 0x20000) = false) ∧
    (CanPerform (sa (acc .load 0x20000 true false)) 2 (ga (acc .load 0x20000 true false)) 0 (acc .load 0x20000 true false) (part 0x20000) ∧
      (acc .load 0x20000 true false).atHome (part 0x20000) = true) ∧
    CanPerform (sa (acc .load 0x20000 false true)) 2 (ga (acc .load 0x20000 false true)) 0 (acc .load 0x20000 false true) (part 0x20000) ∧
    (CanPerform (sa (acc .load host false false)) 2 (ga (acc .load host false false)) 0 (acc .load host false false) (part host) ∧
      targetOf host = .host) ∧
    (∀ a, CanTake (sa a) 2 (ga a) 0 (.s 5)) ∧ (∀ a p, earlierStores ((ga a).accs.take 0) p = []) :=
  ⟨⟨perform _ rfl (by decide +kernel), by decide +kernel⟩, ⟨perform _ rfl (by decide +kernel), by decide +kernel⟩, perform _ rfl (by decide +kernel),
   ⟨⟨rfl, rfl, rfl, ⟨rfl, rfl⟩, by decide +kernel, rfl, by decide +kernel⟩, by decide +kernel⟩, take5, fun _ _ => rfl⟩

/-- For `PoisonedCompletion`: the host, and the last byte range of peer port 35. -/
theorem witness_poisoned :
    let p := 3 * 2 ^ 50 + 36 * 2 ^ 44 - 8
    ((sa (acc .load host false false)).inOrder 2 (ga (acc .load host false false)) 0 0 (acc .load host false false) (part host) = true ∧
      (ga (acc .load host false false)).noted = none ∧ (ga (acc .load host false false)).sys.remoteerr.getLsbD 63 = false ∧
      targetOf host = .host ∧ farTarget host = true) ∧
    ((sa (acc .load p false false)).inOrder 2 (ga (acc .load p false false)) 0 0 (acc .load p false false) (part p) = true ∧
      farTarget p = true ∧ targetOf p = .peer 35) :=
  ⟨⟨by decide +kernel, rfl, by decide +kernel, by decide +kernel, by decide +kernel⟩, by decide +kernel, by decide +kernel, by decide +kernel⟩

/-! ### Stores and views -/

/-- A store of 8 bytes in the group's store buffer. -/
def ast : Access := { acc .store 0x20000 false false with dest := none, parts := [{ part 0x20000 with val := 0x1122334455667788 }] }

def wait1 : Store := { pa := 0x20000, bytes := [0x88, 0x77], kind := .rc, group := 2, asid := 0, va := 0x20000, gen := 0, pc := 0x10100, insn := 0 }
def wait2 : Store := { wait1 with pa := 0x20002 }

/-- The last core, and the last die, in whose views two stores wait. -/
def swait : State := { sv with
  cores := [(0, core0), (575, { view := { diff := [(0x20000, 0x88)], wait := [wait1, wait2] } })]
  dies := [(23, { view := { diff := [(0x20000, 0x88)], wait := [wait1, wait2] } })] }

/-- For `StoreViews`: a drain; pushes of the first store and of the second, which does not overlap it; refreshes. -/
theorem witness_stores :
    ((sa ast).group 2 = some (ga ast) ∧ (ga ast).storeParts[0]? = some (0, 0) ∧
      (sa ast).mayPerform 2 (ga ast) 0 0 ast { part 0x20000 with val := 0x1122334455667788 } = true ∧ ast.isStore = true) ∧
    ((swait.core 575).view.wait[0]? = some wait1 ∧ (swait.core 575).view.wait[1]? = some wait2 ∧
      (∀ y ∈ (swait.core 575).view.wait.take 1, y.overlap wait2 = false) ∧ swait.lentTo 23 wait2.pa 1 = false ∧
      ∀ y ∈ swait.lenders, y.near wait2 = true → swait.barred false (fun _ => false) y = false) ∧
    ((swait.die 23).view.wait[1]? = some wait2 ∧ (∀ y ∈ (swait.die 23).view.wait.take 1, y.overlap wait2 = false) ∧
      swait.barred false (fun _ => false) wait2 = false ∧ storePoison swait wait2.pa wait2.bytes.length = none ∧ swait.errs = []) ∧
    (∀ y ∈ (swait.core 575).view.wait, y.meets 0x1FFFF 1 = false) ∧
    ((∀ y ∈ (swait.die 23).view.wait, y.meets 0x20004 1 = false) ∧ swait.lentTo 23 0x20004 1 = false) :=
  ⟨⟨rfl, by decide +kernel, by decide +kernel, rfl⟩, ⟨rfl, rfl, by decide +kernel, by decide +kernel, by decide +kernel⟩,
   ⟨rfl, by decide +kernel, by decide +kernel, by decide +kernel, rfl⟩, by decide +kernel, by decide +kernel, by decide +kernel⟩

/-- For `AtomicAtHome`: every operation. -/
theorem witness_home : ∀ f ∈ [AtomOp.add, .and, .or, .xor, .minI, .minN, .maxI, .maxN, .swap, .cas, .addf],
    CanPerform (sa (acc (.atomic f) 0x20000 false false)) 2 (ga (acc (.atomic f) 0x20000 false false)) 0
      (acc (.atomic f) 0x20000 false false) (part 0x20000) ∧
    targetOf 0x20000 = .heap 0 ∧ ((sa (acc (.atomic f) 0x20000 false false)).core 0).view.wait = [] ∧
    ((sa (acc (.atomic f) 0x20000 false false)).die 0).view.wait = [] ∧
    (sa (acc (.atomic f) 0x20000 false false)).lentTo 0 0x20000 8 = false := by
  intro f hf
  refine ⟨perform _ rfl ?_, by decide +kernel, rfl, rfl, rfl⟩
  revert f
  decide +kernel

end Sys2Proof.Machine.Test
end

