-- ==== Sys2Proof/Tests/Registers.lean ====
section
/-!
SUPPORT. Witnesses of the statements about register instructions: states and operands that meet their hypotheses.
-/

namespace Sys2Proof.Machine.Test

set_option Elab.async false
set_option maxRecDepth 8000

/-! ### Scalars -/

def scalar2s : List (BitVec 5 → BitVec 5 → BitVec 5 → Bool → Bool → Bool → Bool → Instr) :=
  [.add, .sub, .and, .or, .xor, .andn, .shl, .shrI, .shrN, .rotl, .rotr, .mul, .mulhI, .mulhN, .minI, .minN, .maxI, .maxN,
  .divI, .divN, .remI, .remN, .addsI, .subsI, .seq, .sne, .sltI, .sltN, .sleI, .sleN, .lea2, .lea4, .lea8, .lea16]

/-- For `ScalarIntegerResults`: 64-bit and 32-bit results, register 31 and its mark, and s0 as a destination. -/
theorem witness_scalar2 : ∀ f ∈ scalar2s,
    Ready (f 5 1 2 false false false false) sv 2 gv (scalarNeed 5 1 2 false false false false gv) ∧
    Ready (f 31 31 2 true false true true) sv 2 gv (scalarNeed 31 31 2 true false true true gv) ∧
    Ready (f 0 1 31 false true false true) sv 2 gv (scalarNeed 0 1 31 false true false true gv) := 
  all_and (all_ready rfl rfl (by decide +kernel)) (all_and (all_ready rfl rfl (by decide +kernel)) (all_ready rfl rfl (by decide +kernel)))

def scalar1s : List (BitVec 5 → BitVec 5 → Bool → Bool → Bool → Instr) :=
  [.clz, .ctz, .popc, .brev, .bswap, .abs]

theorem witness_scalar1 : ∀ f ∈ scalar1s,
    Ready (f 5 1 false false false) sv 2 gv (needS gv [(sr 1, false)] (some (sr 5)) false false) ∧
    Ready (f 0 31 true true true) sv 2 gv (needS gv [(sr 31, true)] (some (sr 0)) false true) := 
  all_and (all_ready rfl rfl (by decide +kernel)) (all_ready rfl rfl (by decide +kernel))

def scalarIs : List (BitVec 5 → BitVec 5 → Bool → BitVec 11 → Instr) :=
  [.addi, .andi, .ori, .xori, .sltiI, .sltiN, .seqi, .muli]

def scalarShifts : List (BitVec 5 → BitVec 5 → Bool → BitVec 11 → Instr) := [.shli, .shriI, .shriN, .rotli]

/-- For `ScalarImmediateResults`: the least and the greatest immediates, and a shift by 63. -/
theorem witness_scalarI :
    (∀ f ∈ scalarIs, ∀ n ∈ [0x400, 0x3FF], Ready (f 5 1 false n) sv 2 gv (needS gv [(sr 1, gv.markIS false)] (some (sr 5)) false false)) ∧
    (∀ f ∈ scalarShifts, Ready (f 0 31 true 63) sv 2 gv (needS gv [(sr 31, gv.markIS true)] (some (sr 0)) false false)) := by
  refine ⟨fun f hf n hn => ?_, all_ready rfl rfl (by decide +kernel)⟩
  simp only [List.mem_cons, List.not_mem_nil, or_false] at hn
  obtain rfl | rfl := hn
  · revert f; exact all_ready rfl rfl (by decide +kernel)
  · revert f; exact all_ready rfl rfl (by decide +kernel)

theorem witness_scalarOut :
    Ready (.bfxI 5 1 false 31 32) sv 2 gv (needS gv [(sr 1, false)] (some (sr 5)) false false) ∧
    Ready (.bfxN 0 1 true 0 63) sv 2 gv (needS gv [(sr 1, true)] (some (sr 0)) false false) ∧
    Ready (.bfi 5 1 false 31 32) sv 2 gv (needS gv [(sr 1, false)] (some (sr 5)) true false) ∧
    Ready (.mov 5 1 true true) sv 2 gv (needS gv [(sr 1, true)] (some (sr 5)) false true) ∧
    Ready (.phnd 5 1 2 false false false) sv 2 gv (needS gv [(sr 1, false), (sr 2, false)] (some (sr 5)) false false) ∧
    Ready (.pclip 0 1 2 true true true) sv 2 gv (needS gv [(sr 1, true), (sr 2, true)] (some (sr 0)) false true) :=
  ⟨ready_of rfl rfl (by decide +kernel), ready_of rfl rfl (by decide +kernel), ready_of rfl rfl (by decide +kernel), ready_of rfl rfl (by decide +kernel),
   ready_of rfl rfl (by decide +kernel), ready_of rfl rfl (by decide +kernel)⟩

/-- A conditional move that moves, and one that does not, of 64 bits and of 32. -/
theorem witness_scalarMove : ∀ f ∈ [Instr.cmovnz, Instr.cmovz],
    Ready (f 5 1 2 false false false false) sv 2 gv (needS gv [(sr 1, false), (sr 2, false)] (some (sr 5)) true false) ∧
    Ready (f 31 1 0 true false true true) sv 2 gv (needS gv [(sr 1, true), (sr 0, false)] (some (sr 31)) true true) ∧
    gv.sw false 2 ≠ 0 ∧ gv.sw true 0 = 0 := 
  all_and (all_ready rfl rfl (by decide +kernel)) (all_and (all_ready rfl rfl (by decide +kernel)) fun _ _ => ⟨by decide +kernel, by decide +kernel⟩)

/-! ### Lanes -/

def lane2s : List (BitVec 5 → BitVec 5 → BitVec 5 → BitVec 3 → Bool → Bool → Bool → Instr) :=
  (List.flatMap (fun (w : Wid3) => [.vminI w, .vminN w, .vmaxI w, .vmaxN w, .vabsdI w, .vabsdN w, .vavgI w, .vavgN w, .vshrI
  w, .vshrN w, fun d a b q l m e => .vadd w d a b q l m e false, fun d a b q l m e => .vadd w d a b q l m e true, fun d a b
  q l m e => .vsub w d a b q l m e false, fun d a b q l m e => .vsub w d a b q l m e true, fun d a b q l m e => .vmul w d a
  b q l m e false, fun d a b q l m e => .vmul w d a b q l m e true, fun d a b q l m e => .vshl w d a b q l m e false, fun d
  a b q l m e => .vshl w d a b q l m e true]) [.w8, .w16, .w32]) ++ (List.flatMap (fun (x : Bool) => [fun d a b q l m e =>
  .vaddI64 d a b q l m e x, fun d a b q l m e => .vsubI64 d a b q l m e x, fun d a b q l m e => .vmulI64 d a b q l m e x,
  fun d a b q l m e => .vshlI64 d a b q l m e x]) [false, true]) ++ [.vminI64, .vminN64, .vmaxI64, .vmaxN64, .vshrI64,
  .vshrN64, .vand, .vor, .vxor, .vandn]

/-- For `LaneIntegerResults`: every lane, and the one lane of predicate 7; a destination that is a source, and marks. -/
theorem witness_lane2 : ∀ f ∈ lane2s,
    Ready (f 3 1 2 0 false false false) sv 2 gv (needV gv [(vr 1, false), (vr 2, false)] (vr 3) false false 0) ∧
    Ready (f 7 7 0 7 true true true) sv 2 gv (needV gv [(vr 7, true), (vr 0, true)] (vr 7) false true 7) := 
  all_and (all_ready rfl rfl (by decide +kernel)) (all_ready rfl rfl (by decide +kernel))

def lane1s : List (BitVec 5 → BitVec 5 → BitVec 3 → Bool → Bool → Instr) :=
  (List.flatMap (fun (w : Wid3) => [fun d a q l e => .vneg w d a q l e false, fun d a q l e => .vneg w d a q l e true,
    fun d a q l e => .vabs w d a q l e false, fun d a q l e => .vabs w d a q l e true]) [.w8, .w16, .w32]) ++ [.vnot, .vpopc]

theorem witness_lane1 : ∀ f ∈ lane1s,
    Ready (f 3 1 0 false false) sv 2 gv (needV gv [(vr 1, false)] (vr 3) false false 0) ∧
    Ready (f 7 7 7 true true) sv 2 gv (needV gv [(vr 7, true)] (vr 7) false true 7) := 
  all_and (all_ready rfl rfl (by decide +kernel)) (all_ready rfl rfl (by decide +kernel))

def laneIs : List (BitVec 5 → BitVec 5 → BitVec 3 → Bool → BitVec 8 → Instr) :=
  List.flatMap (fun (w : Wid4) => [.vaddi w, .vshli w, .vshriI w, .vshriN w]) [.w8, .w16, .w32, .w64]

theorem witness_laneI : ∀ f ∈ laneIs,
    Ready (f 3 1 0 false 7) sv 2 gv (needV gv [(vr 1, false)] (vr 3) false false 0) ∧
    Ready (f 7 7 7 true 0) sv 2 gv (needV gv [(vr 7, true)] (vr 7) false false 7) := 
  all_and (all_ready rfl rfl (by decide +kernel)) (all_ready rfl rfl (by decide +kernel))

def lane3s : List (BitVec 5 → BitVec 5 → BitVec 5 → BitVec 3 → Bool → Bool → Bool → Instr) :=
  (List.flatMap (fun (x : Bool) => [fun d a b q l m e => .vdot4I8 d a b q l m e x, fun d a b q l m e => .vdot4N8 d a b q l m
  e x, fun d a b q l m e => .vdot2I16 d a b q l m e x, fun d a b q l m e => .vdot2N16 d a b q l m e x, fun d a b q l m e =>
  .vmadI16 d a b q l m e x, fun d a b q l m e => .vmadI32 d a b q l m e x, fun d a b q l m e => .vmadI64 d a b q l m e x,
  fun d a b q l m e => .vaddminI16 d a b q l m e x, fun d a b q l m e => .vaddmaxI16 d a b q l m e x, fun d a b q l m e =>
  .vaddminI32 d a b q l m e x, fun d a b q l m e => .vaddmaxI32 d a b q l m e x]) [false, true]) ++ [.vsel]

/-- For `LaneAccumulateResults`. -/
theorem witness_lane3 : ∀ f ∈ lane3s,
    Ready (f 3 1 2 0 false false false) sv 2 gv (needV gv [(vr 1, false), (vr 2, false)] (vr 3) true false 0) ∧
    Ready (f 7 7 0 7 false true true) sv 2 gv (needV gv [(vr 7, false), (vr 0, true)] (vr 7) true true 7) := 
  all_and (all_ready rfl rfl (by decide +kernel)) (all_ready rfl rfl (by decide +kernel))

/-! ### Predicates -/

/-- For `PredicateResults`. -/
theorem witness_pred2 : ∀ f ∈ [Instr.pand, Instr.por, Instr.pxor, Instr.pandn],
    Ready (f 1 2 3 0) sv 2 gv (needL gv [] [] false 0) ∧ Ready (f 0 7 0 7) sv 2 gv (needL gv [] [] false 7) := 
  all_and (all_ready rfl rfl (by decide +kernel)) (all_ready rfl rfl (by decide +kernel))

theorem witness_pred1 : (∀ f ∈ [Instr.pnot, Instr.pmov, Instr.pfirst],
    Ready (f 1 2 0) sv 2 gv (needL gv [] [] false 0) ∧ Ready (f 0 7 7) sv 2 gv (needL gv [] [] false 7)) ∧
    Ready (.pset 7 5 0 true true) sv 2 gv (needL gv [(sr 5, true)] [] true 0) ∧ gv.id.foot ≤ 4 :=
  ⟨all_and (all_ready rfl rfl (by decide +kernel)) (all_ready rfl rfl (by decide +kernel)), ready_of rfl rfl (by decide +kernel), by decide +kernel⟩

def compares : List (BitVec 3 → BitVec 5 → BitVec 5 → BitVec 3 → Bool → Bool → Bool → Instr) :=
  (List.flatMap (fun (w : Wid4) => List.flatMap (fun (x : Bool) => [fun d a b q l m e => .vceq w d a b q l m e x,
    fun d a b q l m e => .vcne w d a b q l m e x, fun d a b q l m e => .vclt w d a b q l m e x,
    fun d a b q l m e => .vcle w d a b q l m e x]) [false, true]) [.w8, .w16, .w32, .w64]) ++
  [.vfcltF32, .vfcleF32, .vfceqF32] ++ List.flatMap (fun t => [.vfcltHalf t, .vfcleHalf t, .vfceqHalf t]) [.f16, .bf16]

theorem witness_compare : ∀ f ∈ compares,
    Ready (f 1 2 3 0 false false false) sv 2 gv (needL gv [(vr 2, false), (vr 3, false)] [] false 0) ∧
    Ready (f 7 0 0 7 true false true) sv 2 gv (needL gv [(vr 0, true), (vr 0, false)] [] true 7) := 
  all_and (all_ready rfl rfl (by decide +kernel)) (all_ready rfl rfl (by decide +kernel))

/-! ### Floats -/

def rms : List Rm := [.mode, .rn, .rz, .rs]

/-- For `ScalarFloatResults`: every RM. -/
theorem witness_scalarFloat :
    (∀ f ∈ rms.flatMap (fun r => [Instr.fadd r, Instr.fsub r, Instr.fmul r, Instr.fdiv r]),
      Ready (f 5 1 2 false false false) sv 2 gv (needS gv [(sr 1, false), (sr 2, false)] (some (sr 5)) false false) ∧
      Ready (f 0 1 31 true true true) sv 2 gv (needS gv [(sr 1, true), (sr 31, true)] (some (sr 0)) false true)) ∧
    (∀ f ∈ rms.map Instr.ffma,
      Ready (f 5 1 2 false false false) sv 2 gv (needS gv [(sr 1, false), (sr 2, false)] (some (sr 5)) true false)) ∧
    (∀ f ∈ rms.flatMap (fun r => [Instr.fsqrt r, Instr.fcvtF32I64 r, Instr.fcvtI64F32 r]),
      Ready (f 5 1 false false) sv 2 gv (needS gv [(sr 1, false)] (some (sr 5)) false false)) :=
  ⟨all_and (all_ready rfl rfl (by decide +kernel)) (all_ready rfl rfl (by decide +kernel)), all_ready rfl rfl (by decide +kernel),
   all_ready rfl rfl (by decide +kernel)⟩

def float2s : List (BitVec 5 → BitVec 5 → BitVec 5 → BitVec 3 → Bool → Bool → Bool → Instr) :=
  rms.flatMap (fun r => [.vaddF32 r, .vsubF32 r, .vmulF32 r, .vdivF32 r, .vaddHalf .f16 r, .vaddHalf .bf16 r, .vsubHalf .f16 r,
    .vsubHalf .bf16 r, .vmulHalf .f16 r, .vmulHalf .bf16 r, .vqscale r]) ++
  [.vminF32, .vmaxF32, .vminHalf .f16, .vminHalf .bf16, .vmaxHalf .f16, .vmaxHalf .bf16, .vcmulF32, .vcmulcF32, .vcmulBf16]

def float3s : List (BitVec 5 → BitVec 5 → BitVec 5 → BitVec 3 → Bool → Bool → Bool → Instr) :=
  rms.flatMap (fun r => [fun d a b q l m e => .vfmaF32 r d a b q l m e false, fun d a b q l m e => .vfmaF32 r d a b q l m e true,
    fun d a b q l m e => .vfmsF32 r d a b q l m e false, fun d a b q l m e => .vfmsF32 r d a b q l m e true,
    fun d a b q l m e => .vfmaw r d a b q l m e false, fun d a b q l m e => .vfmaw r d a b q l m e true,
    .vfmaHalf .f16 r, .vfmaHalf .bf16 r, .vfnmaHalf .f16 r, .vfnmaHalf .bf16 r]) ++ [.vaddminF32, .vaddmaxF32]

/-- For `LaneFloatResults`. -/
theorem witness_laneFloat :
    (∀ f ∈ float2s, Ready (f 3 1 2 0 false false false) sv 2 gv (needV gv [(vr 1, false), (vr 2, false)] (vr 3) false false 0) ∧
      Ready (f 7 7 0 7 true false true) sv 2 gv (needV gv [(vr 7, true), (vr 0, false)] (vr 7) false true 7)) ∧
    (∀ f ∈ float3s, Ready (f 3 1 2 0 false false false) sv 2 gv (needV gv [(vr 1, false), (vr 2, false)] (vr 3) true false 0)) ∧
    (∀ f ∈ rms.map Instr.vsqrtF32, Ready (f 3 1 0 false false) sv 2 gv (needV gv [(vr 1, false)] (vr 3) false false 0)) ∧
    (∀ f ∈ [Instr.vbflyF32, Instr.vbflyBf16],
      Ready (f 3 1 2 0 false false false) sv 2 gv (needV gv [(vr 1, false), (sr 2, false)] (vr 3) false false 0) ∧
      Ready (f 3 1 12 0 false false false) sv 2 gv (needV gv [(vr 1, false), (sr 12, false)] (vr 3) false false 0)) :=
  ⟨all_and (all_ready rfl rfl (by decide +kernel)) (all_ready rfl rfl (by decide +kernel)), all_ready rfl rfl (by decide +kernel),
   all_ready rfl rfl (by decide +kernel), all_and (all_ready rfl rfl (by decide +kernel)) (all_ready rfl rfl (by decide +kernel))⟩

/-! ### Across lanes -/

/-- For `CrossLaneResults`. -/
theorem witness_cross :
    (∀ f ∈ [Instr.vlread, Instr.vsubsel],
      Ready (f 3 1 2 0 false false false) sv 2 gv (needV gv [(vr 1, false), (vr 2, false)] (vr 3) false false 0)) ∧
    (∀ f ∈ [Instr.vshlx, Instr.vshrx, Instr.vshly, Instr.vshry, Instr.vrotx],
      Ready (f 3 1 2 0 false false false) sv 2 gv (needV gv [(vr 1, false), (sr 2, false)] (vr 3) false false 0) ∧
      Ready (f 7 7 0 7 true false true) sv 2 gv (needV gv [(vr 7, true), (sr 0, false)] (vr 7) false true 7)) ∧
    (∀ f ∈ [KeyTy.i64, KeyTy.i32, KeyTy.f32, KeyTy.bf16, KeyTy.f16].map (fun t d a => Instr.vmatch d a t),
      Ready (f 3 1 0 false false) sv 2 gv (needV gv [(vr 1, false)] (vr 3) false false 0)) ∧
    Ready (.vballot 3 7 0) sv 2 gv (needV gv [] (vr 3) false false 0) ∧
    Ready (.vmov 3 1 7 true true) sv 2 gv (needV gv [(vr 1, true)] (vr 3) false true 7) ∧
    Ready (.vbcast 3 5 0 true true) sv 2 gv (needV gv [(sr 5, true)] (vr 3) false true 0) ∧
    Ready (.vmovi 3 0 0x80) sv 2 gv (needV gv [] (vr 3) false false 0) ∧
    Ready (.vextr 5 1 2 false false false) sv 2 gv (needS gv [(vr 1, false), (sr 2, false)] (some (sr 5)) false false) ∧
    Ready (.vpcount 5 7 0) sv 2 gv (needL gv [] [sr 5] false 0) :=
  ⟨all_ready rfl rfl (by decide +kernel), all_and (all_ready rfl rfl (by decide +kernel)) (all_ready rfl rfl (by decide +kernel)),
   all_ready rfl rfl (by decide +kernel), ready_of rfl rfl (by decide +kernel), ready_of rfl rfl (by decide +kernel), ready_of rfl rfl (by decide +kernel),
   ready_of rfl rfl (by decide +kernel), ready_of rfl rfl (by decide +kernel), ready_of rfl rfl (by decide +kernel)⟩

/-- For `ReductionResults`. -/
theorem witness_reduction :
    (∀ f ∈ [Instr.vredaddI64, Instr.vredminI64, Instr.vredmaxI64, Instr.vredaddF32, Instr.vredminF32, Instr.vredmaxF32],
      Ready (f 5 1 0 false false) sv 2 gv (needL gv [(vr 1, false)] [sr 5] false 0) ∧
      Ready (f 0 7 7 true true) sv 2 gv (needL gv [(vr 7, true)] [sr 0] true 7)) ∧
    (∀ f ∈ [Instr.vscanaddI64, Instr.vscanmaxI64, Instr.vscanaddF32],
      Ready (f 3 1 0 false false) sv 2 gv (needV gv [(vr 1, false)] (vr 3) false false 0) ∧
      Ready (f 7 7 7 true true) sv 2 gv (needV gv [(vr 7, true)] (vr 7) false true 7)) :=
  ⟨all_and (all_ready rfl rfl (by decide +kernel)) (all_ready rfl rfl (by decide +kernel)),
   all_and (all_ready rfl rfl (by decide +kernel)) (all_ready rfl rfl (by decide +kernel))⟩

/-- For `ConversionResults`: without companding, and with it, where the table at address 0 can be read. -/
theorem witness_conversion :
    Ready (.vcvt .i8 3 1 .f32 0 true .rs true) sv 2 gv (needV gv [(vr 1, true)] (vr 3) false false 0) ∧
    (∀ f ∈ [fun d a => Instr.vqpack .rn d a .b16, fun d a => Instr.vqunpack .rn d a .e5m2],
      Ready (f 3 1 0 false false false) sv 2 gv (needV gv [(vr 1, false)] (vr 3) false false 0) ∧
      Ready (f 3 1 0 false false true) sv 2 gv (needV gv [(vr 1, false)] (vr 3) false false 0)) ∧
    tableGate false 2 gv sv = .pass ∧ tableGate true 2 gv sv = .pass :=
  ⟨ready_of rfl rfl (by decide +kernel), all_and (all_ready rfl rfl (by decide +kernel)) (all_ready rfl rfl (by decide +kernel)), rfl,
   pass_of (by decide +kernel)⟩

/-- For `SpecialFunctionQueued`: an empty queue, and one with seven entries. -/
theorem witness_special :
    let e : SfuEnt := { group := 2, dest := none, vals := [], mask := 0, flags := 0, ord := 0 }
    let s7 := ts gv { core0 with sfu := List.replicate 7 e }
    (∀ f ∈ [Instr.vrcp, Instr.vrsqrt, Instr.vsqrtSfu, Instr.vexp2, Instr.vlog2, Instr.vsin, Instr.vcos, Instr.vtanh, Instr.vsigm,
        Instr.verf],
      Ready (f 3 1 0 false false) sv 2 gv (needV gv [(vr 1, false)] (vr 3) false false 0) ∧
      Ready (f 7 7 7 true true) s7 2 gv (needV gv [(vr 7, true)] (vr 7) false true 7)) ∧
    (sv.core gv.id.core).sfu.length < 8 ∧ (s7.core gv.id.core).sfu.length < 8 :=
  ⟨all_and (all_ready rfl rfl (by decide +kernel)) (all_ready rfl rfl (by decide +kernel)), by decide +kernel, by decide +kernel⟩

end Sys2Proof.Machine.Test
end

