-- ==== Sys2Proof/Tests/Slice0.lean ====
section
/-!
SUPPORT. Tests of the model: words written out from the encoding tables, the manual's own encodings, ill-formed terms and words that are
no instruction, and the manual's worked examples.
-/

namespace Sys2Proof.Machine.Test

set_option Elab.async false
set_option maxRecDepth 8000

/-! ### Words of each major, written out field by field (spec/04 R67 to R79, R85 to R88, R90) -/

/-- Major 0x01, rows ADD to MIN_N of the opcode table. -/
theorem test_decode_01 :
    decode 0b000001_0000_01011_11111_00101_000_1_0_0_0 = .ok (.add 11 31 5 true false false false) ∧
    decode 0b000001_0001_01100_10011_00010_000_0_0_0_1 = .ok (.sub 12 19 2 false false false true) ∧
    decode 0b000001_0010_01110_00011_01000_000_0_1_0_0 = .ok (.and 14 3 8 false true false false) ∧
    decode 0b000001_0011_11111_01000_10101_000_0_1_0_0 = .ok (.or 31 8 21 false true false false) ∧
    decode 0b000001_0100_00010_10010_11100_000_0_1_1_0 = .ok (.xor 2 18 28 false true true false) ∧
    decode 0b000001_0101_10010_00100_10011_000_1_0_0_0 = .ok (.andn 18 4 19 true false false false) ∧
    decode 0b000001_0110_01100_00100_10010_000_0_0_0_1 = .ok (.shl 12 4 18 false false false true) ∧
    decode 0b000001_0111_10110_10010_01110_000_1_1_1_1 = .ok (.shrI 22 18 14 true true true true) ∧
    decode 0b000001_1000_01010_01000_11010_000_0_0_0_1 = .ok (.shrN 10 8 26 false false false true) ∧
    decode 0b000001_1001_10001_10000_11101_000_1_1_1_0 = .ok (.rotl 17 16 29 true true true false) ∧
    decode 0b000001_1010_00100_10001_01110_000_0_1_0_1 = .ok (.rotr 4 17 14 false true false true) ∧
    decode 0b000001_1011_01110_00010_11111_000_0_1_1_1 = .ok (.mul 14 2 31 false true true true) ∧
    decode 0b000001_1100_10100_10000_10011_000_1_0_0_1 = .ok (.mulhI 20 16 19 true false false true) ∧
    decode 0b000001_1101_10000_10111_10110_000_0_0_1_1 = .ok (.mulhN 16 23 22 false false true true) ∧
    decode 0b000001_1110_01010_10111_01101_000_1_0_1_1 = .ok (.minI 10 23 13 true false true true) ∧
    decode 0b000001_1111_00110_10100_00100_000_1_0_0_1 = .ok (.minN 6 20 4 true false false true) := by
  decide +kernel

/-- Major 0x02, rows MAX_I to SUBS_I of the opcode table. -/
theorem test_decode_02 :
    decode 0b000010_0000_00101_11000_01000_000_1_1_1_0 = .ok (.maxI 5 24 8 true true true false) ∧
    decode 0b000010_0001_00110_01111_01101_000_1_0_1_1 = .ok (.maxN 6 15 13 true false true true) ∧
    decode 0b000010_0010_10111_01110_01100_000_1_0_0_0 = .ok (.divI 23 14 12 true false false false) ∧
    decode 0b000010_0011_00110_00101_01000_000_0_0_1_0 = .ok (.divN 6 5 8 false false true false) ∧
    decode 0b000010_0100_01001_01010_00001_000_0_1_1_1 = .ok (.remI 9 10 1 false true true true) ∧
    decode 0b000010_0101_11111_00101_10111_000_0_1_1_1 = .ok (.remN 31 5 23 false true true true) ∧
    decode 0b000010_0110_01101_01101_00000000_0_0_1_1 = .ok (.clz 13 13 false true true) ∧
    decode 0b000010_0111_00010_00111_00000000_0_0_0_1 = .ok (.ctz 2 7 false false true) ∧
    decode 0b000010_1000_00110_00100_00000000_1_0_0_0 = .ok (.popc 6 4 true false false) ∧
    decode 0b000010_1001_00001_10011_00000000_0_0_0_1 = .ok (.brev 1 19 false false true) ∧
    decode 0b000010_1010_10100_00001_00000000_0_0_0_1 = .ok (.bswap 20 1 false false true) ∧
    decode 0b000010_1011_00101_10101_00000000_1_0_1_1 = .ok (.abs 5 21 true true true) ∧
    decode 0b000010_1100_10000_00100_00100_000_1_1_1_1 = .ok (.addsI 16 4 4 true true true true) ∧
    decode 0b000010_1101_01010_00011_00101_000_0_1_1_1 = .ok (.subsI 10 3 5 false true true true) := by
  decide +kernel

/-- Major 0x03, rows SEQ to CMOVZ of the opcode table. -/
theorem test_decode_03 :
    decode 0b000011_0000_11011_10111_00110_000_0_0_1_0 = .ok (.seq 27 23 6 false false true false) ∧
    decode 0b000011_0001_10111_10010_11110_000_0_1_0_1 = .ok (.sne 23 18 30 false true false true) ∧
    decode 0b000011_0010_10001_01100_11110_000_0_1_0_1 = .ok (.sltI 17 12 30 false true false true) ∧
    decode 0b000011_0011_10101_01000_10100_000_0_0_1_0 = .ok (.sltN 21 8 20 false false true false) ∧
    decode 0b000011_0100_00111_10001_10000_000_1_0_0_1 = .ok (.sleI 7 17 16 true false false true) ∧
    decode 0b000011_0101_10000_01001_00111_000_1_1_1_1 = .ok (.sleN 16 9 7 true true true true) ∧
    decode 0b000011_0110_00011_01000_00100_000_0_1_0_1 = .ok (.cmovnz 3 8 4 false true false true) ∧
    decode 0b000011_0111_00111_10000_10100_000_0_1_1_0 = .ok (.cmovz 7 16 20 false true true false) := by
  decide +kernel

/-- Major 0x04, rows ADDI to ROTLI of the opcode table. -/
theorem test_decode_04 :
    decode 0b000100_0000_11011_10110_0_11101001000 = .ok (.addi 27 22 false 1864) ∧
    decode 0b000100_0001_01101_11010_0_01111010100 = .ok (.andi 13 26 false 980) ∧
    decode 0b000100_0010_11101_00110_1_11001010001 = .ok (.ori 29 6 true 1617) ∧
    decode 0b000100_0011_10101_01011_0_11001101001 = .ok (.xori 21 11 false 1641) ∧
    decode 0b000100_0100_11111_11000_1_00000100101 = .ok (.shli 31 24 true 37) ∧
    decode 0b000100_0101_01101_11000_0_00000111111 = .ok (.shriI 13 24 false 63) ∧
    decode 0b000100_0110_00110_00110_0_00000000001 = .ok (.shriN 6 6 false 1) ∧
    decode 0b000100_0111_00101_10011_1_11001110100 = .ok (.sltiI 5 19 true 1652) ∧
    decode 0b000100_1000_10101_00101_1_10101000011 = .ok (.sltiN 21 5 true 1347) ∧
    decode 0b000100_1001_11110_01100_0_10001100100 = .ok (.seqi 30 12 false 1124) ∧
    decode 0b000100_1010_10010_00101_0_00000011110 = .ok (.muli 18 5 false 30) ∧
    decode 0b000100_1011_11010_11000_0_00000101000 = .ok (.rotli 26 24 false 40) := by
  decide +kernel

/-- Major 0x05, rows BFX_I to LEA16 of the opcode table. -/
theorem test_decode_05 :
    decode 0b000101_0000_11000_11110_0_00111_010100 = .ok (.bfxI 24 30 false 7 20) ∧
    decode 0b000101_0001_00111_11011_0_11111_100000 = .ok (.bfxN 7 27 false 31 32) ∧
    decode 0b000101_0010_00111_01010_0_00011_001001 = .ok (.bfi 7 10 false 3 9) ∧
    decode 0b000101_0011_01011_01001_10010_000_1_0_0_1 = .ok (.lea2 11 9 18 true false false true) ∧
    decode 0b000101_0100_11101_01111_10110_000_1_0_0_0 = .ok (.lea4 29 15 22 true false false false) ∧
    decode 0b000101_0101_11100_01111_11001_000_0_0_0_0 = .ok (.lea8 28 15 25 false false false false) ∧
    decode 0b000101_0110_00101_10000_10100_000_0_0_1_1 = .ok (.lea16 5 16 20 false false true true) := by
  decide +kernel

/-- Major 0x06, rows MOV to SRDV of the opcode table. -/
theorem test_decode_06 :
    decode 0b000110_0000_11010_11001_00000000_0_0_0_0 = .ok (.mov 26 25 false false) ∧
    decode 0b000110_0001_01000_000000_10000001000 = .ok (.srd 8 1032) ∧
    decode 0b000110_001000000_01001_0_10000000101 = .ok (.swr 9 false 1029) ∧
    decode 0b000110_0011_00100_0000000000000_1001 = .ok (.hrd 4 9) ∧
    decode 0b000110_010000000_01111_0_0000000_1101 = .ok (.hwr 15 false 13) ∧
    decode 0b000110_0101_11101_11110_0_0000000_1000 = .ok (.hadd 29 30 false 8) ∧
    decode 0b000110_0110_01011_00000000000000010 = .ok (.srdv 11) := by
  decide +kernel

/-- Major 0x07, rows FADD to FCVT_I64_F32 of the opcode table. -/
theorem test_decode_07 :
    decode 0b000111_00_01_10111_01001_01111_000_1_0_1_0 = .ok (.fadd .rn 23 9 15 true false true) ∧
    decode 0b000111_00_01_11011_01111_00101_000_1_0_1_1 = .ok (.fsub .rn 27 15 5 true false true) ∧
    decode 0b000111_01_11_01011_00011_10110_000_0_1_0_0 = .ok (.fmul .rs 11 3 22 false true false) ∧
    decode 0b000111_01_01_10110_01010_11010_000_0_0_1_1 = .ok (.fdiv .rn 22 10 26 false false true) ∧
    decode 0b000111_10_01_01001_11101_00101_000_1_0_0_0 = .ok (.ffma .rn 9 29 5 true false false) ∧
    decode 0b000111_10_11_11101_10000_00000000_0_0_0_1 = .ok (.fsqrt .rs 29 16 false false) ∧
    decode 0b000111_11_01_10111_01110_00000000_1_0_1_0 = .ok (.fcvtF32I64 .rn 23 14 true true) ∧
    decode 0b000111_11_11_00111_01100_00000000_1_0_0_1 = .ok (.fcvtI64F32 .rs 7 12 true false) := by
  decide +kernel

/-- Major 0x08, rows BR to BNONE of the opcode table. -/
theorem test_decode_08 :
    decode 0b001000_000000000_10111000110111110 = .ok (.br 94654) ∧
    decode 0b001000_0001_01100_00000100111111010 = .ok (.bz 12 2554) ∧
    decode 0b001000_0010_01011_10001101110101101 = .ok (.bnz 11 72621) ∧
    decode 0b001000_0011_01111_01110000110000100 = .ok (.blt 15 57732) ∧
    decode 0b001000_0100_10111_00000100101000011 = .ok (.bge 23 2371) ∧
    decode 0b001000_0101_00101_01010100110111011 = .ok (.bany 5 43451) ∧
    decode 0b001000_0110_00001_10011111101110100 = .ok (.ball 1 81780) ∧
    decode 0b001000_0111_00010_10000011001001000 = .ok (.bnone 2 67144) := by
  decide +kernel

/-- Major 0x09, rows CALL to TRAP of the opcode table. -/
theorem test_decode_09 :
    decode 0b001001_0000_11111_00010000011101011 = .ok (.call 31 8427) ∧
    decode 0b001001_0001_00100_11110_00000000_0_0_0_0 = .ok (.callr 4 30 false false) ∧
    decode 0b001001_001000000_00011_00000000_1_0_1_0 = .ok (.ret 3 true true) ∧
    decode 0b001001_0011000000000000000_001_0000 = .ok (.exit 1) ∧
    decode 0b001001_01000000000000000000000000 = .ok (.yield) ∧
    decode 0b001001_0101_11101_11001_00110_000_1_0_1_0 = .ok (.enq 29 25 6 true false true) ∧
    decode 0b001001_011000000000000_11011001100 = .ok (.trap 1740) := by
  decide +kernel

/-- Major 0x0A, rows PAND to PFIRST of the opcode table. -/
theorem test_decode_0a :
    decode 0b001010_0000_00110_00110_00011_011_0000 = .ok (.pand 6 6 3 3) ∧
    decode 0b001010_0001_00101_00101_00010_101_0000 = .ok (.por 5 5 2 5) ∧
    decode 0b001010_0010_00011_00000_00111_011_0000 = .ok (.pxor 3 0 7 3) ∧
    decode 0b001010_0011_00011_00001_00010_111_0000 = .ok (.pandn 3 1 2 7) ∧
    decode 0b001010_0100_00111_00110_00000_100_0000 = .ok (.pnot 7 6 4) ∧
    decode 0b001010_0101_00101_00011_00000_011_0000 = .ok (.pmov 5 3 3) ∧
    decode 0b001010_0110_00111_00001_00000_110_0_0_1_0 = .ok (.pset 7 1 6 false true) ∧
    decode 0b001010_0111_00011_00100_00000_111_0000 = .ok (.pfirst 3 4 7) := by
  decide +kernel

/-- Major 0x10, rows VADD to VSHR_N of the opcode table. -/
theorem test_decode_10 :
    decode 0b0100_00_0000_00011_01001_11100_001_1_0_1_1 = .ok (.vadd .w8 3 9 28 1 true false true true) ∧
    decode 0b0100_00_0010_00110_00111_11110_011_1_0_1_1 = .ok (.vmul .w8 6 7 30 3 true false true true) ∧
    decode 0b0100_00_0100_00001_11000_10001_101_0_1_0_0 = .ok (.vminN .w8 1 24 17 5 false true false) ∧
    decode 0b0100_00_1010_01001_01100_11111_011_1_0_0_0 = .ok (.vavgN .w8 9 12 31 3 true false false) ∧
    decode 0b0100_00_1101_00101_01101_10011_001_1_0_1_0 = .ok (.vshrN .w8 5 13 19 1 true false true) := by
  decide +kernel

/-- Major 0x11, rows VSUB to VNEG of the opcode table. -/
theorem test_decode_11 :
    decode 0b0100_01_0001_10100_00101_00010_101_0_0_0_1 = .ok (.vsub .w16 20 5 2 5 false false false true) ∧
    decode 0b0100_01_0101_00100_10110_11011_110_1_1_1_0 = .ok (.vmaxI .w16 4 22 27 6 true true true) ∧
    decode 0b0100_01_0111_01100_00010_11011_010_0_0_1_0 = .ok (.vabsdI .w16 12 2 27 2 false false true) ∧
    decode 0b0100_01_1000_00110_00010_00011_110_1_1_0_0 = .ok (.vabsdN .w16 6 2 3 6 true true false) ∧
    decode 0b0100_01_1011_00111_01100_00110_001_1_1_0_1 = .ok (.vshl .w16 7 12 6 1 true true false true) ∧
    decode 0b0100_01_1100_10001_10101_00111_010_0_0_1_0 = .ok (.vshrI .w16 17 21 7 2 false false true) ∧
    decode 0b0100_01_1110_10101_01000_00000_001_0_0_1_1 = .ok (.vneg .w16 21 8 1 false true true) := by
  decide +kernel

/-- Major 0x12, rows VMIN_I to VABS of the opcode table. -/
theorem test_decode_12 :
    decode 0b0100_10_0011_10110_00110_01001_011_0_1_0_0 = .ok (.vminI .w32 22 6 9 3 false true false) ∧
    decode 0b0100_10_0110_01010_10111_00111_010_1_0_0_0 = .ok (.vmaxN .w32 10 23 7 2 true false false) ∧
    decode 0b0100_10_1001_01010_00010_01111_010_0_1_1_0 = .ok (.vavgI .w32 10 2 15 2 false true true) ∧
    decode 0b0100_10_1111_10000_00101_00000_011_0_0_0_1 = .ok (.vabs .w32 16 5 3 false false true) := by
  decide +kernel

/-- Major 0x13, rows VADD_I64 to VPOPC of the opcode table. -/
theorem test_decode_13 :
    decode 0b010011_0000_11000_10111_11010_101_0_0_0_0 = .ok (.vaddI64 24 23 26 5 false false false false) ∧
    decode 0b010011_0001_00001_00010_00101_110_1_0_1_1 = .ok (.vsubI64 1 2 5 6 true false true true) ∧
    decode 0b010011_0010_10010_00010_10101_001_0_1_1_0 = .ok (.vmulI64 18 2 21 1 false true true false) ∧
    decode 0b010011_0011_01111_11010_00011_110_0_0_1_0 = .ok (.vminI64 15 26 3 6 false false true) ∧
    decode 0b010011_0100_01001_11010_00011_111_1_0_0_0 = .ok (.vminN64 9 26 3 7 true false false) ∧
    decode 0b010011_0101_01000_11000_10101_100_1_1_0_0 = .ok (.vmaxI64 8 24 21 4 true true false) ∧
    decode 0b010011_0110_10000_11110_10110_011_0_0_0_0 = .ok (.vmaxN64 16 30 22 3 false false false) ∧
    decode 0b010011_0111_10100_00101_01011_011_1_0_0_1 = .ok (.vshlI64 20 5 11 3 true false false true) ∧
    decode 0b010011_1000_00010_10000_01001_110_0_0_1_0 = .ok (.vshrI64 2 16 9 6 false false true) ∧
    decode 0b010011_1001_01010_10111_10001_011_1_1_1_0 = .ok (.vshrN64 10 23 17 3 true true true) ∧
    decode 0b010011_1010_11001_00100_11101_101_0_1_0_0 = .ok (.vand 25 4 29 5 false true false) ∧
    decode 0b010011_1011_11110_10000_00001_011_1_0_1_0 = .ok (.vor 30 16 1 3 true false true) ∧
    decode 0b010011_1100_01001_01101_00111_010_0_0_0_0 = .ok (.vxor 9 13 7 2 false false false) ∧
    decode 0b010011_1101_11000_10001_01001_011_0_1_0_0 = .ok (.vandn 24 17 9 3 false true false) ∧
    decode 0b010011_1110_10111_01100_00000_010_1_0_1_0 = .ok (.vnot 23 12 2 true true) ∧
    decode 0b010011_1111_01101_00001_00000_010_0_0_1_0 = .ok (.vpopc 13 1 2 false true) := by
  decide +kernel

/-- Major 0x14, rows VADDI to VSHRI_N of the opcode table. -/
theorem test_decode_14 :
    decode 0b010100_11_00_01101_01010_110_0_01101011 = .ok (.vaddi .w64 13 10 6 false 107) ∧
    decode 0b010100_10_01_01101_01011_001_1_00000101 = .ok (.vshli .w32 13 11 1 true 5) ∧
    decode 0b010100_10_10_11001_01011_111_1_00000110 = .ok (.vshriI .w32 25 11 7 true 6) ∧
    decode 0b010100_01_11_10111_00001_110_1_00000011 = .ok (.vshriN .w16 23 1 6 true 3) := by
  decide +kernel

/-- Major 0x15, rows VCEQ to VCLE of the opcode table. -/
theorem test_decode_15 :
    decode 0b010101_10_00_00011_01101_01101_111_0_1_1_1 = .ok (.vceq .w32 3 13 13 7 false true true true) ∧
    decode 0b010101_00_01_00001_00100_00010_111_1_0_0_1 = .ok (.vcne .w8 1 4 2 7 true false false true) ∧
    decode 0b010101_11_10_00001_01011_00111_111_1_1_0_1 = .ok (.vclt .w64 1 11 7 7 true true false true) ∧
    decode 0b010101_01_11_00000_00011_00010_110_1_1_0_1 = .ok (.vcle .w16 0 3 2 6 true true false true) := by
  decide +kernel

/-- Major 0x16, rows VDOT4_I8 to VMAD_I64 of the opcode table. -/
theorem test_decode_16 :
    decode 0b010110_0000_10000_00010_11110_101_0_0_1_1 = .ok (.vdot4I8 16 2 30 5 false false true true) ∧
    decode 0b010110_0001_01011_01010_01010_011_1_1_0_1 = .ok (.vdot4N8 11 10 10 3 true true false true) ∧
    decode 0b010110_0010_10000_10010_10110_100_0_0_0_0 = .ok (.vdot2I16 16 18 22 4 false false false false) ∧
    decode 0b010110_0011_00111_10001_11101_111_1_0_1_1 = .ok (.vdot2N16 7 17 29 7 true false true true) ∧
    decode 0b010110_0100_11001_01111_01110_010_0_0_0_0 = .ok (.vmadI16 25 15 14 2 false false false false) ∧
    decode 0b010110_0101_01011_10010_00011_011_0_1_1_0 = .ok (.vmadI32 11 18 3 3 false true true false) ∧
    decode 0b010110_0110_11101_00001_11000_111_1_1_1_0 = .ok (.vmadI64 29 1 24 7 true true true false) := by
  decide +kernel

/-- Major 0x17, rows VADDMIN_I16 to VSEL of the opcode table. -/
theorem test_decode_17 :
    decode 0b010111_0000_01101_01001_01011_111_0_1_1_1 = .ok (.vaddminI16 13 9 11 7 false true true true) ∧
    decode 0b010111_0001_00101_10110_10001_101_0_0_1_0 = .ok (.vaddmaxI16 5 22 17 5 false false true false) ∧
    decode 0b010111_0010_01101_01101_10101_100_1_1_0_0 = .ok (.vaddminI32 13 13 21 4 true true false false) ∧
    decode 0b010111_0011_00010_01110_10111_111_1_1_0_0 = .ok (.vaddmaxI32 2 14 23 7 true true false false) ∧
    decode 0b010111_0100_01101_11110_11110_111_1_1_0_0 = .ok (.vaddminF32 13 30 30 7 true true false) ∧
    decode 0b010111_0101_11010_00100_01000_010_0_0_1_0 = .ok (.vaddmaxF32 26 4 8 2 false false true) ∧
    decode 0b010111_0110_00011_10010_11001_001_0_0_0_0 = .ok (.vsel 3 18 25 1 false false false) := by
  decide +kernel

/-- Major 0x18, rows VADD_F32 to VFCEQ_F32 of the opcode table. -/
theorem test_decode_18 :
    decode 0b011000_00_00_10101_10111_01010_010_1_1_0_0 = .ok (.vaddF32 .mode 21 23 10 2 true true false) ∧
    decode 0b011000_00_00_00011_01010_10001_101_0_1_1_1 = .ok (.vsubF32 .mode 3 10 17 5 false true true) ∧
    decode 0b011000_01_01_11010_10100_00001_001_1_1_1_0 = .ok (.vmulF32 .rn 26 20 1 1 true true true) ∧
    decode 0b011000_10_10_10101_11011_11101_010_1_0_0_0 = .ok (.vdivF32 .rz 21 27 29 2 true false false) ∧
    decode 0b011000_10_00_11111_01110_00000_110_1_0_0_1 = .ok (.vsqrtF32 .mode 31 14 6 true false) ∧
    decode 0b011000_1100_00001_00111_10000_110_1_0_1_0 = .ok (.vminF32 1 7 16 6 true false true) ∧
    decode 0b011000_1101_01000_10110_01110_011_0_1_0_0 = .ok (.vmaxF32 8 22 14 3 false true false) ∧
    decode 0b011000_1110_00111_01011_10111_100_1_1_0_0 = .ok (.vfcltF32 7 11 23 4 true true false) ∧
    decode 0b011000_1110_00001_11010_01010_110_0_0_1_1 = .ok (.vfcleF32 1 26 10 6 false false true) ∧
    decode 0b011000_1111_00111_01010_11001_111_0_0_1_0 = .ok (.vfceqF32 7 10 25 7 false false true) := by
  decide +kernel

/-- Major 0x19, rows VFMA_F32 to VFMAW of the opcode table. -/
theorem test_decode_19 :
    decode 0b011001_00_01_01001_11001_11101_011_0_1_0_0 = .ok (.vfmaF32 .rn 9 25 29 3 false true false false) ∧
    decode 0b011001_01_11_01110_11110_10110_001_0_1_0_0 = .ok (.vfmsF32 .rs 14 30 22 1 false true false false) ∧
    decode 0b011001_10_00_10100_00101_01110_001_0_0_1_1 = .ok (.vfmaw .mode 20 5 14 1 false false true true) := by
  decide +kernel

/-- Major 0x1A, rows VSUB_HALF to VFCEQ_HALF of the opcode table. -/
theorem test_decode_1a :
    decode 0b01101_0_00_10_10110_11000_01101_111_1_1_1_1 = .ok (.vsubHalf .bf16 .rz 22 24 13 7 true true true) ∧
    decode 0b01101_0_01_00_00001_00011_01001_001_1_1_0_0 = .ok (.vmulHalf .bf16 .mode 1 3 9 1 true true false) ∧
    decode 0b01101_0_10_11_01100_11001_11011_011_1_0_0_0 = .ok (.vfmaHalf .bf16 .rs 12 25 27 3 true false false) ∧
    decode 0b01101_0_1101_01111_00011_11010_001_1_0_0_0 = .ok (.vmaxHalf .bf16 15 3 26 1 true false false) ∧
    decode 0b01101_0_1111_00000_10111_11111_100_1_1_1_0 = .ok (.vfceqHalf .bf16 0 23 31 4 true true true) := by
  decide +kernel

/-- Major 0x1B, rows VADD_HALF to VFCLE_HALF of the opcode table. -/
theorem test_decode_1b :
    decode 0b01101_1_00_00_00011_11110_00110_011_0_0_1_0 = .ok (.vaddHalf .f16 .mode 3 30 6 3 false false true) ∧
    decode 0b01101_1_10_01_01100_10010_11110_100_0_1_1_1 = .ok (.vfnmaHalf .f16 .rn 12 18 30 4 false true true) ∧
    decode 0b01101_1_1100_00001_10101_01110_010_1_0_1_0 = .ok (.vminHalf .f16 1 21 14 2 true false true) ∧
    decode 0b01101_1_1110_00100_01001_01011_101_0_1_1_0 = .ok (.vfcltHalf .f16 4 9 11 5 false true true) ∧
    decode 0b01101_1_1110_00010_00001_11000_111_0_0_0_1 = .ok (.vfcleHalf .f16 2 1 24 7 false false false) := by
  decide +kernel

/-- Major 0x1C, rows VCVT to VCVT of the opcode table. -/
theorem test_decode_1c :
    decode 0b011100_0100_10000_00101_1000_0_010_0_10_0 = .ok (.vcvt .i32 16 5 .f32 2 false .rz false) := by
  decide +kernel

/-- Major 0x1D, rows VQPACK to VQSCALE of the opcode table. -/
theorem test_decode_1d :
    decode 0b011101_00_01_01011_11100_00010_100_1_0_0_0 = .ok (.vqpack .rn 11 28 .e4m3 4 true false false) ∧
    decode 0b011101_01_11_11001_00110_00001_100_0_0_0_1 = .ok (.vqunpack .rs 25 6 .b32 4 false false true) ∧
    decode 0b011101_10_10_00110_01110_11101_001_0_1_0_0 = .ok (.vqscale .rz 6 14 29 1 false true false) := by
  decide +kernel

/-- Major 0x1E, rows VRCP to VERF of the opcode table. -/
theorem test_decode_1e :
    decode 0b011110_0000_00111_00100_00000_100_1_0_1_0 = .ok (.vrcp 7 4 4 true true) ∧
    decode 0b011110_0001_00110_01000_00000_010_1_0_1_0 = .ok (.vrsqrt 6 8 2 true true) ∧
    decode 0b011110_0010_10100_11101_00000_110_0_0_0_0 = .ok (.vsqrtSfu 20 29 6 false false) ∧
    decode 0b011110_0011_11001_11011_00000_011_1_0_1_0 = .ok (.vexp2 25 27 3 true true) ∧
    decode 0b011110_0100_10011_01001_00000_011_1_0_1_0 = .ok (.vlog2 19 9 3 true true) ∧
    decode 0b011110_0101_00111_01111_00000_010_0_0_0_0 = .ok (.vsin 7 15 2 false false) ∧
    decode 0b011110_0110_01000_00101_00000_011_0_0_1_0 = .ok (.vcos 8 5 3 false true) ∧
    decode 0b011110_0111_00011_01101_00000_011_0_0_0_0 = .ok (.vtanh 3 13 3 false false) ∧
    decode 0b011110_1000_10101_11010_00000_001_1_0_0_0 = .ok (.vsigm 21 26 1 true false) ∧
    decode 0b011110_1001_00100_00001_00000_100_0_0_1_0 = .ok (.verf 4 1 4 false true) := by
  decide +kernel

/-- Major 0x1F, rows VCMUL_F32 to VBFLY_BF16 of the opcode table. -/
theorem test_decode_1f :
    decode 0b011111_0000_11110_01100_00010_011_0_0_0_0 = .ok (.vcmulF32 30 12 2 3 false false false) ∧
    decode 0b011111_0001_00111_10100_11011_101_0_0_1_0 = .ok (.vcmulcF32 7 20 27 5 false false true) ∧
    decode 0b011111_0010_10001_11100_00110_100_1_0_0_0 = .ok (.vcmulBf16 17 28 6 4 true false false) ∧
    decode 0b011111_0011_10101_10100_10111_101_1_0_0_0 = .ok (.vbflyF32 21 20 23 5 true false false) ∧
    decode 0b011111_0100_01100_01011_00101_001_0_1_0_0 = .ok (.vbflyBf16 12 11 5 1 false true false) := by
  decide +kernel

/-- Major 0x20, rows VLREAD to VROTX of the opcode table. -/
theorem test_decode_20 :
    decode 0b100000_0000_10100_11000_10101_010_0_1_1_0 = .ok (.vlread 20 24 21 2 false true true) ∧
    decode 0b100000_0001_10110_01100_00110_101_1_0_0_0 = .ok (.vshlx 22 12 6 5 true false false) ∧
    decode 0b100000_0010_00010_11010_10000_101_1_0_1_0 = .ok (.vshrx 2 26 16 5 true false true) ∧
    decode 0b100000_0011_00100_11010_01101_110_0_0_0_0 = .ok (.vshly 4 26 13 6 false false false) ∧
    decode 0b100000_0100_01101_10111_01001_100_1_1_1_0 = .ok (.vshry 13 23 9 4 true true true) ∧
    decode 0b100000_0101_11111_00010_01010_110_1_1_1_0 = .ok (.vsubsel 31 2 10 6 true true true) ∧
    decode 0b100000_0110_00001_11100_11001_111_1_0_1_0 = .ok (.vrotx 1 28 25 7 true false true) := by
  decide +kernel

/-- Major 0x21, rows VMATCH to VPCOUNT of the opcode table. -/
theorem test_decode_21 :
    decode 0b100001_0000_11000_01101_00110_001_1_0_0_0 = .ok (.vmatch 24 13 .i64 1 true false) ∧
    decode 0b100001_0001_01110_00100_00000_111_0000 = .ok (.vballot 14 4 7) ∧
    decode 0b100001_0010_00011_01101_00000_101_1_0_1_0 = .ok (.vredaddI64 3 13 5 true true) ∧
    decode 0b100001_0011_11001_00110_00000_010_0_0_0_0 = .ok (.vredaddF32 25 6 2 false false) ∧
    decode 0b100001_0100_10010_00101_00000_110_1_0_0_0 = .ok (.vredminI64 18 5 6 true false) ∧
    decode 0b100001_0101_10011_10100_00000_011_0_0_0_0 = .ok (.vredmaxI64 19 20 3 false false) ∧
    decode 0b100001_0110_01100_01010_00000_010_0_0_0_0 = .ok (.vredminF32 12 10 2 false false) ∧
    decode 0b100001_0111_00100_01101_00000_100_0_0_1_0 = .ok (.vredmaxF32 4 13 4 false true) ∧
    decode 0b100001_1000_00101_11011_00000_001_1_0_1_0 = .ok (.vscanaddI64 5 27 1 true true) ∧
    decode 0b100001_1001_00010_10100_00000_110_1_0_0_0 = .ok (.vscanaddF32 2 20 6 true false) ∧
    decode 0b100001_1010_11101_10111_00000_101_0_0_0_0 = .ok (.vscanmaxI64 29 23 5 false false) ∧
    decode 0b100001_1011_10100_00101_00000_101_0000 = .ok (.vpcount 20 5 5) := by
  decide +kernel

/-- Major 0x22, rows VMOV to VMOVI of the opcode table. -/
theorem test_decode_22 :
    decode 0b100010_0000_11100_00111_00000_111_1_0_0_0 = .ok (.vmov 28 7 7 true false) ∧
    decode 0b100010_0001_10011_00111_00000_001_1_0_0_0 = .ok (.vbcast 19 7 1 true false) ∧
    decode 0b100010_0010_01101_01100_00100_000_0_0_0_0 = .ok (.vextr 13 12 4 false false false) ∧
    decode 0b100010_0011_00010_00000_101_0_11011000 = .ok (.vmovi 2 5 216) := by
  decide +kernel

/-- Major 0x24, rows PLD to PWIN_MIN_F32 of the opcode table. -/
theorem test_decode_24 :
    decode 0b100100_0000_11001_111_010_1010110_111_1 = .ok (.pld 25 7 2 86 7 true) ∧
    decode 0b100100_0001_00100_000000_0110010_101_1 = .ok (.pst 4 50 5 true) ∧
    decode 0b100100_0010_10010_100_000_1010001_111_1 = .ok (.pwinSumI32 18 4 81 7 true) ∧
    decode 0b100100_0011_10101_100_000_0101000_101_0 = .ok (.pwinSumF32 21 4 40 5 false) ∧
    decode 0b100100_0100_01110_100_000_1010101_011_1 = .ok (.pwinMaxI32 14 4 85 3 true) ∧
    decode 0b100100_0101_10001_100_000_0010111_001_0 = .ok (.pwinMaxF32 17 4 23 1 false) ∧
    decode 0b100100_0110_10100_100_000_0111100_010_1 = .ok (.pwinMinI32 20 4 60 2 true) ∧
    decode 0b100100_0111_11001_100_000_1100100_111_1 = .ok (.pwinMinF32 25 4 100 7 true) := by
  decide +kernel

/-- Major 0x25, rows SCROLL to SCROLL_RESUME of the opcode table. -/
theorem test_decode_25 :
    decode 0b100101_0000_11011_0011_11_10_00100_0000 = .ok (.scroll 27 3 .my .fill 4) ∧
    decode 0b100101_0001_00011_1001_10_10_01100_0000 = .ok (.scrollResume 3 9 .py .fill 12) := by
  decide +kernel

/-- Major 0x26, rows PZERO to PCLIP of the opcode table. -/
theorem test_decode_26 :
    decode 0b100110_000000000_00011_00000000_1_0_0_0 = .ok (.pzero 3 true false) ∧
    decode 0b100110_000100000_00010_10101_000_0_0_1_0 = .ok (.pfill 2 21 false false true) ∧
    decode 0b100110_001000000_11001_11000_000_0_0_1_0 = .ok (.pcopy 25 24 false false true) ∧
    decode 0b100110_0011_10101_11111_11010_000_0_0_0_0 = .ok (.phnd 21 31 26 false false false) ∧
    decode 0b100110_0100_10100_11000_10111_000_0_0_0_0 = .ok (.pclip 20 24 23 false false false) := by
  decide +kernel

/-- Major 0x28, rows VGATHER to VGATHER of the opcode table. -/
theorem test_decode_28 :
    decode 0b101000_1_0_10_11111_11010_11110_111_0_0_00 = .ok (.vgather true .w32 31 26 30 7 false false .none) := by
  decide +kernel

/-- Major 0x29, rows VSCATTER to VSCATTER of the opcode table. -/
theorem test_decode_29 :
    decode 0b101001_1_0_10_00110_01011_11101_101_1_1_01 = .ok (.vscatter true .w32 6 11 29 5 true true .team) := by
  decide +kernel

/-- Major 0x2A, rows LD to ST of the opcode table. -/
theorem test_decode_2a :
    decode 0b101010_1_0_01_00111_10011_01001_000_0_1_10 = .ok (.ld true .w16 7 19 9 false true .dev) ∧
    decode 0b101010_0_1_01_00110_01101_00110_000_1_1_11 = .ok (.st false .w16 6 13 6 true true .sys) := by
  decide +kernel

/-- Major 0x2B, rows TLD to LFLUSH of the opcode table. -/
theorem test_decode_2b :
    decode 0b101011_0000_00110_11010_11110_0000_1_00 = .ok (.tld 6 26 30 true .none) ∧
    decode 0b101011_0001_11001_10001_01100_000_1_1_00 = .ok (.tst 25 17 12 true true .none) ∧
    decode 0b101011_001000000_01001_000000000000 = .ok (.lflush 9) := by
  decide +kernel

/-- Major 0x2C, rows AADD to AADDF of the opcode table. -/
theorem test_decode_2c :
    decode 0b101100_0000_10010_10101_11100_000_1_1_10 = .ok (.aadd 18 21 28 true true .dev) ∧
    decode 0b101100_0001_01101_01100_10011_000_0_1_10 = .ok (.aand 13 12 19 false true .dev) ∧
    decode 0b101100_0010_11001_00011_01111_000_0_0_00 = .ok (.aor 25 3 15 false false .none) ∧
    decode 0b101100_0011_01010_11011_10001_000_1_1_10 = .ok (.axor 10 27 17 true true .dev) ∧
    decode 0b101100_0100_11000_00001_11000_000_0_0_01 = .ok (.aminI 24 1 24 false false .team) ∧
    decode 0b101100_0101_01010_10100_10101_000_1_1_10 = .ok (.aminN 10 20 21 true true .dev) ∧
    decode 0b101100_0110_11101_00010_00101_000_1_0_00 = .ok (.amaxI 29 2 5 true false .none) ∧
    decode 0b101100_0111_00001_00010_00001_000_1_1_00 = .ok (.amaxN 1 2 1 true true .none) ∧
    decode 0b101100_1000_10001_01100_10010_000_0_1_10 = .ok (.aswap 17 12 18 false true .dev) ∧
    decode 0b101100_1001_11110_00101_00111_000_1_1_01 = .ok (.acas 30 5 7 true true .team) ∧
    decode 0b101100_1010_00101_00001_11110_0001_0_01 = .ok (.aaddf 5 1 30 false .team) := by
  decide +kernel

/-- Major 0x2D, rows LDS to STS of the opcode table. -/
theorem test_decode_2d :
    decode 0b101101_1_0_00_00011_10101_00101_111_1_000 = .ok (.lds true .w8 3 21 5 7 true) ∧
    decode 0b101101_1_1_10_11111_00001_00010_110_1_000 = .ok (.sts true .w32 31 1 2 6 true) := by
  decide +kernel

/-- Major 0x2E, rows PFC to CWBINV of the opcode table. -/
theorem test_decode_2e :
    decode 0b101110_000000000_10100_10101_0000000 = .ok (.pfc 20 21) ∧
    decode 0b101110_000100000_10011_01111_0000000 = .ok (.pfd 19 15) ∧
    decode 0b101110_001000000_10100_11110_0000000 = .ok (.cwb 20 30) ∧
    decode 0b101110_001100000_10001_11000_0000000 = .ok (.cinv 17 24) ∧
    decode 0b101110_010000000_10000_01000_0000000 = .ok (.cwbinv 16 8) := by
  decide +kernel

/-- Major 0x30, rows CPY_GP to CPY_GG of the opcode table. -/
theorem test_decode_30 :
    decode 0b110000_0000_11101_111010_00001_000000 = .ok (.cpyGp 29 58 1) ∧
    decode 0b110000_0001_11101_000100_10010_000000 = .ok (.cpyPg 29 4 18) ∧
    decode 0b110000_0010_11101_011010_00110_000000 = .ok (.cpyPp 29 26 6) ∧
    decode 0b110000_0011_11101_001011_00010_000000 = .ok (.cpyGg 29 11 2) := by
  decide +kernel

/-- Major 0x31, rows WAIT_ANY to TAGCLR of the opcode table. -/
theorem test_decode_31 :
    decode 0b110001_0000_11110_11001_000000000000 = .ok (.waitAny 30 25) ∧
    decode 0b110001_0001_00100_00001_000000000000 = .ok (.waitAll 4 1) ∧
    decode 0b110001_0010_10100_10010_000000000000 = .ok (.tagfind 20 18) ∧
    decode 0b110001_001100000_10110_000000000000 = .ok (.tagclr 22) := by
  decide +kernel

/-- Major 0x32, rows NMV to NMWRM of the opcode table. -/
theorem test_decode_32 :
    decode 0b110010_0000_00001_001101_00101_000000 = .ok (.nmv 1 13 5) ∧
    decode 0b110010_0001_11101_001101_10001_000000 = .ok (.nmrd 29 13 17) ∧
    decode 0b110010_0010_11101_101010_10001_000000 = .ok (.nmwr 29 42 17) ∧
    decode 0b110010_0011_11101_101010_01110_000000 = .ok (.nmwrm 29 42 14) := by
  decide +kernel

/-- Major 0x34, rows MMA to MMA of the opcode table. -/
theorem test_decode_34 :
    decode 0b110100_0000_11101_0011_00_001101_011_0_1 = .ok (.mma 29 3 .m32 13 3 false true) := by
  decide +kernel

/-- Major 0x35, rows ACCZ to ACCRD of the opcode table. -/
theorem test_decode_35 :
    decode 0b110101_000000000_0100_0111_00000_110_0 = .ok (.accz 4 7 6) ∧
    decode 0b110101_0001_01001_0010_0011_011_00_100_0 = .ok (.accld 9 2 3 3 .mode 4) ∧
    decode 0b110101_0010_01001_0010_0011_010_01_110_0 = .ok (.accrd 9 2 3 2 .rn 6) := by
  decide +kernel

/-- Major 0x36, rows MFENCE to MWAIT of the opcode table. -/
theorem test_decode_36 :
    decode 0b110110_00000000000000000000000000 = .ok (.mfence) ∧
    decode 0b110110_000100000_1011_0000000000000 = .ok (.mwait 11) := by
  decide +kernel

/-- Major 0x38, rows BAR to BAR_WAIT of the opcode table. -/
theorem test_decode_38 :
    decode 0b111000_0000_100_0000000000000000000 = .ok (.bar 4) ∧
    decode 0b111000_0001_011_0000000000000000000 = .ok (.barArrive 3) ∧
    decode 0b111000_0010_010_0000000000000000000 = .ok (.barWait 2) := by
  decide +kernel

/-- Major 0x39, rows FENCE to FENCE of the opcode table. -/
theorem test_decode_39 :
    decode 0b111001_0000_001_10_00000000000000000 = .ok (.fence .group .rel) := by
  decide +kernel

/-- Major 0x3A, rows RING_WAIT to RING_TEST of the opcode table. -/
theorem test_decode_3a :
    decode 0b111010_000000000_0100_110_0_000000000 = .ok (.ringWait 4 6 false) ∧
    decode 0b111010_000100000_0010_011_0000000000 = .ok (.ringSig 2 3) ∧
    decode 0b111010_0010_11101_1100_110_1_000000000 = .ok (.ringTest 29 12 6 true) := by
  decide +kernel

/-- Major 0x3B, rows SEND to CHSTAT of the opcode table. -/
theorem test_decode_3b :
    decode 0b111011_000000000_11110_00010_1_000000 = .ok (.send 30 2 true) ∧
    decode 0b111011_0001_10101_00000_10010_0000000 = .ok (.recv 21 18) ∧
    decode 0b111011_0010_10110_01011_10110_1_000000 = .ok (.trysend 22 11 22 true) ∧
    decode 0b111011_0011_01010_00000_10101_0000000 = .ok (.chstat 10 21) := by
  decide +kernel

/-- Major 0x3C, rows ACQ_W to PDROP of the opcode table. -/
theorem test_decode_3c :
    decode 0b111100_000000000_11110_001_000000000 = .ok (.acqW 30 .plane) ∧
    decode 0b111100_0001_00011_11101_100_000000000 = .ok (.acqF 3 29 .ring) ∧
    decode 0b111100_001000000_00001_001_000000000 = .ok (.rel 1 .plane) ∧
    decode 0b111100_001100000_01001_000000000000 = .ok (.setperf 9) ∧
    decode 0b111100_010000000_11101_000000000000 = .ok (.setperfV 29) ∧
    decode 0b111100_010100000_01000_000000000000 = .ok (.pdrop 8) := by
  decide +kernel

/-- Major 0x3D, rows CTXRD to ASGEN of the opcode table. -/
theorem test_decode_3d :
    decode 0b111101_0000_11011_11000_00111_0000000 = .ok (.ctxrd 27 24 7) ∧
    decode 0b111101_0001_11111_00110_11000_0000000 = .ok (.ctxwr 31 6 24) ∧
    decode 0b111101_00100000000000000000000000 = .ok (.idem) ∧
    decode 0b111101_00110000000000000000000000 = .ok (.idemEnd) ∧
    decode 0b111101_010000000_11110_01011_0000000 = .ok (.tret 30 11) ∧
    decode 0b111101_0101_00100_10100_000000000000 = .ok (.vkill 4 20) ∧
    decode 0b111101_0110_00111_01000_000000000000 = .ok (.skill 7 8) ∧
    decode 0b111101_1000_10100_01000_01101_0000000 = .ok (.sret 20 8 13) ∧
    decode 0b111101_1001_11110_11100_000000000000 = .ok (.grpsusp 30 28) ∧
    decode 0b111101_1010_10101_11110_000000000000 = .ok (.grpres 21 30) ∧
    decode 0b111101_1011_10111_10110_11011_0000000 = .ok (.asgen 23 22 27) := by
  decide +kernel

/-- Major 0x3E, rows RPT to RPT of the opcode table. -/
theorem test_decode_3e :
    decode 0b111110_111111_1_1_0_01_000000000000000 = .ok (.rpt 63 true true false 1) := by
  decide +kernel

/-- Major 0x3F, rows WIDE to SCHED of the opcode table. -/
theorem test_decode_3f :
    decode 0b111111_00_011011111110110101000010 = .ok (.wide 7335234) ∧
    decode 0b111111_01_011_10_100_1_000000000000000 = .ok (.mod (.at .cluster) .release .keep true) ∧
    decode 0b111111_10_0_10_00000_1001111101100101 = .ok (.sched false 2 40805) := by
  decide +kernel

/-! ### Words that the manual encodes (spec/04, 05, 06, 07, 09, 10, 12, 13, 14, 15, 16, 17, 19, 21, the listings' comments) -/

theorem test_manual_words_0 :
    decode 0x48061124 = .ok (.vadd .w32 3 1 2 2 false true false false) ∧
    decode 0xFC000012 = .ok (.wide 0x12) ∧
    decode 0x100A0345 = .ok (.addi 5 0 false 0x345) ∧
    decode 0x100A07FD = .ok (.addi 5 0 false 0x7FD) ∧
    decode 0xF84E0000 = .ok (.rpt 4 true true true 0) ∧
    decode 0x60100200 = .ok (.vaddF32 .mode 8 0 4 0 false false false) ∧
    decode 0xF5487000 = .ok (.vkill 4 7) ∧
    decode 0xF592C000 = .ok (.skill 9 12) ∧
    decode 0xF0008000 = .ok (.acqW 8 .pin) ∧
    decode 0xF04A6400 = .ok (.acqF 5 6 .acc) ∧
    decode 0xF0809200 = .ok (.rel 9 .plane) ∧
    decode 0x144852C8 = .ok (.bfxN 4 5 false 11 8) ∧
    decode 0x040E7409 = .ok (.add 7 7 8 true false false true) ∧
    decode 0x29041000 = .ok (.pnot 2 1 0) ∧
    decode 0x21C20002 = .ok (.bnone 1 2) := by
  decide +kernel

theorem test_manual_words_1 :
    decode 0x52021064 = .ok (.vaddi .w32 1 1 0 false 100) ∧
    decode 0x56821100 = .ok (.vclt .w32 1 1 2 0 false false false false) ∧
    decode 0x5C0A3204 = .ok (.vaddminI16 5 3 4 0 false true false false) ∧
    decode 0x644C4280 = .ok (.vfmaF32 .rn 6 4 5 0 false false false false) ∧
    decode 0x72441802 = .ok (.vcvt .bf16 2 1 .f32 0 false .rn false) ∧
    decode 0x744A4000 = .ok (.vqpack .rn 5 4 .b16 0 false false false) ∧
    decode 0x78C62000 = .ok (.vexp2 3 2 0 false false) ∧
    decode 0x7CD48180 = .ok (.vbflyF32 10 8 3 0 false false false) ∧
    decode 0x808E6490 = .ok (.vshrx 7 6 9 1 false false false) ∧
    decode 0x84061430 = .ok (.vmatch 3 1 .f32 3 false false) ∧
    decode 0x84C82000 = .ok (.vredaddF32 4 2 0 false false) ∧
    decode 0x940C6000 = .ok (.scroll 6 3 .px .wrap 0) ∧
    decode 0x940C5C90 = .ok (.scroll 6 2 .my .fill 9) ∧
    decode 0x940E4A00 = .ok (.scroll 7 2 .mx .spill 0) ∧
    decode 0x88EC00FC = .ok (.vmovi 22 0 0xFC) := by
  decide +kernel

theorem test_manual_words_2 :
    decode 0x4C90438C = .ok (.vmulI64 8 4 7 0 true true false false) ∧
    decode 0x90189002 = .ok (.pld 12 2 2 0 1 false) ∧
    decode 0xAA8A4208 = .ok (.ld true .w32 5 4 4 true false .none) ∧
    decode 0xAB8C4108 = .ok (.st true .w32 6 4 2 true false .none) ∧
    decode 0xA88A4004 = .ok (.ld false .w32 5 4 0 false true .none) ∧
    decode 0xA0464110 = .ok (.vgather false .w16 3 4 2 1 false false .none) ∧
    decode 0xA48E4108 = .ok (.vscatter false .w32 7 4 2 0 true false .none) ∧
    decode 0xB00C8482 = .ok (.aadd 6 8 9 false false .dev) ∧
    decode 0xFD600000 = .ok (.mod (.at .cluster) .byKind .dflt false) ∧
    decode 0xC0102800 = .ok (.cpyGp 8 5 0) ∧
    decode 0xC0503300 = .ok (.cpyPg 8 6 12) ∧
    decode 0xC40A6000 = .ok (.waitAny 5 6) ∧
    decode 0xC440B000 = .ok (.waitAll 0 11) ∧
    decode 0xC48A6000 = .ok (.tagfind 5 6) ∧
    decode 0xC4C06000 = .ok (.tagclr 6) := by
  decide +kernel

theorem test_manual_words_3 :
    decode 0xD0105201 = .ok (.mma 8 2 .m128 16 0 false true) ∧
    decode 0xD0100021 = .ok (.mma 8 0 .m32 1 0 false true) ∧
    decode 0xD018880A = .ok (.mma 12 4 .m64 0 2 true false) ∧
    decode 0xD4000600 = .ok (.accz 0 3 0) ∧
    decode 0xD4006002 = .ok (.accz 3 0 1) ∧
    decode 0xD44C4040 = .ok (.accld 6 2 0 1 .mode 0) ∧
    decode 0xD48E4250 = .ok (.accrd 7 2 1 1 .rn 0) ∧
    decode 0xD8000000 = .ok .mfence ∧
    decode 0xD840A000 = .ok (.mwait 5) ∧
    decode 0xE4140000 = .ok (.fence .team .rel) ∧
    decode 0xE4120000 = .ok (.fence .team .acq) ∧
    decode 0xE42E0000 = .ok (.fence .device .ar) ∧
    decode 0xE4320000 = .ok (.fence .system .acq) ∧
    decode 0xE0100000 = .ok (.bar 2) ∧
    decode 0xE0780000 = .ok (.barArrive 7) := by
  decide +kernel

theorem test_manual_words_4 :
    decode 0xE0B80000 = .ok (.barWait 7) ∧
    decode 0xE8002200 = .ok (.ringWait 1 0 true) ∧
    decode 0xE8402400 = .ok (.ringSig 1 1) ∧
    decode 0xE88A2400 = .ok (.ringTest 5 1 1 false) ∧
    decode 0xEC0081C0 = .ok (.send 8 3 true) ∧
    decode 0xEC4A0180 = .ok (.recv 5 3) ∧
    decode 0xEC8C8180 = .ok (.trysend 6 8 3 false) ∧
    decode 0xECCE0180 = .ok (.chstat 7 3) ∧
    decode 0x18520004 = .ok (.srd 9 4) ∧
    decode 0x5742218C = .ok (.vcne .w64 1 2 3 0 true true false false) ∧
    decode 0x24C00010 = .ok (.exit 1) ∧
    decode 0x904E0000 = .ok (.pst 7 0 0 false) ∧
    decode 0xA48EC408 = .ok (.vscatter false .w32 7 12 8 0 true false .none) ∧
    decode 0xA092E400 = .ok (.vgather false .w32 9 14 8 0 false false .none) ∧
    decode 0x90143800 = .ok (.pld 10 0 7 0 0 false) := by
  decide +kernel

theorem test_manual_words_5 :
    decode 0xE42C0000 = .ok (.fence .device .rel) ∧
    decode 0xA9A0F000 = .ok (.st false .w32 16 15 0 false false .none) ∧
    decode 0xA88EF002 = .ok (.ld false .w32 7 15 0 false false .dev) ∧
    decode 0xF0C06000 = .ok (.setperf 6) ∧
    decode 0xF1002000 = .ok (.setperfV 2) ∧
    decode 0x12522005 = .ok (.seqi 9 2 false 5) ∧
    decode 0x20520008 = .ok (.bz 9 8) ∧
    decode 0xF40E1300 = .ok (.ctxrd 7 1 6) ∧
    decode 0xF44E1300 = .ok (.ctxwr 7 1 6) ∧
    decode 0x148EA148 = .ok (.bfi 7 10 false 5 8) ∧
    decode 0xF5001000 = .ok (.tret 1 0) ∧
    decode 0xF5001480 = .ok (.tret 1 9) ∧
    decode 0xF68E8000 = .ok (.grpres 7 8) ∧
    decode 0xF6CEA000 = .ok (.asgen 7 10 0) := by
  decide +kernel

/-! ### Words that are no instruction (spec/04 R68, R70, R74, R76 to R81) -/

theorem test_reject_majors : ∀ m ∈ [0x00, 0x0B, 0x0C, 0x0D, 0x0E, 0x0F, 0x23, 0x27, 0x2F, 0x33, 0x37],
    decode (BitVec.ofNat 32 (m * 2 ^ 26)) = .error .reservedMajor := by
  decide +kernel

theorem test_reject_operands :
    decode 0b100101_0000_00110_0000_00_01_00000_0000 = .error .refusedOperand ∧        -- scroll with DIST 0
    decode 0b100101_0000_00110_0011_00_11_00000_0000 = .error .refusedOperand ∧        -- scroll with EDGE 11
    decode 0b111000_0000_001_0000000000000000000 = .error .refusedOperand ∧       -- bar 1
    decode 0b111001_0000_000_01_00000000000000000 = .error .refusedOperand ∧      -- fence with SCOPE 0
    decode 0b111001_0000_101_00_00000000000000000 = .error .refusedOperand ∧      -- fence with KIND 00
    decode 0b110110_0001_00000_1100_0000000000000 = .error .refusedOperand ∧      -- mwait a12
    decode 0b011100_1110_00010_00001_1000_0_000_0_01_0 = .error .refusedOperand ∧  -- vcvt to type 14
    decode 0b011100_1000_00010_00001_1000_0_000_0_01_0 = .error .refusedOperand := by  -- vcvt of f32 to f32
  decide +kernel

/-! ### Ill-formed terms: one for each check -/

theorem test_wf_refuses : ∀ i ∈ ([
    .shli 5 1 false 64, .shriI 5 1 false 64, .shriN 5 1 false 64, .rotli 5 1 false 64, .bfxI 5 1 false 0x1F 33, .bfxN 5 1 false 1 63,
    .bfi 5 1 false 31 33, .srd 5 1023, .swr 5 false 1023, .vshli .w8 1 2 0 false 8, .vshriI .w16 1 2 0 false 16, .vshriN .w64 1 2 0 false 64,
    .vcvt .f32 1 2 .f32 0 false .rn false, .pld 1 3 0 0 0 false, .pld 1 0 5 0 0 false, .pwinSumI32 1 5 0 0 false, .pwinSumF32 1 5 0 0 false,
    .pwinMaxI32 1 5 0 0 false, .pwinMaxF32 1 5 0 0 false, .pwinMinI32 1 5 0 0 false, .pwinMinF32 1 5 0 0 false, .scroll 6 0 .px .wrap 0,
    .scroll 6 1 .px .wrap 9, .scrollResume 6 0 .px .wrap 0, .scrollResume 6 1 .px .spill 9, .vgather false .w64 3 4 2 0 true false .none,
    .ld false .w64 5 4 0 true false .none, .tld 5 4 31 false .none, .tst 5 4 31 false false .none, .acas 31 4 0 false false .none,
    .lds false .w64 3 4 2 0 true, .cpyGp 30 0 0, .cpyPg 30 0 0, .cpyPp 30 0 0, .cpyGg 30 0 0, .nmv 30 0 0, .nmrd 30 0 0, .nmwr 30 0 0,
    .nmwrm 30 0 0, .mma 30 0 .m32 1 0 false true, .mma 8 11 .m32 16 0 false true, .accz 9 3 0, .accld 0 0 0 0 .mode 0, .accld 6 9 3 0 .mode 0,
    .accld 6 0 0 4 .mode 0, .accld 6 0 0 1 .rn 0, .accrd 0 0 0 0 .mode 0, .accrd 6 9 3 0 .mode 0, .accrd 6 0 0 7 .mode 0, .accrd 6 0 0 0 .rn 0,
    .mwait 12, .bar 1, .barArrive 1, .barWait 1, .send 0 3 false, .send 31 3 false, .trysend 6 0 3 false, .trysend 6 31 3 false, .vkill 7 4,
    .skill 12 9, .mod .none .acquire .dflt false] : List Instr), i.wf = false := by
  decide +kernel

/-! ### Small runs -/

/-- Whether a word goes on from `s` to a state that meets `f`. -/
def runs (i : Instr) (s : State) (f : Group → Bool) : Bool :=
  match exec i s with
  | .next t => (match t.group 2 with | some g => f g | none => false)
  | _ => false

/-- Scalars s1 to s15 of group 2. -/
def withS (vals : List Word) : State := ts (tg .vector (0 :: vals)) core0

/-- Lane registers of group 2 from v0, which has lanes `alive` and predicates q1 to q7. -/
def withV (alive : Mask) (ps : List Mask) (vals : List (List Word)) : State :=
  let g := tg .vector [0, 0, 0, 0, 0, 0, 0, 0, 0, 1]
  ts { g with alive := alive, regs := { g.regs with v := vals, p := ps } } core0

/-- spec/07 R145 and R72: the sum wraps; and the manual's add.i32 s7, s7^, s8, which frees s7, leaves its upper bits zero. -/
theorem test_add_wraps : runs (.add 5 1 2 false false false false) (withS [0xFFFFFFFFFFFFFFFF, 1]) (fun g => g.sreg 5 == 0) = true := by decide +kernel
theorem test_add_marked :
    runs (.add 7 7 8 true false false true) (withS [0, 0, 0, 0, 0, 0, 0xABCD00000001, 0xFFFFFFFF]) (fun g => g.sreg 7 == 0) = true := by decide +kernel

/-- The same without the mark keeps them (spec/07 R144). -/
theorem test_add_unmarked :
    runs (.add 7 7 8 false false false true) (withS [0, 0, 0, 0, 0, 0, 0xABCD00000001, 0xFFFFFFFF]) (fun g => g.sreg 7 == 0xABCD00000000) = true := by
  decide +kernel

/-- spec/07, the worked case under R149: 0xBCD of 0xABCDEF, and its sign-extension. -/
theorem test_bfx_unsigned : runs (.bfxN 4 5 false 11 8) (withS [0, 0, 0, 0, 0xABCDEF]) (fun g => g.sreg 4 == 0xBCD) = true := by decide +kernel
theorem test_bfx_signed : runs (.bfxI 4 5 false 11 8) (withS [0, 0, 0, 0, 0xABCDEF]) (fun g => g.sreg 4 == 0xFFFFFFFFFFFFFBCD) = true := by decide +kernel

/-- spec/07, the example of one branch per side: with no lane true in q1 the branch goes two words on (R158, R160). -/
theorem test_branch : runs (.bnone 1 2) (withV 3 [0] []) (fun g => g.pc == 0x10108) = true := by decide +kernel
theorem test_branch_not_taken : runs (.bnone 1 2) (withV 3 [2] []) (fun g => g.pc == 0x10104) = true := by decide +kernel

/-- spec/09, the shift at the edges of a row: v7 after, in lanes 0 to 5. -/
theorem test_vshrx :
    runs (.vshrx 7 6 9 1 false false false)
      (withV 0x3B [0x2B] [[], [], [], [], [], [], [10, 11, 12, 13, 14, 15], [90, 91, 92, 93, 94, 95]])
      (fun g => (List.range 6).map (g.vreg 7) == [0, 10, 92, 0, 94, 14]) = true := by
  decide +kernel

/-- spec/09, the keys in one row: v3 after, and the count of q3. -/
def matchState : State := withV 0x3F [0, 0, 0x1F] [[], [0x00000000, 0x80000000, 0x7FC00000, 0x3F800000, 0x7F800001, 0x3F800000]]
theorem test_vmatch :
    runs (.vmatch 3 1 .f32 3 false false) matchState (fun g => (List.range 5).map (g.vreg 3) == [3, 3, 0x14, 8, 0x14] && g.sys.fpx == 0) = true := by
  decide +kernel
theorem test_vpcount : runs (.vpcount 6 3 3) matchState (fun g => g.sreg 6 == 5) = true := by decide +kernel

/-- spec/08 and spec/09, one block of 16: its bytes, X and V, and what they unpack as. -/
def block : List Word :=
  [0x41300000, 0x3F800000, 0xC0200000, 0x40C00000, 0, 0x3ECCCCCD, 0x411CCCCD, 0x40E00000, 0xBF400000, 0x404CCCCD, 0xC1000000, 0x40000000,
   0x41266666, 0xC1200000, 0x3FB33333, 0x40900000]
theorem test_vqpack :
    runs (.vqpack .rn 5 4 .b16 0 false false false) (withV (footMask 1) [] [[], [], [], [], block])
      (fun g => (List.range 4).map (g.vreg 5) == [0x41E82E3968005A18, 0x4B80, 0, 0] && g.sys.fpx == BitVec.ofNat 64 (fxInexact ||| fxUnderflow).toNat) = true := by
  decide +kernel
theorem test_vqunpack :
    runs (.vqunpack .rn 6 5 .b16 0 false false false) (withV (footMask 1) [] [[], [], [], [], [], [0x41E82E3968005A18, 0x4B80]])
      (fun g => (List.range 16).map (g.vreg 6) == [0x41300000, 0x3F800000, 0xC0000000, 0x40C00000, 0, 0, 0x41300000, 0x41000000, 0xBF800000,
        0x40400000, 0xC1000000, 0x40000000, 0x41300000, 0xC1000000, 0x3F800000, 0x40800000] && g.sys.fpx == 0) = true := by
  decide +kernel

/-- spec/14, one element's sum: 2^24 and three products give 0x4B800001, inexact (spec/08 R182). -/
theorem test_matrix_sum :
    kStep 0x4B800000 ([(0x3F40, 0x3F80), (0x3F40, 0x3F80), (0x3D00, 0x3580)].map (fun p => (Fmt.bf16.decode p.1, Fmt.bf16.decode p.2))) =
      (0x4B800001, fxInexact) := by
  decide +kernel

/-- spec/07, under R149: lea16 writes a + (b << 4). -/
theorem test_lea : runs (.lea16 5 1 2 false false false false) (withS [0x1000, 0x2F]) (fun g => g.sreg 5 == 0x12F0) = true := by
  decide +kernel

/-- spec/07 R146: division rounds toward zero. -/
theorem test_div : runs (.divI 5 1 2 false false false false) (withS [0xFFFFFFFFFFFFFFF9, 2]) (fun g => g.sreg 5 == 0xFFFFFFFFFFFFFFFD) = true := by
  decide +kernel

/-- The word addi s5, s0, 0x345, loaded, is what the next step runs: its turn, before what every step ends with. -/
theorem test_step :
    let s := State.reset.withFetchWord 32 0x100A0345
    (match runPrep (takeTurn s.turn.2 s.turn.1) with
      | .next t => (match t.group 2 with | some g => g.sreg 5 == 0x345 && g.pc == 0x10104 | none => false)
      | _ => false) = true := by
  decide +kernel

end Sys2Proof.Machine.Test
end

