-- ==== Sys2Proof/Tests/Sync.lean ====
section
/-!
SUPPORT. Witnesses of the statements about fences, barriers, rings, channels, resources and performance.
-/

namespace Sys2Proof.Machine.Test

set_option Elab.async false
set_option maxRecDepth 8000

/-! ### Fences -/

/-- A load and a store that the group has under way, and raised flags that are enabled. -/
def under (op : AccOp) : Access :=
  { op := op, ord := 1, dest := none, bits := 64, sext := false, scope := none, acq := false, rel := false, vol := false
    parts := [{ lane := 0, off := 0, va := 0x20000, pa := 0x20000, n := 8, kind := .rc }], pc := 0x10100, insn := 0 }
def gLoad : Group := { gv with accs := [under .load], ord := 2 }
def gStore : Group := { gv with accs := [under .store], ord := 2 }
def gFlags : Group := { gv with sys := { gv.sys with mode := 0x10, fpx := 0x1F } }

def scopes : List Scope := [.group, .team, .cluster, .die, .device, .system]
def fences : List (Scope × FenceKind) := scopes.flatMap (fun sc => [FenceKind.acq, .rel, .ar].map (fun k => (sc, k)))

/-- For `FenceResults`: every fence with a load under way, with a store, with nothing, and with an enabled flag raised. -/
theorem witness_fence :
    (∀ x ∈ fences, Ready (.fence x.1 x.2) (ts gLoad core0) 2 gLoad { closes := x.2 != .acq } ∧
      Ready (.fence x.1 x.2) (ts gStore core0) 2 gStore { closes := x.2 != .acq } ∧
      Ready (.fence x.1 x.2) sv 2 gv { closes := x.2 != .acq } ∧ Ready (.fence x.1 x.2) (ts gFlags core0) 2 gFlags { closes := x.2 != .acq }) ∧
    (ts gLoad core0).settled 2 gLoad = false ∧
    ((ts gStore core0).settled 2 gStore = true ∧ gStore.enabledFlags = 0 ∧
      (∀ sc ∈ scopes, (ts gStore core0).releaseReady 2 gStore gStore.ord sc = true) ∧ ∀ a ∈ gStore.accs, a.ord < gStore.ord) ∧
    (sv.settled 2 gv = true ∧ gv.enabledFlags = 0 ∧ Settled sv 2 gv) ∧
    ((ts gFlags core0).settled 2 gFlags = true ∧ gFlags.enabledFlags ≠ 0 ∧ Handled (ts gFlags core0) gFlags) :=
  ⟨all_and (all_ready rfl rfl (by decide +kernel)) (all_and (all_ready rfl rfl (by decide +kernel)) (all_and (all_ready rfl rfl (by decide +kernel))
      (all_ready rfl rfl (by decide +kernel)))), by decide +kernel, ⟨by decide +kernel, by decide +kernel, by decide +kernel, by decide +kernel⟩,
   ⟨by decide +kernel, by decide +kernel, settled_of (by decide +kernel)⟩, by decide +kernel, by decide +kernel, grid0, rfl, rfl, rfl⟩

/-! ### Barriers -/

def barLevels : List (BitVec 3) := [2, 3, 4, 5, 6, 7]

/-- A group that has arrived at every level, and one that waits in every `bar`; the barriers have released their generation, or not. -/
def gArr : Group := { gv with arrived := 0xFF }
def gIn : Group := { gArr with inbar := 0xFF }
def released (g : Group) : State := { ts g core0 with
  barriers := [2, 3, 4, 5, 6, 7].map (fun l => { grid := 0, level := l, unit := 0, done := 1, delivered := [(0, 1)] }) }

/-- For `BarrierResults`: every level, before and after its release. -/
theorem witness_barrier :
    (∀ l ∈ barLevels, Ready (.barArrive l) sv 2 gv { closes := true } ∧ Ready (.barWait l) (ts gArr core0) 2 gArr {} ∧
      Ready (.barWait l) (released gArr) 2 gArr {} ∧ Ready (.bar l) (released gIn) 2 gIn { closes := true } ∧ Ready (.bar l) sv 2 gv { closes := true }) ∧
    (∀ l ∈ barLevels, sv.barScope gv l.toNat = true ∧ gv.arrived.getLsbD l.toNat = false ∧ gv.inbar.getLsbD l.toNat = false ∧
      gArr.arrived.getLsbD l.toNat = true ∧ gIn.inbar.getLsbD l.toNat = true ∧ (released gArr).barScope gArr l.toNat = true ∧
      (released gArr).mayDepart gArr l.toNat = true ∧ (released gIn).mayDepart gIn l.toNat = true ∧ (ts gArr core0).mayDepart gArr l.toNat = false) ∧
    ((ts gArr core0).settled 2 gArr = true ∧ gArr.enabledFlags = 0 ∧ (released gArr).settled 2 gArr = true ∧ Settled (released gArr) 2 gArr ∧
      (released gArr).scopeAt gArr 7 = .device ∧ sv.settled 2 gv = true ∧ gv.enabledFlags = 0 ∧ Settled sv 2 gv) :=
  ⟨all_and (all_ready rfl rfl (by decide +kernel)) (all_and (all_ready rfl rfl (by decide +kernel)) (all_and (all_ready rfl rfl (by decide +kernel))
      (all_and (all_ready rfl rfl (by decide +kernel)) (all_ready rfl rfl (by decide +kernel))))), by decide +kernel,
   ⟨by decide +kernel, by decide +kernel, by decide +kernel, settled_of (by decide +kernel), by decide +kernel, by decide +kernel, by decide +kernel, settled_of (by decide +kernel)⟩⟩

/-- A second group of the team that has arrived, after the last in the table. -/
def gMate : Group := { gArr with id := { gv.id with num := 1, slot := 1, base := 0x120000 }, gstate := .pending }
def sMate : State := { sv with groups := [(2, gv), (3, gMate)], nextId := 4 }

theorem witness_last_arrival :
    Ready (.barArrive 2) sMate 2 gv { closes := true } ∧ Settled sMate 2 gv ∧ sMate.settled 2 gv = true ∧ sMate.barScope gv 2 = true ∧
    gv.arrived.getLsbD 2 = false ∧ sMate.team 1 = some team1 ∧ sMate.grid team1.grid = some grid0 ∧ team1.started = true ∧
    launch0.ordinary ≤ team1.begun ∧ gv.arrivals 2 = (sMate.barrier 0 2 (launch0.unitOf 0 2)).done ∧
    sMate.groups = [] ++ (2, gv) :: [(3, gMate)] ∧
    (∀ e ∈ [] ++ [(3, gMate)], e.2.id.team = gv.id.team → e.2.id.hndl = true ∨ (sMate.barrier 0 2 (launch0.unitOf 0 2)).done < e.2.arrivals 2) :=
  ⟨ready_of rfl rfl (by decide +kernel), settled_of (by decide +kernel), by decide +kernel, by decide +kernel, by decide +kernel, rfl, rfl, rfl, by decide +kernel, by decide +kernel, rfl, by decide +kernel⟩

/-- Levels 0 and 1 have no barrier; an arrival that is recorded, and a wait without one. -/
theorem witness_barrier_traps :
    (∀ l ∈ [(0 : BitVec 3), 1], Ready (.barArrive l) sv 2 gv { closes := true } ∧ sv.barScope gv l.toNat = false) ∧
    (∀ l ∈ barLevels, Ready (.barArrive l) (ts gArr core0) 2 gArr { closes := true } ∧ Ready (.barWait l) sv 2 gv {} ∧
      (ts gArr core0).barScope gArr l.toNat = true) ∧ Handled (ts gArr core0) gArr ∧ Handled sv gv :=
  ⟨all_and (all_ready rfl rfl (by decide +kernel)) (by decide +kernel), all_and (all_ready rfl rfl (by decide +kernel)) (all_and (all_ready rfl rfl (by decide +kernel)) (by decide +kernel)),
   ⟨grid0, rfl, rfl, rfl⟩, handled⟩

/-- A grid whose level 3 has units of two teams. -/
def grid2 : Grid := { grid0 with launch := { launch0 with levels := [⟨2, 1, 0⟩] }, next := 2 }

def bar3 (arr : List Nat) (inj : List Nat) : Barrier :=
  { grid := 0, level := 3, unit := 0, arrived := arr, inject := inj, done := inj.length, sent := [(1, 1)] }

/-- For `BarrierSignals`: the last arrival of two teams, one of a later generation, one that was taken back, a release that is injected, its arrival, an answer, and a packet that waits. -/
theorem witness_signals :
    (let s := { sv with grids := [(0, grid2)], barriers := [bar3 [0] []], signals := [⟨5, 0, .arrival 0 3 0 1 1, 8⟩] }
     s.mayArrive 5 0 8 = true ∧ s.grid 0 = some grid2 ∧ (s.barrier 0 3 0).inject = [] ∧ grid2.launch.teamsIn 3 = 2 ∧
     (1 = (s.barrier 0 3 0).done + 1 ∧ 1 ≤ Tab.getD (s.barrier 0 3 0).sent 1 0) ∧ Tab.getD (s.barrier 0 3 0).sent 0 0 < 1 ∧ 2 ≠ (s.barrier 0 3 0).done + 1 ∧
     ∀ i, i < grid2.launch.teamsIn 3 → 0 * grid2.launch.teamsIn 3 + i ≠ 1 → 0 * grid2.launch.teamsIn 3 + i ∈ (s.barrier 0 3 0).arrived) ∧
    (let s := { sv with barriers := [bar3 [] [0]] }
     s.barriers[0]? = some (bar3 [] [0]) ∧ s.grid 0 = some grid0 ∧ (bar3 [] [0]).arrived = [] ∧
     (1, team1) ∈ s.teams ∧ team1.grid = 0 ∧ clusterOf team1.core = 0 ∧ launch0.unitOf team1.index 3 = 0) ∧
    (let s := { sv with signals := [⟨0, 0, .release 0 7 0 0 1, 3⟩, ⟨0, 0, .answer 2 1, 4⟩] }
     s.mayArrive 0 0 3 = true ∧ s.group 2 = some gv ∧ s.team 1 = some team1 ∧ launch0.unitOf 0 7 = 0 ∧ gv.genBase.getD 7 0 + gv.gen.getD 7 0 < 1 ∧
     s.signals[1]? = some ⟨0, 0, .answer 2 1, 4⟩ ∧ ∃ y ∈ s.signals, y.src = 0 ∧ y.dst = 0 ∧ y.seq < 4) ∧
    (let s := { sv with signals := [⟨0, 0, .answer 2 1, 4⟩] }
     s.mayArrive 0 0 4 = true ∧ s.group 2 = some gv) := by
  refine ⟨⟨by decide +kernel, rfl, rfl, by decide +kernel, by decide +kernel, by decide +kernel, by decide +kernel, ?_⟩, ⟨rfl, rfl, rfl, by simp [sv, ts], rfl, by decide +kernel, by decide +kernel⟩,
    ⟨by decide +kernel, rfl, rfl, by decide +kernel, by decide +kernel, rfl, _, List.mem_cons_self, rfl, rfl, by decide⟩, by decide +kernel, rfl⟩
  rw [show grid2.launch.teamsIn 3 = 2 by decide +kernel]
  decide +kernel

/-! ### Rings -/

/-- A team whose first and last phases are 1. -/
def teamPh : Team := { team1 with phase := 0x80000000000000000000000000000001 }
def sPh : State := { sv with teams := [(1, teamPh)] }

/-- For `RingResults`: the first stage of the first ring and the last of the last, in both phases; a ring that is not held. -/
theorem witness_ring :
    (∀ p ∈ [false, true], Ready (.ringWait 0 0 p) sPh 2 gv {} ∧ Ready (.ringWait 15 7 p) sPh 2 gv {} ∧
      Ready (.ringTest 5 15 7 p) sPh 2 gv (needS gv [] (some (sr 5)) false false) ∧
      Ready (.ringTest 0 0 0 p) sPh 2 gv (needS gv [] (some (sr 0)) false false)) ∧
    Ready (.ringSig 0 0) sPh 2 gv { closes := true } ∧ Ready (.ringSig 15 7) sPh 2 gv { closes := true } ∧ Settled sPh 2 gv ∧
    (0 < (sPh.launchOf gv).stages 0 ∧ 7 < (sPh.launchOf gv).stages 15) ∧ sPh.team 1 = some teamPh ∧
    (teamPh.ringHeld.getLsbD 0 = true ∧ teamPh.ringHeld.getLsbD 15 = true) ∧
    (teamPh.phase.getLsbD 0 = true ∧ teamPh.phase.getLsbD (8 * 15 + 7) = true) ∧
    (let y := { team1 with ringHeld := 0 }
     let s := { sv with teams := [(1, y)] }
     Ready (.ringSig 15 7) s 2 gv { closes := true } ∧ (∀ p ∈ [false, true], Ready (.ringWait 15 7 p) s 2 gv {} ∧
       Ready (.ringTest 5 15 7 p) s 2 gv (needS gv [] (some (sr 5)) false false)) ∧ s.team 1 = some y ∧ y.ringHeld.getLsbD 15 = false ∧ Handled s gv) ∧
    (let g := { gv with blocked := some (.unheld 15) }
     let s := { sPh with groups := [(2, g)] }
     Ready (.ringWait 15 7 true) s 2 g {} ∧ Handled s g) ∧
    gv.blocked = none :=
  ⟨all_and (all_ready rfl rfl (by decide +kernel)) (all_and (all_ready rfl rfl (by decide +kernel)) (all_and (all_ready rfl rfl (by decide +kernel))
      (all_ready rfl rfl (by decide +kernel)))), ready_of rfl rfl (by decide +kernel), ready_of rfl rfl (by decide +kernel), settled_of (by decide +kernel), by decide +kernel, rfl,
   by decide +kernel, by decide +kernel,
   ⟨ready_of rfl rfl (by decide +kernel), all_and (all_ready rfl rfl (by decide +kernel)) (all_ready rfl rfl (by decide +kernel)), rfl, by decide +kernel, grid0, rfl, rfl, rfl⟩,
   ⟨ready_of rfl rfl (by decide +kernel), grid0, rfl, rfl, rfl⟩, rfl⟩

/-! ### Channels -/

/-- A group that sends to core 0, to core 575 and to core 576. -/
def gs (x : SendSt) : Group := { tg .vector [0, 0xFFFF, 0, 0xFFFF, 575, 0xFFFF, 576] with send := x }

/-- The endpoints of each kind, and one that holds an element. -/
def ep (k : Nat) : Endpoint := { team := 1, kind := k }
def chCore : Core := { core0 with eps := [(0, ep 1), (1, ep 2), (30, ep 3), (31, { ep 2 with unread := some (9, 7) })] }

def sendNeed (g : Group) (a : BitVec 5) (l : Bool) : Need :=
  { needS g [(sr a, l), (.s (a.toNat + 1), false)] none false false with closes := true }

/-- For `ChannelResults`: a send to each kind, an answered one; the three answers of `trysend`; what is refused. -/
theorem witness_send :
    (∀ e ∈ [0, 1, 30, 31], Ready (.send 1 e false) (ts (gs .none) chCore) 2 (gs .none) (sendNeed (gs .none) 1 false)) ∧
    Settled (ts (gs .none) chCore) 2 (gs .none) ∧
    (∀ x ∈ [(0, 1), (1, 2), (30, 3), (31, 2)], (ts (gs .none) chCore).target (gs .none) ((gs .none).sreg 2) x.1 = some x.2) ∧
    Ready (.send 1 0 true) (ts (gs (.answered 0)) chCore) 2 (gs (.answered 0)) (sendNeed (gs (.answered 0)) 1 true) ∧
    Ready (.trysend 5 1 31 true) (ts (gs .none) chCore) 2 (gs .none) (needS (gs .none) [(sr 1, true), (.s 2, false)] (some (sr 5)) false false) ∧
    (∀ v ∈ [0, 1, 2], Ready (.trysend 5 1 0 false) (ts (gs (.answered v)) chCore) 2 (gs (.answered v))
      { needS (gs (.answered v)) [(sr 1, false), (.s 2, false)] (some (sr 5)) false false with closes := (gs (.answered v)).send == .answered 0 }) ∧
    (Ready (.trysend 0 3 31 true) (ts (gs .none) chCore) 2 (gs .none)
      { needS (gs .none) [(sr 3, true), (.s 4, false)] (some (sr 0)) false false with closes := (gs .none).send == .answered 0 } ∧
      (ts (gs .none) chCore).target (gs .none) ((gs .none).sreg 4) 31 = none) ∧
    (Ready (.send 5 31 false) (ts (gs .none) chCore) 2 (gs .none) (sendNeed (gs .none) 5 false) ∧ 575 < ((gs .none).sreg 6).toNat ∧
      Handled (ts (gs .none) chCore) (gs .none)) := by
  refine ⟨all_ready rfl rfl (by decide +kernel), settled_of (by decide +kernel), by decide +kernel, ready_of rfl rfl (by decide +kernel),
    ready_of rfl rfl (by decide +kernel), fun v hv => ?_,
    ⟨ready_of rfl rfl (by decide +kernel), by decide +kernel⟩, ready_of rfl rfl (by decide +kernel), by decide +kernel, grid0, rfl, rfl, rfl⟩
  simp only [List.mem_cons, List.not_mem_nil, or_false] at hv
  obtain rfl | rfl | rfl := hv <;> exact ready_of rfl rfl (by decide +kernel)

/-- An offer of group 3 that waits at endpoint 0. -/
def offer3 : Waiter := ⟨3, 0, 0x1234, false⟩
def rvCore : Core := { core0 with eps := [(0, { ep 1 with offers := [offer3] }), (31, { ep 2 with unread := some (9, 7) })] }
def sRv : State := { ts gv rvCore with groups := [(2, gv), (3, gMate)], nextId := 4 }

theorem witness_recv :
    (∀ e ∈ [0, 31], Ready (.recv 5 e) sRv 2 gv { needS gv [] (some (sr 5)) false false with closes := true } ∧
      Ready (.chstat 0 e) sRv 2 gv (needS gv [] (some (sr 0)) false false)) ∧
    Tab.get (sRv.core 0).eps 0 = some { ep 1 with offers := [offer3] } ∧ sRv.group 3 = some gMate ∧
    Tab.get (sRv.core 0).eps 31 = some { ep 2 with unread := some (9, 7) } ∧ Ready (.chstat 5 1) sRv 2 gv (needS gv [] (some (sr 5)) false false) :=
  ⟨all_and (all_ready rfl rfl (by decide +kernel)) (all_ready rfl rfl (by decide +kernel)), rfl, rfl, rfl, ready_of rfl rfl (by decide +kernel)⟩

/-- For `ChannelArrivals`: offers for each kind; `trysend` with a receiver and without one; an endpoint that is not bound, and one of another
address space; an element; an arrival endpoint. -/
theorem witness_arrivals :
    (∀ k ∈ [1, 2], ∀ t ∈ [false, true],
      let o : Offer := ⟨2, 5, 0, 31, 9, t, 4, k == 2⟩
      let s := { ts gv { core0 with eps := [(31, ep k)] } with offers := [o] }
      s.mayArrive 5 0 4 = true ∧ s.refuses o = false ∧ Tab.get (s.core o.core).eps o.ep = some (ep k) ∧ (k = 1 → o.issued = false)) ∧
    (let o : Offer := ⟨2, 5, 0, 31, 9, false, 4, true⟩
     let s := { ts gv { core0 with eps := [(31, ep 1)] } with offers := [o] }
     s.mayArrive 5 0 4 = true ∧ Tab.get (s.core 0).eps 31 = some (ep 1) ∧ (ep 1).kind ≠ 2) ∧
    (let x := { ep 1 with recvs := [2] }
     Tab.get ((ts gv { core0 with eps := [(31, x)] }).core 0).eps 31 = some x ∧ x.offers.length < x.recvs.length) ∧
    (let o : Offer := ⟨2, 5, 0, 31, 9, true, 4, false⟩
     let s := { sv with offers := [o] }
     s.mayArrive 5 0 4 = true ∧ Tab.get (s.core 0).eps 31 = none ∧
     ({ ts gv { core0 with eps := [(31, { ep 1 with team := 7 })] } with offers := [o] } : State).refuses o = true) ∧
    (let a : Access := {
       op := .recv 9, ord := 1, dest := some (.s 5), bits := 64, sext := false, scope := some .device, acq := true, rel := false, vol := false
       parts := [{ lane := 0, off := 0, va := 0, pa := 0, n := 8, kind := .rc, val := 9 }], pc := 0x10100, insn := 0 }
     let g := { gv with accs := [a], ord := 2 }
     let s := { ts g core0 with signals := [⟨0, 0, .element 2 1, 6⟩] }
     s.mayArrive 0 0 6 = true ∧ s.group 2 = some g ∧ g.accs[0]? = some a ∧ (∀ b ∈ g.accs.take 0, b.ord ≠ a.ord) ∧ CanTake s 2 g 0 (.s 5)) ∧
    (let x := { ep 3 with offers := [offer3] }
     let s := ts gv { core0 with eps := [(30, x)] }
     Tab.get (s.core 0).eps 30 = some x ∧ s.team 1 = some team1 ∧ s.freeSlots 0 grid0 ≠ []) := by
  refine ⟨fun k hk t ht => ?_, ⟨by decide +kernel, rfl, by decide +kernel⟩, ⟨rfl, by decide +kernel⟩, ⟨by decide +kernel, rfl, by decide +kernel⟩,
    ⟨by decide +kernel, rfl, rfl, by simp, by decide +kernel, by decide +kernel, rfl, by simp [dropAt], by simp [gv, tg]⟩, rfl, rfl, by decide +kernel⟩
  simp only [List.mem_cons, List.not_mem_nil, or_false] at hk ht
  obtain rfl | rfl := hk <;> obtain rfl | rfl := ht <;> exact ⟨by decide +kernel, by decide +kernel, rfl, by decide +kernel⟩

/-! ### Resources -/

/-- Requests: one slot, two slots, one word, tag 63, ring 15, rows v1. -/
def ga0 : Group := tg .vector [0, 0x40, 0xC0, 0x10000, 0x8000000000000000, 0x8000, 0x2]
def tA : Team := { team1 with accHeld := 0x3F, tagHeld := 0, ringHeld := 0 }
def tB : Team := { team1 with slot := 1, accHeld := 0x1F, tagHeld := 0, ringHeld := 0 }
/-- One team alone; two teams whose claims together exceed the slots; a claim of six slots. -/
def sAlone : State := { ts ga0 core0 with teams := [(1, tA)] }
def sBoth : State := { ts ga0 core0 with teams := [(1, tA), (4, tB)] }
def sSmall : State := { sAlone with grids := [(0, { grid0 with launch := { launch0 with accslots := 6 } })] }

def needF (a : BitVec 5) : Need := { needS ga0 [(sr a, false)] (some (sr 7)) false false with closes := true }
def needW (a : BitVec 5) : Need := { needS ga0 [(sr a, false)] none false false with closes := true }

def requests : List (BitVec 5 × AcqKind) := [(1, .acc), (2, .acc), (3, .plane), (4, .tag), (5, .ring)]

/-- For `ResourceResults`: granted requests of each kind, one that is busy, one that would be unsafe, one beyond the claim. -/
theorem witness_acquire :
    (∀ x ∈ requests, Ready (.acqF 7 x.1 x.2) sAlone 2 ga0 (needF x.1) ∧ Ready (.acqW x.1 x.2) sAlone 2 ga0 (needW x.1) ∧
      requestTrap (sAlone.launchOf ga0) x.2 (ga0.sreg x.1.toNat) = none ∧ sAlone.decide ga0 tA x.2 (ga0.sreg x.1.toNat) = .granted) ∧
    (∀ a ∈ [(1 : BitVec 5), 2], Ready (.acqF 7 a .acc) sBoth 2 ga0 (needF a) ∧ Ready (.acqW a .acc) sBoth 2 ga0 (needW a)) ∧
    (sBoth.decide ga0 tA .acc 0x40 = .unsafeState ∧ sBoth.decide ga0 tA .acc 0xC0 = .busy ∧ sBoth.cycleSlot 0 1 .acc 0xC0 = none) ∧
    (Ready (.acqF 7 1 .acc) sSmall 2 ga0 (needF 1) ∧ sSmall.decide ga0 tA .acc 0x40 = .overrun ∧ sSmall.team 1 = some tA ∧ Handled sSmall ga0) ∧
    (Ready (.acqW 6 .pin) sAlone 2 ga0 (needW 6) ∧ sAlone.decide ga0 tA .pin 2 = .granted ∧ (sAlone.core 0).cached 2 1 (.v 1) = true) ∧
    ((sAlone.core 0).acqWaits = [] ∧ ga0.blocked = none ∧ (sAlone.core 0).acqPast (sAlone.acqPlace 2 ga0) = false ∧
      ∀ r, rectOf (ga0.sreg 3) = some r → (sAlone.core 0).scrolled r.keys = false) :=
  ⟨all_and (all_ready rfl rfl (by decide +kernel)) (all_and (all_ready rfl rfl (by decide +kernel)) (by decide +kernel)),
   all_and (all_ready rfl rfl (by decide +kernel)) (all_ready rfl rfl (by decide +kernel)), by decide +kernel,
   ⟨ready_of rfl rfl (by decide +kernel), by decide +kernel, rfl, _, rfl, rfl, rfl⟩, ⟨ready_of rfl rfl (by decide +kernel), by decide +kernel, by decide +kernel⟩,
   rfl, rfl, by decide +kernel, fun r _ => by simp [Core.scrolled, sAlone, ts, State.core, Tab.getD, Tab.get, core0]⟩

/-- A request after the unit has gone past it; one that has been granted while it waited, and one that was found to overrun its claim. -/
theorem witness_acquire_late :
    (let s := { sAlone with cores := [(0, { core0 with acqRank := 64 }), (noCore, { tlb := [tlb0] })] }
     Ready (.acqW 1 .acc) s 2 ga0 (needW 1) ∧ (s.core 0).acqPast (s.acqPlace 2 ga0) = true) ∧
    (let g := { ga0 with blocked := some .granted }
     let s := { sAlone with groups := [(2, g)] }
     Ready (.acqW 1 .acc) s 2 g { needS g [(sr 1, false)] none false false with closes := true }) ∧
    (let g := { ga0 with blocked := some .overran }
     let s := { sAlone with groups := [(2, g)] }
     Ready (.acqW 1 .acc) s 2 g { needS g [(sr 1, false)] none false false with closes := true } ∧ Handled s g) :=
  ⟨⟨ready_of rfl rfl (by decide +kernel), by decide +kernel⟩, ready_of rfl rfl (by decide +kernel), ready_of rfl rfl (by decide +kernel), grid0, rfl, rfl, rfl⟩

/-- Releases of each kind with nothing queued; a release of a word and of a tag that a copy command still touches. -/
theorem witness_rel :
    (∀ x ∈ (6, AcqKind.pin) :: requests, Ready (.rel x.1 x.2) sAlone 2 ga0 (needW x.1) ∧
      requestTrap (sAlone.launchOf ga0) x.2 (ga0.sreg x.1.toNat) = none ∧
      (sAlone.core 0).holdsBack x.2 (ga0.sreg x.1.toNat) = false ∧ sAlone.relBusy 0 1 x.2 (ga0.sreg x.1.toNat) (sAlone.core 0).seq = false) ∧
    (sAlone.core 0).acqPast 0 = false ∧
    (let x : Cmd := { group := 2, team := 1, near := false, fn := 2, tag := 63, cw := none, a := 0x10000, b := 0x10000, c := 0, skew := false, sys := false
                      pc := 0x10100, insn := 0 }
     let s := { sAlone with cores := [(0, { core0 with copies := [x], seq := 1 }), (noCore, { tlb := [tlb0] })] }
     ∀ y ∈ [((3 : BitVec 5), AcqKind.plane), (4, .tag)], Ready (.rel y.1 y.2) s 2 ga0 (needW y.1) ∧
       s.relBusy 0 1 y.2 (ga0.sreg y.1.toNat) (s.core 0).seq = true) :=
  ⟨all_and (all_ready rfl rfl (by decide +kernel)) (by decide +kernel), by decide +kernel, all_and (all_ready rfl rfl (by decide +kernel)) (by decide +kernel)⟩

/-! ### Performance -/

/-- A group whose scalars hold 0, 11 and 12, and whose v1 holds 11 in lane 0. -/
def gPerf : Group := let g := tg .vector [0, 0, 11, 12]; { g with regs := { g.regs with v := [[], [11]] } }

/-- For `PerformanceResults`: levels 0, 11 and 12, from a scalar and from lanes. -/
theorem witness_perf :
    (∀ a ∈ [1, 2, 3], Ready (.setperf a) (ts gPerf core0) 2 gPerf (needS gPerf [(sr a, false)] none false false)) ∧
    (∀ a ∈ [0, 1], Ready (.setperfV a) (ts gPerf core0) 2 gPerf (needS gPerf [(vr a, false)] none false false)) ∧
    ((gPerf.sreg 1).toNat ≤ 11 ∧ (gPerf.sreg 2).toNat = 11 ∧ 11 < (gPerf.sreg 3).toNat) ∧
    ((∀ l, l < gPerf.lanes → (gPerf.vreg 1 l).toNat ≤ 11) ∧ bit gPerf.alive 0 = true ∧ (gPerf.vreg 1 0).toNat = 11) ∧
    (ts gPerf core0).team 1 = some team1 ∧ Handled (ts gPerf core0) gPerf := by
  refine ⟨all_ready rfl rfl (by decide +kernel), all_ready rfl rfl (by decide +kernel), by decide +kernel, ⟨fun l _ => ?_, by decide +kernel, by decide +kernel⟩, rfl, grid0, rfl, rfl, rfl⟩
  have h : gPerf.vreg 1 l = if l = 0 then 11 else 0 := by
    cases l <;> rfl
  rw [h]
  split <;> decide +kernel

/-- Clusters: one between two moves, one on its way up by two levels of its ratio, and one whose cap has fallen. -/
theorem witness_move :
    let s := { sv with clusters := [(0, { goal := 11, moving := some 1 }), (2, { code := 4, goal := 11, ratio := 1, moving := some 2 }),
      (95, { supCap := 3, code := 11, goal := 11, ratio := 2 })] }
    ((s.cluster 1).moving = none ∧ (s.cluster 0).moving = some 1 ∧ 1 ≠ (s.cluster 0).goal.toNat / 4 ∧
      (s.cluster 2).moving = some 2 ∧ 2 = (s.cluster 2).goal.toNat / 4) ∧
    ((∃ e ∈ s.clusters, e.1 = 95) ∧ (s.cluster 95).goal.toNat ≠ 0) ∧ (∃ e ∈ s.teams, clusterOf e.2.core = 0) :=
  ⟨by decide +kernel, ⟨⟨_, List.mem_cons_of_mem _ (List.mem_cons_of_mem _ List.mem_cons_self), rfl⟩, by decide +kernel⟩, _, List.mem_cons_self, rfl⟩

/-- The last slot of a window with a busy `mma`, and the start of a window. -/
theorem witness_slew :
    let e : MEnt := { kind := .mma, group := 2, team := 1, slot := 0, slots := 1, rows := 1, begun := true, busy := 4 }
    let c := { core0 with mq := [e], slew := { prev := 64, used := 56, slot := 15, step := 16 } }
    ((ts gv c).core 0).working = some (0, e) ∧ 56 + 4 ≤ 4 * (min 64 (64 + 16) * (15 + 1) / 64) ∧ 56 % 4 = 0 ∧
    56 ≤ 4 * (min 64 (64 + 16) * 15 / 64) ∧ ((ts gv { core0 with slew := { slot := 16 } }).core 0).slew.slot = 16 ∧
    (let d := { core0 with slew := { prev := 32, used := 0, slot := 0, step := 16 } }
     4 * ((32 - 16) * 0 / 64) ≤ 0 ∧ ∀ m ∈ ((ts gv d).core 0).mq, m.isMma = false) :=
  ⟨by decide +kernel, by decide +kernel, by decide +kernel, by decide +kernel, rfl, by decide +kernel, by simp [ts, State.core, Tab.getD, Tab.get, core0]⟩

end Sys2Proof.Machine.Test
end

