-- ==== Sys2Proof/Tests/Traps.lean ====
section
/-!
SUPPORT. Witnesses of the statement about precise traps: words that are refused, dead registers, misaligned addresses, refused handles.
-/

namespace Sys2Proof.Machine.Test

set_option Elab.async false
set_option maxRecDepth 8000

/-! ### Words that are refused -/

/-- What `PreciseTraps` asks of a word that its hints, its privilege or its role refuse. -/
def refusedB (i : Instr) (g : Group) (code : Nat) : Bool :=
  match encode i with
  | some w => !hintWord i && (ts g core0).slotFree 2 g w && ((ts g core0).heldBack w g).isNone &&
      (match wordTrap w g with | some x => x.code == code | none => false)
  | none => false

def gUser : Group := { gv with id := { gv.id with supv := false } }

/-- A group whose bundle has a `wide` hint. -/
def gWide : Group := { gv with pc := 0x10104, bundle := some ⟨0x10100, false, some 1, none, none, none⟩ }

/-- For `PreciseTraps`: a wide hint on an `add` (trap 1), `sret` and a write of TRAPREC outside supervisor state (trap 2), `mfence` in a
vector group (trap 3). -/
theorem witness_refused :
    refusedB (.add 1 2 3 false false false false) gWide 1 = true ∧ refusedB (.sret 1 2 3) gUser 2 = true ∧
    refusedB (.swr 1 false 28) gUser 2 = true ∧ refusedB .mfence gv 3 = true ∧
    Issuer (ts gUser core0) 2 gUser ∧ Handled (ts gUser core0) gUser ∧ ((ts gUser core0).core 0).quiet :=
  ⟨by decide +kernel, by decide +kernel, by decide +kernel, by decide +kernel, ⟨rfl, rfl⟩, ⟨grid0, rfl, rfl, rfl⟩, ⟨rfl, rfl⟩⟩

/-! ### Dead registers -/

/-- A group of role `r` whose registers are dead, but for s0. -/
def gDead (r : Role) : Group := let g := tg r []; { g with regs := { g.regs with slive := 0, vlive := 0 } }

/-- What `DeadOp` asks of a word that would read `regs` under `mask`. -/
def deadB (r : Role) (i : Instr) (mask : Option Mask) (regs : List Reg) : Bool :=
  match encode i with
  | some w => (ts (gDead r) core0).slotFree 2 (gDead r) w && ((ts (gDead r) core0).heldBack w (gDead r)).isNone &&
      (wordTrap w (gDead r)).isNone && decide (mask ≠ some 0) && regs.any (fun y => !(gDead r).live y)
  | none => false

def deadS (i : Instr) (regs : List Reg) : Bool := deadB .vector i none regs
def deadV (i : Instr) (regs : List Reg) : Bool := deadB .vector i (some ((gDead .vector).eff 0)) regs

theorem dead_group (r : Role) : Issuer (ts (gDead r) core0) 2 (gDead r) ∧ Handled (ts (gDead r) core0) (gDead r) ∧
    ((ts (gDead r) core0).core 0).quiet := ⟨⟨rfl, rfl⟩, ⟨grid0, rfl, rfl, rfl⟩, ⟨rfl, rfl⟩⟩

theorem witness_dead_scalar :
    (∀ i ∈ scalarPairs, deadS (i 3 1 2 false false false false) [sr 1, sr 2] = true) ∧
    (∀ i ∈ scalarSingles, deadS (i 3 1 false false false) [sr 1] = true) ∧ (∀ i ∈ scalarImms, deadS (i 3 1 false 5) [sr 1] = true) ∧
    deadS (.bfi 3 0 false 5 5) [sr 0, sr 3] = true ∧ deadS (.cmovz 3 0 0 false false false false) [sr 0, sr 0, sr 3] = true ∧
    deadS (.ffma .rn 3 0 0 false false false) [sr 0, sr 0, sr 3] = true ∧ deadS (.bge 1 4) [sr 1] = true ∧
    deadS (.callr 3 1 false false) [sr 1] = true ∧ deadS (.ret 1 false false) [sr 1] = true ∧ deadS (.hadd 3 1 false 0) [sr 1] = true ∧
    deadS (.setperfV 1) [vr 1] = true ∧ deadS (.waitAny 3 1) [sr 1] = true ∧ deadS (.asgen 3 0 2) [sr 0, sr 2] = true ∧
    deadS (.acqF 3 1 .tag) [sr 1] = true ∧ deadS (.trysend 3 0 0 false) [sr 0, .s 1] = true :=
  ⟨by decide +kernel, by decide +kernel, by decide +kernel, by decide +kernel, by decide +kernel, by decide +kernel, by decide +kernel,
   by decide +kernel, by decide +kernel, by decide +kernel, by decide +kernel, by decide +kernel, by decide +kernel, by decide +kernel, by decide +kernel⟩

theorem witness_dead_lane :
    (∀ i ∈ lanePairs .w32 .bf16 .rn false, deadV (i 3 1 2 0 false false false) [vr 1, vr 2] = true) ∧
    (∀ i ∈ laneTriples .bf16 .rn false, deadV (i 3 1 2 0 false false false) [vr 1, vr 2, vr 3] = true) ∧
    (∀ i ∈ laneShifts, deadV (i 3 1 2 0 false false false) [vr 1, sr 2] = true) ∧
    (∀ i ∈ laneCompares .w32 .bf16 false, deadV (i 3 1 2 0 false false false) [vr 1, vr 2] = true) ∧
    (∀ i ∈ laneSums, deadV (i 3 1 0 false false) [vr 1] = true) ∧ deadV (.pset 3 1 0 false false) [sr 1] = true ∧
    deadV (.vcvt .i32 3 1 .f32 0 false .rn false) [vr 1] = true :=
  ⟨by decide +kernel, by decide +kernel, by decide +kernel, by decide +kernel, by decide +kernel, by decide +kernel, by decide +kernel⟩

theorem witness_dead_memory :
    deadS (.st false .w64 3 0 0 false false .none) [sr 0, sr 0, sr 3] = true ∧
    deadV (.vgather false .w32 3 0 1 0 false false .none) [sr 0, vr 1] = true ∧
    (∀ i ∈ atomicWords, deadS (i 3 0 0 false false .none) [sr 0, sr 0, sr 3] = true) ∧
    deadS (.acas 4 0 0 false false .none) [sr 0, sr 0, sr 4, .s 5] = true ∧
    deadS (.tst 3 1 0 false false .none) ((tensorRegs (ts (gDead .vector) core0) (gDead .vector) 1 0).map (·.1) ++ [sr 3]) = true ∧
    deadS (.cwbinv 0 1) [sr 0, sr 1] = true ∧ deadV (.pst 3 0 0 false) [vr 3] = true ∧
    deadS (.pcopy 0 1 false false false) [sr 0, sr 1] = true ∧ deadS (.scroll 0 1 .px .fill 2) [sr 0, sr 2] = true ∧
    deadV (.sts true .w8 3 0 1 0 false) [sr 0, vr 3] = true ∧
    (∀ i ∈ commandWords, deadB .copy (i 1 63 0) none [.s 1, .s 2, .s 3] = true) ∧
    deadB .matrix (.mma 1 0 .m32 1 0 false false) (some (tileMask (gDead .matrix) 0 32)) [.s 1, .s 2, .s 3] = true ∧
    deadB .matrix (.accrd 1 0 0 0 .rs 0) (some (tileMask (gDead .matrix) 0 128)) [sr 1] = true :=
  ⟨by decide +kernel, by decide +kernel, by decide +kernel, by decide +kernel, by decide +kernel, by decide +kernel, by decide +kernel,
   by decide +kernel, by decide +kernel, by decide +kernel, by decide +kernel, by decide +kernel, by decide +kernel⟩

/-! ### Misaligned addresses -/

/-- A group whose v1 holds 1 in lane 0, and whose s13 is odd. -/
def gOdd : Group := { gv with regs := { gv.regs with v := [[], [1]] } }

theorem witness_misaligned :
    (∀ i ∈ atomicWords, Ready (i 5 14 2 true false .none) sv 2 gv
        { needS gv [(sr 14, false), (sr 2, false), (sr 5, false)] (some (sr 5)) false false with closes := true } ∧
      Ready (i 0 14 4 false false .none) sv 2 gv
        { needS gv [(sr 14, false), (sr 4, false), (sr 0, false)] none false false with closes := true }) ∧
    (((gv.sreg 14).toNat + (gv.sreg 2).toNat) % 2 ^ 64 % 4 ≠ 0 ∧ ((gv.sreg 14).toNat + (gv.sreg 4).toNat) % 2 ^ 64 % 8 ≠ 0) ∧
    Ready (.acas 4 14 2 false false .none) sv 2 gv
      { needS gv [(sr 14, false), (sr 2, false), (sr 4, false), (.s 5, false)] (some (sr 4)) false false with closes := true } ∧
    Ready (.aaddf 5 14 2 false .none) sv 2 gv
      { needS gv [(sr 14, false), (sr 2, false), (sr 5, false)] (some (sr 5)) false false with closes := true } ∧
    (∀ w ∈ [Wid4.w16, .w32, .w64], Ready (.lds false w 3 13 1 0 true) (ts gOdd core0) 2 gOdd (needV gOdd [(sr 13, false), (vr 1, false)] (vr 3) false false 0) ∧
      Ready (.sts false w 3 13 1 0 true) (ts gOdd core0) 2 gOdd { needL gOdd [(sr 13, false), (vr 1, false), (vr 3, true)] [] false 0 with closes := true } ∧
      (lanesOf gOdd.lanes (gOdd.eff 0)).find? (fun n => offset false (w.bits / 8) 1 (gOdd.vreg 1 n) % (w.bits / 8) ≠ 0) = some 0) ∧
    Ready (.callr 31 13 true false) sv 2 gv (needS gv [(sr 13, true)] (some (sr 31)) false false) ∧
    Ready (.ret 13 false true) sv 2 gv (needS gv [(sr 13, false)] none false true) ∧ (gv.sreg 13).toNat % 4 ≠ 0 ∧ Handled sv gv ∧
    Handled (ts gOdd core0) gOdd :=
  ⟨all_and (all_ready rfl rfl (by decide +kernel)) (all_ready rfl rfl (by decide +kernel)), by decide +kernel, ready_of rfl rfl (by decide +kernel),
   ready_of rfl rfl (by decide +kernel), all_and (all_ready rfl rfl (by decide +kernel)) (all_and (all_ready rfl rfl (by decide +kernel)) (by decide +kernel)),
   ready_of rfl rfl (by decide +kernel), ready_of rfl rfl (by decide +kernel), by decide +kernel, handled, grid0, rfl, rfl, rfl⟩

/-! ### Handles -/

/-- A group of role `r` whose s1 holds no handle, s2 that of one word and s3 that of two. -/
def gHdl (r : Role) : Group := tg r [0, 0xFFFFFFFFFFFFFFFF, 0, 0x10000]
def sHdl (r : Role) : State := ts (gHdl r) core0
def needH (r : Role) (rs : List (Reg × Bool)) : Need := { needS (gHdl r) rs none false false with closes := true }

theorem no_handle (r : Role) (s : State) (k : Nat) : NoHandle 1 s k (gHdl r) := show rectOf 0xFFFFFFFFFFFFFFFF = none by decide +kernel

theorem witness_handles :
    let s := sHdl .vector
    let g := gHdl .vector
    (Ready (.pzero 1 true false) s 2 g (needH .vector [(sr 1, true)]) ∧
      Ready (.pfill 1 2 false true false) s 2 g (needH .vector [(sr 1, false), (sr 2, true)]) ∧
      Ready (.pdrop 1) s 2 g (needH .vector [(sr 1, false)])) ∧
    (∀ x ∈ [((1 : BitVec 5), (2 : BitVec 5)), (1, 1), (2, 1), (2, 3)],
      Ready (.pcopy x.1 x.2 false false false) s 2 g (needH .vector [(sr x.1, false), (sr x.2, false)])) ∧
    (¬ NoHandle 2 s 2 g ∧ ∃ x y, rectOf (g.sreg 2) = some x ∧ rectOf (g.sreg 3) = some y ∧ ¬(x.w = y.w ∧ x.h = y.h ∧ x.dc = y.dc)) ∧
    (Ready (.scroll 1 3 .px .fill 2) s 2 g (needH .vector [(sr 1, false), (sr 2, false)]) ∧
      Ready (.scrollResume 2 3 .my .wrap 0) s 2 g (needH .vector [(sr 2, false)]) ∧ g.sys.scrollpos.getLsbD 31 = false) ∧
    (Ready (.lds true .w64 3 1 1 0 true) s 2 g (needV g [(sr 1, false)] (vr 3) false false 0) ∧
      Ready (.sts true .w64 3 1 1 0 true) s 2 g { needL g [(sr 1, false), (vr 3, true)] [] false 0 with closes := true } ∧
      ∀ n ∈ lanesOf g.lanes (g.eff 0), offset true 8 1 (g.vreg 1 n) % 8 = 0) ∧
    (Ready (.acqW 1 .plane) s 2 g (needH .vector [(sr 1, false)]) ∧ g.blocked = none ∧ (s.core 0).acqWaits = [] ∧
      Ready (.acqF 5 1 .plane) s 2 g { needS g [(sr 1, false)] (some (sr 5)) false false with closes := true } ∧
      Ready (.rel 1 .plane) s 2 g (needH .vector [(sr 1, false)])) ∧ Handled s g :=
  ⟨⟨ready_of rfl rfl (by decide +kernel), ready_of rfl rfl (by decide +kernel), ready_of rfl rfl (by decide +kernel)⟩,
   all_ready rfl rfl (by decide +kernel), ⟨by unfold NoHandle; decide +kernel, _, _, rfl, rfl, by decide +kernel⟩,
   ⟨ready_of rfl rfl (by decide +kernel), ready_of rfl rfl (by decide +kernel), by decide +kernel⟩,
   ⟨ready_of rfl rfl (by decide +kernel), ready_of rfl rfl (by decide +kernel), by decide +kernel⟩,
   ⟨ready_of rfl rfl (by decide +kernel), rfl, rfl, ready_of rfl rfl (by decide +kernel), ready_of rfl rfl (by decide +kernel)⟩, grid0, rfl, rfl, rfl⟩

theorem witness_acc_handles :
    (∀ f ∈ [Instr.accld, Instr.accrd],
      Ready (f 1 11 0 0 .rs 0) (sHdl .matrix) 2 (gHdl .matrix) { needS (gHdl .matrix) [(sr 1, false)] none false false with
        lane := some (tileMask (gHdl .matrix) 0 128), closes := true }) ∧
    SlotsHeld (sHdl .matrix) (gHdl .matrix) 11 1 ∧ Handled (sHdl .matrix) (gHdl .matrix) :=
  ⟨all_ready rfl rfl (by decide +kernel), ⟨by decide +kernel, team1, rfl, fun i hi => by
    obtain rfl : i = 0 := by omega
    decide +kernel⟩, grid0, rfl, rfl, rfl⟩

end Sys2Proof.Machine.Test
end

