-- ==== Sys2Proof/Tests/Units.lean ====
section
/-!
SUPPORT. Witnesses of the statements about reliability, ports, resets and the root of trust, of the step, and of the statements over
all words and all states.
-/

namespace Sys2Proof.Machine.Test

set_option Elab.async false
set_option maxRecDepth 8000

/-! ### Reliability -/

/-- Core 0 with plane bank 0 on, and the errors named. -/
def errCore : Core := { core0 with pbank := [(0, .full)] }
def sErr (es : List Err) : State := { ts gv errCore with errs := es }
def err0 : Err := ⟨.plane 0 0, false⟩
def err1 : Err := ⟨.plane 0 1, false⟩
def errP : Err := ⟨.parity (.plane 0 1), false⟩
def errB : Err := ⟨.plane 1 0, false⟩

/-- For `ReliabilityResults`: a fresh strike on a stored word, one on no stored word, and a second one on a granule. -/
theorem witness_strikes :
    ((sErr [err0]).stored (.plane 0 1) = true ∧ (∀ e ∈ (sErr [err0]).errs, e.site ≠ .plane 0 1) ∧
      (sErr [err0]).stored (.plane 600 1) = false ∧ ∀ e ∈ (sErr [err0]).errs, e.site ≠ .plane 600 1) ∧
    ((sErr [err0]).stored (.parity (.plane 0 1)) = true ∧ (sErr [err0]).stored .latch = false) ∧
    ((sErr [⟨.hbm 5, false⟩]).stored (.hbm 5) = true ∧ ∃ e ∈ (sErr [⟨.hbm 5, false⟩]).errs, e.site = .hbm 5) := by
  decide +kernel

def sRebuild (es : List Err) : State :=
  { sErr es with dies := [(0, { rebuilds := [.plane 0 0, .plane 0 0, .plane 1 0], scrubs := [.plane 0 0] })] }

/-- Rebuilds: the only error of its group of rows; one beside another error there. -/
theorem witness_rebuilds :
    (let s := sRebuild [err0, errB]
     (s.die 0).rebuilds = err0.site :: [.plane 0 0, .plane 1 0] ∧ err0 ∈ s.errs ∧ (∀ o ∈ s.errs, o.site = err0.site → o = err0) ∧
       err0.marked = false ∧ coreAt err0.site = some 0 ∧ ∀ o ∈ s.errs, sameGroup err0.site o.site = false ∧ parityOf err0.site o.site = false) ∧
    (let s := sRebuild [err0, err1]
     (s.die 0).rebuilds = err0.site :: [.plane 0 0, .plane 1 0] ∧ (∀ o ∈ s.errs, o.site = err0.site → o = err0) ∧
       err0.site = .plane 0 0 ∧ err0.site ∈ (s.die 0).scrubs ∧ err1 ∈ s.errs ∧ sameGroup err0.site err1.site = true) ∧
    (let s := sRebuild [err0, errP]
     (∀ o ∈ s.errs, o.site = err0.site → o = err0) ∧ errP ∈ s.errs ∧ parityOf err0.site errP.site = true) := by
  decide +kernel

/-- Classifier entries of four rows and two columns, and of each class that a spare repairs. -/
def clsBank : ClsEnt := ⟨0, 0, 0, [(0, 1, 0), (1, 2, 1), (2, 1, 2), (3, 1, 3)], some (.bank, 3)⟩
def clsColumn : ClsEnt := ⟨0, 0, 0, [(0, 1, 0), (1, 1, 129), (2, 1, 4226)], some (.column, 4226)⟩
def clsRow : ClsEnt := ⟨0, 0, 0, [(0, 1, 0), (0, 2, 128), (0, 3, 4224)], some (.row, 4224)⟩
def clsCell : ClsEnt := ⟨0, 0, 0, [(0, 1, 4224), (0, 1, 4224)], some (.cell, 4224)⟩
def clsNew : ClsEnt := ⟨0, 0, 0, [(0, 1, 0)], none⟩
/-- An entry of another array. -/
def clsRows : ClsEnt := ⟨0, 1, 0, [(0, 1, 0), (0, 1, 0)], some (.cell, 0)⟩
def sCls (r : Ras) : State :=
  { ts gv { errCore with ras := r } with dies := [(0, { classifier := [clsBank, clsColumn, clsRow, clsCell, clsNew, clsRows] })] }

theorem witness_repairs :
    (let s := sCls {}
     (s.die 0).classifier[0]? = some clsBank ∧ s.mayRepair clsBank = true ∧ clsBank.want = some (.bank, 3) ∧
       (s.die 0).classifier[1]? = some clsColumn ∧ s.mayRepair clsColumn = true ∧ clsColumn.array = 0 ∧ clsColumn.want = some (.column, 33 * 128 + 2) ∧
       (s.die 0).classifier[2]? = some clsRow ∧ s.mayRepair clsRow = true ∧ clsRow.want = some (.row, 33 * 128) ∧
       (s.die 0).classifier[3]? = some clsCell ∧ s.mayRepair clsCell = true ∧ clsCell.want = some (.cell, 33 * 128) ∧ (s.die 0).classifier[4]? = some clsNew ∧ clsNew.want = none ∧ (s.core 0).ras.colSpare = false ∧ (s.core 0).ras.rowSpare = false) ∧
    (let s := sCls {}
     (s.die 0).classifier[5]? = some clsRows ∧ s.mayRepair clsRows = true ∧ clsRows.want = some (.cell, 0) ∧
       Tab.getD (s.core 0).ras.arrSpares clsRows.array 0 % 256 < 2 ∧ 2 ≤ Tab.getD ((sCls { arrSpares := [(1, 2)] }).core 0).ras.arrSpares 1 0 % 256) ∧
    (let s := sCls { colSpare := true, rowSpare := true }
     (s.die 0).classifier[1]? = some clsColumn ∧ s.mayRepair clsColumn = true ∧ (s.core 0).ras.colSpare = true ∧ (s.core 0).ras.rowSpare = true) := by
  decide +kernel

/-- A scrub of a damaged word and of a marked one; matrix rows that are and are not at fault, and a check beside a working array; replays that
are and are not the fourth. -/
theorem witness_scrubs :
    (let s := sErr [err0, { err1 with marked := true }]
     s.errs[0]? = some err0 ∧ err0.site = .plane 0 0 ∧ err0.marked = false ∧ s.stored err0.site = true ∧
       s.errs[1]? = some { err1 with marked := true } ∧ s.stored err1.site = true ∧ coreAt err1.site = some 0) ∧
    (let s := sErr [errP]
     s.errs[0]? = some errP ∧ errP.marked = false ∧ s.stored errP.site = true ∧ ∀ x ∈ s.errs, inGroup (.plane 0 1) x.site = false) ∧
    (let s := sErr [⟨.matRow 0 3, false⟩]
     (∃ e ∈ s.errs, e.site = .matRow 0 3) ∧ (s.core 0).ras.matSpares < 2 ∧ ∀ e ∈ s.errs, e.site ≠ .matRow 0 4) ∧
    (let s := { ts gv { errCore with ras := { matSpares := 2 } } with errs := [⟨.matRow 0 3, false⟩] }
     (∃ e ∈ s.errs, e.site = .matRow 0 3) ∧ 2 ≤ (s.core 0).ras.matSpares) ∧
    (let e : MEnt := { kind := .mma, group := 2, team := 1, slot := 0, slots := 1, rows := 1, begun := true, busy := 4 }
     let c := (ts gv { core0 with mq := [e] }).core 0
     c.working = some (0, e) ∧ c.slew.slot < 16 ∧ c.slew.at ≤ c.clk) ∧ ((sErr []).core 0).working = none ∧
    ((sErr []).core 575).quiet ∧ Tab.getD ((sErr []).core 575).ras.replays 4 0 < 3 ∧ ((ts gv { errCore with ras := { replays := [(4, 3)] } }).core 0).quiet ∧
    3 ≤ Tab.getD ((ts gv { errCore with ras := { replays := [(4, 3)] } }).core 0).ras.replays 4 0 := by
  refine ⟨by decide +kernel, by decide +kernel, by decide +kernel, by decide +kernel, by decide +kernel, rfl, ⟨by decide +kernel, by decide +kernel⟩, by decide +kernel,
    ⟨by decide +kernel, by decide +kernel⟩, by decide +kernel⟩

/-! ### Ports -/

theorem error_of {α β : Type} {x : Except α β} (h : okB x = false) : ∃ c, x = .error c := by
  cases x with
  | error c => exact ⟨c, rfl⟩
  | ok _ => exact absurd h (by simp [okB])


def sPort (p : Port) : State := { sv with ports := [(35, p)], sup := { peerwin := 0x10000, bar2map := 0x117 } }

/-- For `PortResults`: a port in each state, with its spare used or not, and with sixteen replays. -/
theorem witness_ports :
    ((sPort { state := .up }).port 35).state = .up ∧ ((sPort { state := .up }).port 35).spareUsed = false ∧
    ((sPort { state := .up }).port 35).replays < 16 ∧
    ((sPort { state := .up, spareUsed := true, replays := 16 }).port 35).spareUsed = true ∧
    16 ≤ ((sPort { state := .up, spareUsed := true, replays := 16 }).port 35).replays ∧
    ((sPort { state := .failover }).port 35).state = .failover ∧ ((sPort { state := .retrain }).port 35).state = .retrain ∧
    ((sPort {}).port 35).state = .down := by
  decide +kernel

/-- A load whose page lies behind port 35, outstanding when that port loses its signal. -/
def aPeer : Access :=
  { op := .load, ord := 1, dest := some (.s 5), bits := 64, sext := false, scope := none, acq := false, rel := false, vol := false
    parts := [{ lane := 0, off := 0, va := 0x20000, pa := 3 * 2 ^ 50 + 35 * 2 ^ 44, n := 8, kind := .rc }], pc := 0x10100, insn := 0 }
def gPeer : Group := { gv with accs := [aPeer], ord := 2 }

theorem witness_lost_load :
    let s := { sPort { state := .up } with groups := [(2, gPeer)] }
    (s.port 35).state = .up ∧ s.group 2 = some gPeer ∧ gPeer.accs[0]? = some aPeer ∧
    ∃ x, aPeer.parts[0]? = some x ∧ targetOf x.pa = .peer 35 ∧ s.inOrder 2 gPeer 0 0 aPeer x = true :=
  ⟨by decide +kernel, rfl, rfl, _, rfl, by decide +kernel, by decide +kernel⟩

/-- Inbound requests: of a port that is not Up, through a closed window, that reach a heap in reset, a poisoned granule or a clean
one, that do not translate, and that reach no heap; and requests of BAR2. -/
def sIn : State := { sPort { state := .up } with
  cores := [(0, core0), (noCore, { tlb := [tlb0, ⟨0, 0x40000000, 0x40000000, 0x800004000003F, 0⟩] })] }

theorem witness_inbound :
    (((sPort {}).port 35).state ≠ .up) ∧ ({ sIn with sup := {} } : State).sup.peerwin.getLsbD 16 = false ∧
    ((sIn.port 35).state = .up ∧ sIn.sup.peerwin.getLsbD 16 = true ∧ xlat sIn noCore 0 0x1000 .read true = .ok ⟨0x1000, .rc, sIn.gen 0⟩ ∧
      xlat sIn noCore 0 0x1000 .write true = .ok ⟨0x1000, .rc, sIn.gen 0⟩ ∧ targetOf 0x1000 = .heap 0 ∧ (sIn.die 0).uncoreReset = false ∧
      poisoned sIn 0x1000 8 = false ∧ poisoned { sIn with poison := [128] } 0x1000 8 = true ∧
      (({ sIn with dies := [(0, { uncoreReset := true })] } : State).die 0).uncoreReset = true ∧
      xlat sIn noCore 0 0x1000 .both true = .ok ⟨0x1000, .rc, sIn.gen 0⟩ ∧ sIn.front.locked = false ∧ poisonAt sIn (bits sIn.sup.bar2map 4 0 * 2 ^ 36) 64 = none) ∧
    (∃ c, xlat sIn noCore 0 0x80000000 .read true = .error c) ∧
    (∃ x, xlat sIn noCore 0 0x40000000 .read true = .ok x ∧ targetOf x.pa = .host) ∧
    (inHeap (31 * 2 ^ 36) 8 = false ∧ poisonAt { sIn with poison := [128] } 0x1000 8 ≠ none) ∧
    (sIn.sup.bar2map.getLsbD 8 = true ∧ inHeap (bits sIn.sup.bar2map 4 0 * 2 ^ 36 + 0xFFFFFFFF8) 8 = true ∧
      storePoison sIn (bits sIn.sup.bar2map 4 0 * 2 ^ 36 + 0xFFFFFFFF8) 8 = none ∧ ({ sIn with sup := {} } : State).sup.bar2map.getLsbD 8 = false) := by
  refine ⟨by decide +kernel, by decide +kernel, ⟨rfl, rfl, rfl, rfl, by decide +kernel, by decide +kernel, by decide +kernel, by decide +kernel, by decide +kernel, rfl, by decide +kernel, by decide +kernel⟩, error_of (by decide +kernel), ⟨_, rfl, by decide +kernel⟩, by decide +kernel, by decide +kernel⟩

/-! ### Resets and the root of trust -/

/-- For `ResetAndTrustResults`: a mailbox with and without a request, firmware of the highest version, no grid and one grid. -/
theorem witness_trust :
    sv.front.mailbox ≠ 1 ∧ ({ sv with front := { sv.front with mailbox := 1 } } : State).front.mailbox = 1 ∧
    Config.rollback.toNat ≤ (0xFFFFFFFF : BitVec 32).toNat ∧ (∃ i : Image, ∃ d, i.signed = true ∧ i.powerUp = true ∧ sha512 i.contents = d) ∧
    State.reset.grids = [] ∧ sv.grids = [(0, grid0)] ∧ grid0.ended = none ∧
    (∀ e ∈ sv.cores, e.2.acqWaits = []) ∧
    (∀ x, (endGrid sv 0 18 0).grid 0 = some x → (endGrid sv 0 18 0).flushStalled x = false) :=
  ⟨by decide +kernel, by decide +kernel, by have := Config.rollback.isLt; have h : (0xFFFFFFFF : BitVec 32).toNat = 4294967295 := rfl; omega, ⟨⟨[], true, true⟩, _, rfl, rfl, rfl⟩, rfl, rfl, rfl, by decide +kernel, by
    have h : (match (endGrid sv 0 18 0).grid 0 with | some x => (endGrid sv 0 18 0).flushStalled x | none => false) = false := by decide +kernel
    intro x hx
    rwa [hx] at h⟩

/-! ### The step -/

/-- The word of add s7, s5, s6, loaded as the next to issue. -/
def loadedAdd : State := State.reset.withFetchWord 32 0x040E5300

/-- What a step comes to when a turn is a group's. -/
noncomputable def stepsB (s : State) (k : Nat) : Bool :=
  match s.turn with
  | (some (.issue j), s1) => j == k && (match s1.group k with
    | some g => s1.canIssue g && g.dueTrap.isNone && !g.barks && (match fetch s1 k g with
      | .word w _ => !g.rptOver w && (match g.wordDue w with
        | some v => (match decode v with | .ok i => i.wf | .error _ => false)
        | none => false)
      | _ => false)
    | none => false)
  | _ => false

/-- For `StepRunsDecoded`. -/
theorem witness_step : stepsB loadedAdd 2 = true := by decide +kernel

theorem witness_step_meets :
    ∃ (s s1 s2 : State) (k : Nat) (g : Group) (w w' : W32) (i : Instr), s.turn = (some (.issue k), s1) ∧ s1.group k = some g ∧ s1.canIssue g = true ∧ g.dueTrap = none ∧ g.barks = false ∧
      fetch s1 k g = .word w s2 ∧ g.rptOver w = false ∧ g.wordDue w = some w' ∧ decode w' = .ok i ∧ i.wf = true := by
  have h := witness_step
  refine ⟨loadedAdd, ?_⟩
  unfold stepsB at h
  split at h
  · split at h
    · split at h
      · split at h
        · split at h
          · simp only [Bool.and_eq_true, Option.isNone_iff_eq_none, Bool.not_eq_true', beq_iff_eq] at h
            rename_i j s1 h1 _ g h2 _ w s2 h3 _ w' h4 _ i h5
            obtain ⟨rfl, ⟨⟨h6, h7⟩, h8⟩, h9, h10⟩ := h
            exact ⟨s1, s2, _, g, w, w', i, h1, h2, h6, h7, h8, h3, h9, h4, h5, h10⟩
          · simp at h
        · simp at h
      · simp at h
    · simp at h
  · simp at h

/-- The word fetched: on an empty translation cache, from tables in memory; and a bundle of no repeat. -/
def gFetch : Group := { gv with pc := 0x10100 }
def sFetch : State := { ts gFetch core0 with mem := [(0x10101, 0x53), (0x10103, 0x04)] }

theorem witness_fetch :
    sFetch.group 2 = some gFetch ∧ gFetch.fetchWait = none ∧ sFetch.errs = [] ∧ sFetch.grid gFetch.id.grid = some grid0 ∧
    gFetch.pc.toNat % 4 = 0 ∧ grid0.launch.imgbase + 256 ≤ gFetch.pc.toNat ∧ gFetch.pc.toNat < grid0.launch.imgbase + 4 * grid0.launch.imgwords ∧
    xlat sFetch gFetch.id.core gFetch.id.asid gFetch.pc.toNat .fetch (!gFetch.id.supv) = .ok ⟨0x10100, .rc, sFetch.gen 0⟩ ∧
    poisonAt sFetch 0x10100 4 = none ∧ gFetch.bundle = none ∧ ∀ e ∈ sFetch.groups, e.2.inMem = false :=
  ⟨rfl, rfl, rfl, rfl, by decide +kernel, by decide +kernel, by decide +kernel, rfl, rfl, rfl, by decide +kernel⟩

/-- An end of a step on which nothing falls due. -/
theorem witness_close : (∀ e ∈ sFetch.groups, e.2.inMem = false) ∧ (∀ e ∈ sFetch.groups, e.2.gstate = .ctxFault → e.2.bundle = none) ∧
    (∀ e ∈ sFetch.cores, e.2.rels = []) ∧ ∀ c, (sFetch.core c).clk = (sFetch.core c).clk :=
  ⟨by decide +kernel, by decide +kernel, by decide +kernel, fun _ => rfl⟩

/-- For `RoundTrip`: a well-formed instruction that has a word. -/
theorem witness_round_trip : encode (.add 7 5 6 false false false false) = some 0x040E5300 ∧ (Instr.add 7 5 6 false false false false).wf = true := by
  decide +kernel

/-- For `MemoryForm`: the state after reset with a word loaded has memory in its form, and a step goes on from it. -/
theorem witness_memory_form : Safe loadedAdd := show memWf loadedAdd.mem = true by decide +kernel

def nextB : Host.Outcome State Fault Refusal → Bool
  | .next _ => true
  | _ => false

theorem witness_step_goes_on : ∃ t, step loadedAdd = .next t := by
  have h : nextB (step loadedAdd) = true := by decide +kernel
  cases hs : step loadedAdd with
  | next t => exact ⟨t, rfl⟩
  | fault f => rw [hs] at h; exact absurd h (by simp [nextB])
  | refused r => rw [hs] at h; exact absurd h (by simp [nextB])

end Sys2Proof.Machine.Test
end

section
/-!
PROOFS. Scalar integer instructions (spec/07 R145 to R147, R149).  What an arm of the shape `scalarBin` or `scalarUn` leaves of the
state is the law `scalar2_of` or `scalar1_of`; what remains for each instruction is that the number its arm computes is the one the
statement names.
-/

namespace Sys2Proof.Machine

/-! ### The numbers that the arms compute -/

/-- A compare's bit is the value of the truth that it decides. -/
theorem ofBool_decide (p : Prop) [Decidable p] : ofBool (decide p) = truth p := by
  by_cases h : p <;> simp [ofBool, truth, h]

theorem ofBool_beq (a b : Nat) : ofBool (a == b) = truth (a = b) := ofBool_decide (a = b)

theorem ofBool_bne (a b : Nat) : ofBool (a != b) = truth (a ≠ b) := by
  show ofBool (!decide (a = b)) = truth (a ≠ b)
  rw [← decide_not, ofBool_decide]

/-- The address of element `b` of `n` bytes from `a`, in the order in which R149 writes it. -/
theorem lea_comm (n a b : Nat) : a + b * n = a + n * b := by rw [Nat.mul_comm]

/-! ### The laws for an arm that computes the statement's own number -/

theorem scalar2_self {i : BitVec 5 → BitVec 5 → BitVec 5 → Bool → Bool → Bool → Bool → Instr} {f : Nat → Nat → Nat → Nat}
    {w : BitVec 5 → BitVec 5 → BitVec 5 → Bool → Bool → Bool → Bool → W32}
    (hi : ∀ d a b l m e x s, exec (i d a b l m e x) s = scalarBin (w d a b l m e x) d a b l m e x f s)
    (he : ∀ d a b l m e x, encode (i d a b l m e x) = some (w d a b l m e x)) : Scalar2 i f :=
  scalar2_of hi he (fun _ _ _ => rfl)

theorem scalar1_self {i : BitVec 5 → BitVec 5 → Bool → Bool → Bool → Instr} {f : Nat → Nat → Nat}
    {w : BitVec 5 → BitVec 5 → Bool → Bool → Bool → W32}
    (hi : ∀ d a l e x s, exec (i d a l e x) s = scalarUn (w d a l e x) d a l e x f s)
    (he : ∀ d a l e x, encode (i d a l e x) = some (w d a l e x)) : Scalar1 i f :=
  scalar1_of hi he (fun _ _ => rfl)

/-- Settles O1: each arm is of the shape `scalarBin` or `scalarUn`; only the compares and the `lea`s compute their number in
another form than the statement's. -/
theorem scalarIntegerResults : Obligations.ScalarIntegerResults := by
  unfold Obligations.ScalarIntegerResults
  exact ⟨
    -- sums, logic, shifts, products, minimum and maximum (R145)
    scalar2_self exec_add (fun _ _ _ _ _ _ _ => rfl),
    scalar2_self exec_sub (fun _ _ _ _ _ _ _ => rfl),
    scalar2_self exec_and (fun _ _ _ _ _ _ _ => rfl),
    scalar2_self exec_or (fun _ _ _ _ _ _ _ => rfl),
    scalar2_self exec_xor (fun _ _ _ _ _ _ _ => rfl),
    scalar2_self exec_andn (fun _ _ _ _ _ _ _ => rfl),
    scalar2_self exec_shl (fun _ _ _ _ _ _ _ => rfl),
    scalar2_self exec_shrI (fun _ _ _ _ _ _ _ => rfl),
    scalar2_self exec_shrN (fun _ _ _ _ _ _ _ => rfl),
    scalar2_self exec_rotl (fun _ _ _ _ _ _ _ => rfl),
    scalar2_self exec_rotr (fun _ _ _ _ _ _ _ => rfl),
    scalar2_self exec_mul (fun _ _ _ _ _ _ _ => rfl),
    scalar2_self exec_mulhI (fun _ _ _ _ _ _ _ => rfl),
    scalar2_self exec_mulhN (fun _ _ _ _ _ _ _ => rfl),
    scalar2_self exec_minI (fun _ _ _ _ _ _ _ => rfl),
    scalar2_self exec_minN (fun _ _ _ _ _ _ _ => rfl),
    scalar2_self exec_maxI (fun _ _ _ _ _ _ _ => rfl),
    scalar2_self exec_maxN (fun _ _ _ _ _ _ _ => rfl),
    -- division (R146)
    scalar2_self exec_divI (fun _ _ _ _ _ _ _ => rfl),
    scalar2_self exec_divN (fun _ _ _ _ _ _ _ => rfl),
    scalar2_self exec_remI (fun _ _ _ _ _ _ _ => rfl),
    scalar2_self exec_remN (fun _ _ _ _ _ _ _ => rfl),
    -- saturating sums (R145)
    scalar2_self exec_addsI (fun _ _ _ _ _ _ _ => rfl),
    scalar2_self exec_subsI (fun _ _ _ _ _ _ _ => rfl),
    -- compares (R147)
    scalar2_of exec_seq (fun _ _ _ _ _ _ _ => rfl) (fun _ => ofBool_beq),
    scalar2_of exec_sne (fun _ _ _ _ _ _ _ => rfl) (fun _ => ofBool_bne),
    scalar2_of exec_sltI (fun _ _ _ _ _ _ _ => rfl) (fun _ _ _ => ofBool_decide _),
    scalar2_of exec_sltN (fun _ _ _ _ _ _ _ => rfl) (fun _ _ _ => ofBool_decide _),
    scalar2_of exec_sleI (fun _ _ _ _ _ _ _ => rfl) (fun _ _ _ => ofBool_decide _),
    scalar2_of exec_sleN (fun _ _ _ _ _ _ _ => rfl) (fun _ _ _ => ofBool_decide _),
    -- addresses (R149)
    scalar2_of exec_lea2 (fun _ _ _ _ _ _ _ => rfl) (fun _ => lea_comm 2),
    scalar2_of exec_lea4 (fun _ _ _ _ _ _ _ => rfl) (fun _ => lea_comm 4),
    scalar2_of exec_lea8 (fun _ _ _ _ _ _ _ => rfl) (fun _ => lea_comm 8),
    scalar2_of exec_lea16 (fun _ _ _ _ _ _ _ => rfl) (fun _ => lea_comm 16),
    -- one source (R145)
    scalar1_self exec_clz (fun _ _ _ _ _ => rfl),
    scalar1_self exec_ctz (fun _ _ _ _ _ => rfl),
    scalar1_self exec_popc (fun _ _ _ _ _ => rfl),
    scalar1_self exec_brev (fun _ _ _ _ _ => rfl),
    scalar1_self exec_bswap (fun _ _ _ _ _ => rfl),
    scalar1_self exec_abs (fun _ _ _ _ _ => rfl)⟩

end Sys2Proof.Machine
end

section
/-!
PROOFS. Lane instructions: element-wise integers (spec/09 R187 to R189), cross-lane reads, matches, votes and lane moves (R204 to
R209).  An arm of the shape `laneBin`, `laneUn` or `laneMove` leaves of the state what the laws `laneOp_of`, `laneOp64_of` and
`laneValues_of` say; what remains for each instruction is that the elements, or the word, that its arm computes are those that the
statement names.
-/

namespace Sys2Proof

theorem Wid3.bits_pos (w : Wid3) : 0 < w.bits := by cases w <;> decide
theorem Wid4.bits_pos (w : Wid4) : 0 < w.bits := by cases w <;> decide

end Sys2Proof

namespace Sys2Proof.Machine

/-! ### The laws for the shapes of the arms -/

/-- The only element of 64 bits of a word is the word. -/
theorem elem_64_zero (x : Word) : elem 64 x 0 = x.toNat := by
  have := x.isLt
  simp only [elem]
  omega

theorem lane2_of {i : BitVec 5 → BitVec 5 → BitVec 5 → BitVec 3 → Bool → Bool → Bool → Instr}
    {c : BitVec 5 → BitVec 5 → BitVec 5 → BitVec 3 → Bool → Bool → Bool → W32} {w : Nat} {f f' : Nat → Nat → Nat}
    (hw : 0 < w)
    (hi : ∀ d a b q l m e s, exec (i d a b q l m e) s = laneBin (c d a b q l m e) d a b q l m e (elemwise w f) s)
    (hf : ∀ a b, f a b = f' a b)
    (he : ∀ d a b q l m e, encode (i d a b q l m e) = some (c d a b q l m e) := by intros; rfl) : Lane2 i w f' := by
  have : f = f' := by funext; apply hf
  subst this
  exact fun d a b q l m e => laneOp_of (hi d a b q l m e) (he ..) (fun _ _ => rfl) hw

/-- The law for an arm that computes the statement's own elements. -/
theorem lane2_self {i : BitVec 5 → BitVec 5 → BitVec 5 → BitVec 3 → Bool → Bool → Bool → Instr}
    {c : BitVec 5 → BitVec 5 → BitVec 5 → BitVec 3 → Bool → Bool → Bool → W32} {w : Nat} {f : Nat → Nat → Nat}
    (hw : 0 < w)
    (hi : ∀ d a b q l m e s, exec (i d a b q l m e) s = laneBin (c d a b q l m e) d a b q l m e (elemwise w f) s)
    (he : ∀ d a b q l m e, encode (i d a b q l m e) = some (c d a b q l m e) := by intros; rfl) : Lane2 i w f :=
  lane2_of hw hi (fun _ _ => rfl) he

/-- The law for an arm that computes a word from two words. -/
theorem lane2_word {i : BitVec 5 → BitVec 5 → BitVec 5 → BitVec 3 → Bool → Bool → Bool → Instr}
    {c : BitVec 5 → BitVec 5 → BitVec 5 → BitVec 3 → Bool → Bool → Bool → W32} {f : Word → Word → Word} {f' : Nat → Nat → Nat}
    (hi : ∀ d a b q l m e s, exec (i d a b q l m e) s = laneBin (c d a b q l m e) d a b q l m e f s)
    (hf : ∀ a b, (f a b).toNat = f' a.toNat b.toNat)
    (he : ∀ d a b q l m e, encode (i d a b q l m e) = some (c d a b q l m e) := by intros; rfl) :
    Lane2 i 64 f' := fun d a b q l m e =>
  laneOp64_of (hi d a b q l m e) (he ..) (fun _ _ => by rw [hf, elem_64_zero, elem_64_zero])

theorem lane1_self {i : BitVec 5 → BitVec 5 → BitVec 3 → Bool → Bool → Instr}
    {c : BitVec 5 → BitVec 5 → BitVec 3 → Bool → Bool → W32} {w : Nat} {f : Nat → Nat} (hw : 0 < w)
    (hi : ∀ d a q l e s, exec (i d a q l e) s = laneUn (c d a q l e) d a q l e (elemwise1 w f) s)
    (he : ∀ d a q l e, encode (i d a q l e) = some (c d a q l e) := by intros; rfl) : Lane1 i w f := fun d a q l e =>
  laneOp_of (hi d a q l e) (he ..) (fun _ _ => rfl) hw

theorem lane1_word {i : BitVec 5 → BitVec 5 → BitVec 3 → Bool → Bool → Instr}
    {c : BitVec 5 → BitVec 5 → BitVec 3 → Bool → Bool → W32} {f : Word → Word} {f' : Nat → Nat}
    (hi : ∀ d a q l e s, exec (i d a q l e) s = laneUn (c d a q l e) d a q l e f s)
    (hf : ∀ a, (f a).toNat = f' a.toNat)
    (he : ∀ d a q l e, encode (i d a q l e) = some (c d a q l e) := by intros; rfl) : Lane1 i 64 f' := fun d a q l e =>
  laneOp64_of (hi d a q l e) (he ..) (fun _ _ => by rw [hf, elem_64_zero])

theorem laneI_of {i : BitVec 5 → BitVec 5 → BitVec 3 → Bool → BitVec 8 → Instr}
    {c : BitVec 5 → BitVec 5 → BitVec 3 → Bool → BitVec 8 → W32} {w : Nat} {f f' : Nat → BitVec 8 → Nat} (hw : 0 < w)
    (hi : ∀ d a q l n s, exec (i d a q l n) s = laneImm (c d a q l n) d a q l (elemwise1 w (fun a => f a n)) s)
    (hf : ∀ a n, f a n = f' a n)
    (he : ∀ d a q l n, encode (i d a q l n) = some (c d a q l n) := by intros; rfl) : LaneI i w f' := by
  have : f = f' := by funext; apply hf
  subst this
  exact fun d a q l n => laneOp_of (hi d a q l n) (he ..) (fun _ _ => rfl) hw

/-- The law for an arm whose lanes take whole words. -/
theorem laneWord_of {i : Instr} {d : BitVec 5} {q : BitVec 3} {srcs : List (Reg × Bool)} {e : Bool} {c : W32}
    {f f' : Group → Nat → Word} (hi : ∀ s, exec i s = laneMove c d srcs e q f s) (he : encode i = some c)
    (hf : ∀ g j, f g j = f' g j) : LaneWord i d q srcs e f' := by
  have : f = f' := by funext; apply hf
  subst this
  exact laneValues_of hi he

/-! ### The elements that the arms compute -/

theorem absDiffN_eq (a b : Nat) : absDiffN a b = max a b - min a b := by
  unfold absDiffN
  split <;> omega

theorem toNat_andNot (a b : Word) : (a &&& ~~~b).toNat = a.toNat &&& (2 ^ 64 - 1 - b.toNat) := by
  rw [BitVec.toNat_and, BitVec.toNat_not]

/-- At most 64 bits of a word are ones. -/
theorem toNat_ones (a : Word) : (BitVec.ofNat 64 (ones 64 a.toNat)).toNat = ones 64 a.toNat := by
  have h : ones 64 a.toNat ≤ 64 := Nat.le_trans (List.length_filter_le _ _) (Nat.le_of_eq List.length_range)
  rw [BitVec.toNat_ofNat]
  omega

/-! ### The words that the arms across lanes compute -/

/-- The low ten bits of an index (R205). -/
theorem bits_index (x : Word) : bits x 9 0 = x.toNat % 2 ^ 10 := by
  simp only [bits, Nat.pow_zero, Nat.div_one]

/-- A choice of zero where a lane lies outside the row, and the same choice where it lies inside. -/
theorem ite_zero_eq {p p' : Prop} [Decidable p] [Decidable p'] (h : p ↔ ¬ p') (x : Word) :
    (if p then 0 else x) = if p' then x else 0 := by
  by_cases hp : p
  · rw [if_pos hp, if_neg (h.mp hp)]
  · rw [if_neg hp, if_pos (Decidable.not_not.mp (fun hn => hp (h.mpr hn)))]

/-- The lane from which a rotation of a row by `k` reads stays in the row of lane `j` (R205). -/
theorem rotated_lane (j k : Nat) : j / 32 * 32 + (j + k) % 32 = 32 * (j / 32) + (j % 32 + k) % 32 := by
  omega

/-- Bit 7 of byte `m` says whether the byte is 128 or more. -/
theorem getLsbD_byteTop (b : Word) (m : Nat) : b.getLsbD (8 * m + 7) = decide (128 ≤ elem 8 b m) := by
  rw [BitVec.getLsbD, Nat.testBit_eq_decide_div_mod_eq, Nat.pow_add, ← Nat.div_div_eq_div_mul]
  simp only [elem]
  congr 1
  apply propext
  omega

/-- The low three bits of byte `m`. -/
theorem bits_byteLow (b : Word) (m : Nat) : bits b (8 * m + 2) (8 * m) = elem 8 b m % 8 := by
  have h : 8 * m + 2 + 1 - 8 * m = 3 := by omega
  simp only [bits, elem, h]
  omega

/-- Byte selection, byte by byte (R205). -/
theorem subSel_eq (a b : Word) :
    subSel a b = pack 8 (fun k => if 128 ≤ elem 8 b k then 0 else elem 8 a (elem 8 b k % 8)) := by
  simp only [subSel, getLsbD_byteTop, bits_byteLow, decide_eq_true_eq]

theorem bitsOf_lt (f : Nat → Bool) (n : Nat) : bitsOf f n < 2 ^ n :=
  Nat.lt_pow_two_of_testBit _ (fun i hi => by
    rw [testBit_bitsOf, decide_eq_false (Nat.not_lt.mpr hi), Bool.false_and])

/-- The mask of a row, as a number (R206, R207). -/
theorem toNat_rowMask (y : Nat) (p : Nat → Bool) : (rowMask y p).toNat = bitsOf (fun x => p (y * 32 + x)) 32 := by
  have h := bitsOf_lt (fun x => p (32 * y + x)) 32
  rw [rowMask, BitVec.toNat_ofNat, Nat.mod_eq_of_lt (by omega), Nat.mul_comm]

/-- The one destination of a lane word that writes scalar `d`; s0 is none (R69). -/
theorem needL_dests_scalar (g : Group) (srcs : List (Reg × Bool)) (d : BitVec 5) (e : Bool) (q : Nat) :
    (needL g srcs [sr d] e q).dests = pick (sr d != .s 0) (sr d) := by
  simp only [needL, pick, List.filter_cons, List.filter_nil]

/-- The lanes of two masks, counted. -/
theorem length_lanesOf_and (n : Nat) (m p : Mask) :
    (lanesOf n (m &&& p)).length = (List.range n).countP (fun j => bit m j && bit p j) := by
  rw [List.countP_eq_length_filter, lanesOf]
  congr 2
  funext j
  exact BitVec.getLsbD_and

/-- Settles O3: each arm applies the statement's operation to each element, but for the unsigned difference and the bitwise
instructions, which compute on words. -/
theorem laneIntegerResults : Obligations.LaneIntegerResults := by
  unfold Obligations.LaneIntegerResults
  exact ⟨
    -- sums, differences and products of 8, 16 and 32 bits (R187, R188)
    fun w x => lane2_self w.bits_pos (fun d a b q l m e => exec_vadd w d a b q l m e x),
    fun w x => lane2_self w.bits_pos (fun d a b q l m e => exec_vsub w d a b q l m e x),
    fun w x => lane2_self w.bits_pos (fun d a b q l m e => exec_vmul w d a b q l m e x),
    -- minimum, maximum, difference and average (R187)
    fun w => lane2_self w.bits_pos (exec_vminI w),
    fun w => lane2_self w.bits_pos (exec_vminN w),
    fun w => lane2_self w.bits_pos (exec_vmaxI w),
    fun w => lane2_self w.bits_pos (exec_vmaxN w),
    fun w => lane2_self w.bits_pos (exec_vabsdI w),
    fun w => lane2_of w.bits_pos (exec_vabsdN w) absDiffN_eq,
    fun w => lane2_self w.bits_pos (exec_vavgI w),
    fun w => lane2_self w.bits_pos (exec_vavgN w),
    -- shifts (R187, R188)
    fun w x => lane2_self w.bits_pos (fun d a b q l m e => exec_vshl w d a b q l m e x),
    fun w => lane2_self w.bits_pos (exec_vshrI w),
    fun w => lane2_self w.bits_pos (exec_vshrN w),
    -- one source (R187, R188)
    fun w x => lane1_self w.bits_pos (fun d a q l e => exec_vneg w d a q l e x),
    fun w x => lane1_self w.bits_pos (fun d a q l e => exec_vabs w d a q l e x),
    -- elements of 64 bits (R187, R188)
    fun x => lane2_self (by decide) (fun d a b q l m e => exec_vaddI64 d a b q l m e x),
    fun x => lane2_self (by decide) (fun d a b q l m e => exec_vsubI64 d a b q l m e x),
    fun x => lane2_self (by decide) (fun d a b q l m e => exec_vmulI64 d a b q l m e x),
    lane2_self (by decide) exec_vminI64,
    lane2_self (by decide) exec_vminN64,
    lane2_self (by decide) exec_vmaxI64,
    lane2_self (by decide) exec_vmaxN64,
    fun x => lane2_self (by decide) (fun d a b q l m e => exec_vshlI64 d a b q l m e x),
    lane2_self (by decide) exec_vshrI64,
    lane2_self (by decide) exec_vshrN64,
    -- bitwise instructions (R187)
    lane2_word exec_vand BitVec.toNat_and,
    lane2_word exec_vor BitVec.toNat_or,
    lane2_word exec_vxor BitVec.toNat_xor,
    lane2_word exec_vandn toNat_andNot,
    lane1_word exec_vnot (fun _ => BitVec.toNat_not),
    lane1_word exec_vpopc toNat_ones,
    -- immediates (R189)
    fun w => laneI_of w.bits_pos (exec_vaddi w) (fun _ n => by rw [sval_toNat n]),
    fun w => laneI_of w.bits_pos (exec_vshli w) (fun _ _ => rfl),
    fun w => laneI_of w.bits_pos (exec_vshriI w) (fun _ _ => rfl),
    fun w => laneI_of w.bits_pos (exec_vshriN w) (fun _ _ => rfl)⟩

/-- Settles O8: each arm reads the lane, or builds the mask of the row, that the statement names; the words differ only in how
they are written. -/
theorem crossLaneResults : Obligations.CrossLaneResults := by
  unfold Obligations.CrossLaneResults
  exact ⟨
    -- reads of other lanes (R204, R205)
    fun d a b q l m e => laneWord_of (exec_vlread d a b q l m e) rfl (fun _ _ => by rw [bits_index]),
    fun d a b q l m e => laneWord_of (exec_vshlx d a b q l m e) rfl (fun _ _ => ite_zero_eq (by omega) _),
    fun d a b q l m e => laneWord_of (exec_vshrx d a b q l m e) rfl (fun _ _ => ite_zero_eq (by omega) _),
    fun d a b q l m e => laneWord_of (exec_vshly d a b q l m e) rfl (fun _ _ => rfl),
    fun d a b q l m e => laneWord_of (exec_vshry d a b q l m e) rfl (fun _ _ => ite_zero_eq (by omega) _),
    fun d a b q l m e => laneWord_of (exec_vrotx d a b q l m e) rfl (fun _ _ => by rw [rotated_lane]),
    -- bytes within a lane (R205)
    fun d a b q l m e => laneOp_of (exec_vsubsel d a b q l m e) rfl (fun _ _ => subSel_eq _ _) (by decide),
    -- matches and votes of a row (R206, R207)
    fun d a t q l e => laneOp64_of (exec_vmatch d a t q l e) rfl (fun _ _ => toNat_rowMask _ _),
    fun d a q => laneOp64_of (exec_vballot d a q) rfl (fun _ _ => toNat_rowMask _ _),
    -- moves (R209)
    fun d a q l e => laneWord_of (exec_vmov d a q l e) rfl (fun _ _ => rfl),
    fun d a q l e => laneWord_of (exec_vbcast d a q l e) rfl (fun _ _ => rfl),
    fun d q i => laneWord_of (exec_vmovi d q i) rfl (fun _ _ => congrArg (BitVec.ofInt 64) (sval_toNat i)),
    fun d a b l m e => scalarOut_of (exec_vextr d a b l m e) rfl (fun _ => rfl),
    -- the count of a vote (R207)
    fun d a q => regOp_setS' (exec_vpcount d a q) rfl (fun g => needL_dests_scalar g _ d _ _)
      (fun _ => by rw [length_lanesOf_and]; rfl)⟩

end Sys2Proof.Machine
end
